-- ==== Sys2Proof/Word.lean ====
section
/-! DEFINITION. The word types of the model (R8: bit 0 is the least significant bit) and nothing else. -/
namespace Sys2Proof

/-- One byte of a payload, of a commons page or of a flit. -/
abbrev Byte := BitVec 8

/-- A 32-bit register word of control space (R39). -/
abbrev W32 := BitVec 32

/-- A 64-bit register word, descriptor word or time stamp (R39, R61). -/
abbrev W64 := BitVec 64

/-- A fabric address: camp in bits 11:6, member in bits 5:0 (R260). -/
abbrev Addr := BitVec 12

/-- An instance number, 0 the manager, 1 to 4,095 the tenants (R10). -/
abbrev InstNo := BitVec 12

/-- A die serial number (R54). -/
abbrev Serial := BitVec 64

end Sys2Proof
end

