-- ==== Sys2Proof/Syntax.lean ====
section
/-! DEFINITION. The commands of the block: the operand types and the one inductive `Instr`, one constructor per row of spec/opcode_table.json, in the table's order. -/
namespace Sys2Proof

/-- A crl port index: 0-7 are FP0-FP7, 8-11 are LP0-LP3 (R10). -/
abbrev Port := Fin 12
/-- A fabric port (R10). -/
abbrev FPort := Fin 8
/-- A local port (R10). -/
abbrev LPort := Fin 4

/-- Who sends a control access: a function of the host or the local design on a port (R556). -/
inductive Party where
  | pf
  | vf (n : InstNo)
  | lp (n : LPort) (core : Option (Fin 16))
  deriving DecidableEq, Repr

/-- The address space of an access (R562): the BAR0 of the party's function (or the local view), configuration space, or BAR4 of a function. -/
inductive Space where
  | bar0
  | cfg
  | bar4
  deriving DecidableEq, Repr

/-- One control access: who, where, how wide, which bytes, the data, and whether a host write is poisoned (R39, R41, R355). `fn` is the function of a configuration or BAR4 access. -/
structure Access where
  pty : Party
  space : Space
  fn : InstNo
  off : BitVec 24
  size8 : Bool
  be : BitVec 8
  data : W64
  ep : Bool
  deriving DecidableEq, Repr

/-- The resource a waiting request is admitted to (R36, R312, R395). -/
inductive AdmRes where
  | fabricTag
  | hostTag
  | localTag (p : LPort)
  | sourceLane
  | deliveryStream (p : LPort)
  deriving DecidableEq, Repr

/-- The two rails of Ember (R55). -/
inductive Rail where
  | vmain
  | vbat
  deriving DecidableEq, Repr

/-- Which clock's prescaler passes from 32,767 (R57). -/
inductive Clock where
  | tally
  | wall
  | both
  deriving DecidableEq, Repr

/-- The writable wall-clock registers (R66). -/
inductive WallReg where
  | calTime
  | calDate
  | bin
  deriving DecidableEq, Repr

/-- What the strap sampler saw (R99): for each digital strap and TEST_EN its 32 samples, bits 15:0 with the pull-up and bits 31:16 with the pull-down; for each resistor strap its three readings in units of 10 Ω (the third is used only where the first two decide differently). -/
structure StrapSamples where
  sd : List (BitVec 32)
  testEn : BitVec 32
  sv : List (Nat × Nat × Nat)
  deriving DecidableEq, Repr

/-- One pass of the re-read, steps 2 to 4 of sampling (R113): 32 samples of each digital strap and of TEST_EN, laid out as at sampling, and one reading of each resistor strap. -/
structure StrapPass where
  sd : List (BitVec 32)
  testEn : BitVec 32
  sv : List Nat
  deriving DecidableEq, Repr

/-- What a read of one 64-byte Store unit met (R168 to R172): the two copies of an instance descriptor as they were read, 32 words each; the two seal copies, by whether each passes its CRC; the two directory copies, by whether each matches. -/
inductive UnitRead where
  | clean
  | corrected
  | uncorrectable
  | pageCrc
  | copies (a b : List W64)
  | seals (aOk bOk : Bool)
  | directories (aMatches bMatches : Bool)
  deriving DecidableEq, Repr

/-- A region entry that a warm validation found uncorrectable or failing its page CRC (R170, R697): the Store address and whether the page CRC, not the ECC, failed. -/
structure BadUnit where
  addr : Nat
  crc : Bool
  deriving DecidableEq, Repr

/-- The two copies of an instance descriptor as they were read, where they are not what the device wrote (R172). -/
structure CopyPair where
  inst : InstNo
  a : List W64
  b : List W64
  deriving DecidableEq, Repr

/-- What step 7w read: the log header page good, the two CRC-64 of the seal equal to fresh ones, the units that failed, and the descriptors whose copies differ (R616, R697). -/
structure WarmReads where
  headerOk : Bool
  directoryOk : Bool
  imageOk : Bool
  bad : List BadUnit
  differ : List CopyPair
  deriving DecidableEq, Repr

/-- A flit's link header and payload (R219). -/
structure Flit where
  typ : BitVec 4
  vc : BitVec 3
  shared : Bool
  seq : BitVec 16
  ack : BitVec 16
  ackKind : BitVec 2
  sop : Bool
  eop : Bool
  len : BitVec 8
  crVc : BitVec 3
  crDed : BitVec 8
  crShared : BitVec 16
  payload : List Byte
  deriving DecidableEq, Repr

/-- The header of every network message (R262). -/
structure NetHdr where
  typ : BitVec 8
  version : BitVec 8
  length : BitVec 16
  sender : Addr
  quarantined : Bool
  auto : Bool
  noAddr : Bool
  deriving DecidableEq, Repr

/-- A Hello (R263). -/
structure Hello where
  hdr : NetHdr
  port : BitVec 8
  interval : BitVec 8
  cost : BitVec 8
  seenPort : BitVec 8
  incarnation : BitVec 32
  serial : Serial
  seen : Addr
  seenValid : Bool
  seenSerial : Serial
  deriving DecidableEq, Repr

/-- One link listed by an LSA (R264). -/
structure LsaLink where
  nbr : Addr
  port : BitVec 8
  nbrPort : BitVec 8
  cost : BitVec 8
  serial : Serial
  deriving DecidableEq, Repr

/-- A link-state message of one originator (R264). -/
structure Lsa where
  origin : Addr
  quarantined : Bool
  auto : Bool
  noAddr : Bool
  incarnation : BitVec 32
  seq : BitVec 32
  serial : Serial
  links : List LsaLink
  deriving DecidableEq, Repr

/-- An LSA key (R265). -/
structure LsaKey where
  addr : Addr
  incarnation : BitVec 32
  seq : BitVec 32
  serial : Serial
  deriving DecidableEq, Repr

/-- A transport packet: routing header, transport header and payload (R282, R302). -/
structure Pkt where
  dst : Addr
  src : Addr
  flow : BitVec 16
  ttl : BitVec 8
  esc : Bool
  dn : Bool
  opcode : BitVec 8
  flags : BitVec 8
  tag : BitVec 16
  tagUse : BitVec 8
  code : BitVec 8
  srcInst : BitVec 16
  dstInst : BitVec 16
  sseq : BitVec 16
  key : BitVec 32
  addr : BitVec 64
  length : BitVec 16
  generation : BitVec 16
  detail : BitVec 8
  retryAfter : BitVec 8
  lease : BitVec 16
  srcInc : BitVec 32
  data : List Byte
  resv : BitVec 14
  tail : BitVec 160
  deriving DecidableEq, Repr

/-- The path a packet reaches its handler by: a fabric port, or the switch's turn path (R31). Requests of a local design come by LOCAL_REQUEST. -/
inductive Via where
  | fabric (p : FPort)
  | turn
  | loc (p : LPort)
  deriving DecidableEq, Repr

/-- The answer of host memory to a device request (R358). -/
inductive HostStatus where
  | sc
  | ur
  | ca
  | poisoned
  deriving DecidableEq, Repr

/-- The depth of ASPM L1: L1 itself, L1.1 or L1.2 (R336, R339). -/
inductive L1Sub where
  | l1
  | l11
  | l12
  deriving DecidableEq, Repr

/-- A host AtomicOp (R352). -/
inductive AtomicKind where
  | fetchAdd
  | swap
  | cas
  deriving DecidableEq, Repr

/-- A host request that is no memory access to a BAR and no configuration access: the messages and request types of R352. -/
inductive HostMsg where
  | setSlotPowerLimit
  | vendorType0
  | vendorType1
  | ltr
  | ptm
  | other
  | ioRequest
  | cfgType1
  deriving DecidableEq, Repr

/-- An error on the host link (R367). -/
inductive HostErr where
  | receiver
  | badTlp
  | badDllp
  | replayTimer
  | replayRollover
  | dataLink
  | flowControl
  | overflow
  | malformed
  | unexpectedCpl
  deriving DecidableEq, Repr

/-- A control message's addressing on VC0 of a local port (R401). -/
structure CtlMsg where
  typ : BitVec 8
  core : BitVec 4
  coreValid : Bool
  ctag : BitVec 16
  offset : BitVec 24
  size : BitVec 8
  data : W64
  length : Nat
  deriving DecidableEq, Repr

/-- The SET and CLR banks of the LIC: shared word w (1-24) or the private bank of core c (R516). -/
inductive LicBank where
  | shared (w : Fin 32)
  | priv (c : Fin 16)
  deriving DecidableEq, Repr

/-- The LIC configuration registers of LIC_SRC_CFG_WRITE (R516). -/
inductive LicCfg where
  | src (n : Fin 1024)
  | psrc (c : Fin 16) (k : Fin 32)
  | core (c : Fin 16)
  | vbase (c : Fin 16)
  deriving DecidableEq, Repr

/-- A shadow Hello (R623). -/
structure TwinHello where
  version : BitVec 8
  serial : Serial
  incarnation : BitVec 32
  addr : Addr
  pref : BitVec 8
  held : BitVec 8
  role : BitVec 8
  sv8 : BitVec 4
  sv10 : BitVec 4
  committed : W64
  deriving DecidableEq, Repr

/-- One entry of a shadow Delta: a Store unit or a change-log record, with its 64 bytes as eight words (R623). -/
structure DeltaEnt where
  isRecord : Bool
  loc : Nat
  words : List W64
  deriving DecidableEq, Repr

/-- A shadow Commit (R623). -/
structure TwinCommit where
  version : BitVec 8
  epoch : W64
  entries : W64
  crc : W64
  boundary : W64
  tally : W64
  deriving DecidableEq, Repr

/-- A monitored main rail (R658). -/
inductive MainRail where
  | vcore
  | vphy09
  | vphy12
  | vio
  | vmainEmb
  deriving DecidableEq, Repr

/-- The commands, one per row of the table. -/
inductive Instr where
  | controlWrite (a : Access)
  | tagAdmission (r : AdmRes)
  | refclkLost
  | reffLost
  | reffReturn
  | crystalLoss
  | crystalGood
  | emberFreshStart (rail : Rail)
  | switchToVbat
  | returnToVmain
  | emberRailAbsent (rail : Rail)
  | secondBoundary (c : Clock)
  | oscStop
  | wallClockWrite (pty : Party) (reg : WallReg) (be : BitVec 8) (data : W64)
  | wallWriteApply (atBoundary : Bool)
  | wctlWrite (pty : Party) (be : BitVec 8) (data : W32)
  | dstAddHour (pty : Party)
  | dstSubtractHour (pty : Party)
  | tmTallyLoRead (pty : Party)
  | timeBlockRead (pty : Party) (reg : Fin 8)
  | tmEndRead (pty : Party)
  | freezeLapse (reader : Fin 5)
  | trimWrite (pty : Party) (be : BitVec 8) (data : W32)
  | trimWindowEnd (offset : BitVec 16)
  | switchOverSummary
  | holdBreak
  | wakeWrite (pty : Party) (be : BitVec 8) (data : W32)
  | wakeExpiry
  | pwronPulseEnd
  | railsGood
  | strapSamplingComplete (x : StrapSamples)
  | strapReread (x : StrapPass)
  | pllLock (ohms : Nat)
  | storeExitComplete (badA badB : Bool)
  | storeAttemptFail
  | coldInitComplete (ringPagesOk : Bool)
  | warmValidationComplete (r : WarmReads)
  | configurationReady
  | perstNAssert
  | perstNRelease
  | joinTimeout
  | blockRepitch (pty : Party) (be : BitVec 8) (code : BitVec 8)
  | repitchDrainEnd (block : BitVec 8)
  | repitchDrainLimit (block : BitVec 8)
  | repitchRestoreComplete (block : BitVec 8)
  | scrubRead (r : UnitRead)
  | dbgRead (pty : Party)
  | dbgReadComplete (poison : Bool)
  | storeChannelFail
  | trainingStart (p : Port)
  | trainingFrame (p : Port) (lane : Fin 8) (frame : BitVec 256)
  | trainingStepTimeout (p : Port)
  | trainingIdleEnd (p : Port)
  | deskewEnd (p : Port)
  | trainingConfigEnd (p : Port)
  | switchCountEnd (p : Port)
  | dataLock (p : Port)
  | fecCodeword (p : Port) (lane : Fin 8) (cw : List (BitVec 10))
  | syncBlock (p : Port) (lane : Fin 8) (header : BitVec 2) (payload : BitVec 64)
  | lockLoss (p : Port) (lane : Fin 8)
  | lockReturn (p : Port) (lane : Fin 8) (expiring : Bool)
  | lockLossTimerExpiry (p : Port)
  | retrain (pty : Party) (p : Port)
  | phycalMeasurement (ohms : Nat)
  | eyeScan (pty : Party) (p : Port) (be : BitVec 8) (data : W32)
  | eyeScanComplete (p : Port) (width height : BitVec 8)
  | correctedSymbolInterval (p : Port)
  | flitSlot (p : Port) (spillOk readBad : Bool)
  | dataFlit (p : Port) (f : Flit)
  | nullFlit (p : Port) (f : Flit)
  | initFlit (p : Port) (f : Flit)
  | undefinedFlit (p : Port) (f : Flit)
  | badFlit (p : Port)
  | replayTimeout (p : Port)
  | receiveDelivery (p : Port) (vc : Fin 8) (readBad : Bool)
  | initTimeout (p : Port)
  | sessionLapse (p : Port)
  | sendStall (p : Port)
  | replayRateInterval (p : Port)
  | hello (p : FPort) (h : Hello)
  | helloInterval (p : FPort)
  | neighbourDead (p : FPort)
  | lsa (p : FPort) (hdr : NetHdr) (l : Lsa)
  | networkAck (p : FPort) (hdr : NetHdr) (keys : List LsaKey)
  | summary (p : FPort) (hdr : NetHdr) (last : Bool) (keys : List LsaKey)
  | networkRequest (p : FPort) (hdr : NetHdr) (keys : List LsaKey)
  | requestResend (p : FPort)
  | lsaResend (p : FPort)
  | lsaOrigination
  | lsaDeletion (serial : Serial)
  | routeRun
  | routeInstall
  | packetForward (via : Via) (vc : BitVec 3) (k : Pkt)
  | escapeMove (p : FPort) (vc : BitVec 3)
  | dampingEnd (p : FPort)
  | rd (via : Via) (vc : BitVec 3) (k : Pkt)
  | wrp (via : Via) (vc : BitVec 3) (k : Pkt)
  | wra (via : Via) (vc : BitVec 3) (k : Pkt)
  | fadd (via : Via) (vc : BitVec 3) (k : Pkt)
  | swap (via : Via) (vc : BitVec 3) (k : Pkt)
  | cas (via : Via) (vc : BitVec 3) (k : Pkt)
  | msg (via : Via) (vc : BitVec 3) (k : Pkt)
  | msga (via : Via) (vc : BitVec 3) (k : Pkt)
  | fence (via : Via) (vc : BitVec 3) (k : Pkt)
  | probe (via : Via) (vc : BitVec 3) (k : Pkt)
  | hacq (via : Via) (vc : BitVec 3) (k : Pkt)
  | hrel (via : Via) (vc : BitVec 3) (k : Pkt)
  | hrenew (via : Via) (vc : BitVec 3) (k : Pkt)
  | hquery (via : Via) (vc : BitVec 3) (k : Pkt)
  | hdrop (via : Via) (vc : BitVec 3) (k : Pkt)
  | rsp (via : Via) (vc : BitVec 3) (k : Pkt)
  | undefinedOpcode (via : Via) (vc : BitVec 3) (k : Pkt)
  | gapSkip (node : Addr) (flow : BitVec 16)
  | sourceLaneFree (node : Addr) (flow : BitVec 16)
  | busyRetry (tag : BitVec 16)
  | endToEndTimeout (tag : BitVec 16)
  | localTagTimeout (p : LPort) (tag : Fin 4096)
  | holdExpiry (home : InstNo) (addr : BitVec 64)
  | configWrite (fn : InstNo) (off : BitVec 12) (be : BitVec 8) (data : W32)
  | pfFlr
  | vfFlr (n : InstNo)
  | vfEnableSet
  | vfEnableClear
  | hotReset
  | dlDown
  | hostBar2Write (fn : InstNo) (off : BitVec 64) (bytes : List Byte) (be : List Bool) (ep : Bool)
  | hostBar2Read (fn : InstNo) (reqTag : BitVec 16) (off : BitVec 64) (length : Nat)
  | hostBar2Atomic (fn : InstNo) (reqTag : BitVec 16) (off : BitVec 64) (kind : AtomicKind) (width : Nat) (operands : List Byte)
  | msixTableWrite (fn : InstNo) (off : BitVec 24) (size8 : Bool) (be : BitVec 8) (data : W64)
  | hostMessage (fn : InstNo) (m : HostMsg)
  | cplLimitExpiry (fn : InstNo) (reqTag : BitVec 16)
  | hostCompletion (htag : BitVec 16) (status : HostStatus) (data : List Byte)
  | completionTimeout (htag : BitVec 16)
  | l1Exit
  | hostCorrectedInterval
  | winCommit (pty : Party) (index : BitVec 16)
  | winRead (pty : Party) (index : BitVec 16)
  | winDisable (pty : Party) (index : BitVec 16)
  | wcLineTimeout (fn : InstNo) (off : BitVec 64)
  | localRequest (p : LPort) (vc : BitVec 3) (k : Pkt)
  | localGapSkip (p : LPort) (inst : InstNo) (dst : Addr) (key : BitVec 32)
  | cread (p : LPort) (m : CtlMsg)
  | cwrite (p : LPort) (m : CtlMsg)
  | raise (p : LPort) (m : CtlMsg)
  | insPitch (pty : Party) (index : InstNo)
  | insResize (pty : Party) (index : InstNo)
  | insDestroy (pty : Party) (index : InstNo)
  | insRead (pty : Party) (index : InstNo)
  | flrComplete (n : InstNo)
  | inboxRing (pty : Party) (n : InstNo) (mask : BitVec 8)
  | outboxRing (n : InstNo) (mask : BitVec 8)
  | mailboxSlotWrite (pty : Party) (n : InstNo) (slot : Fin 8) (data : W64)
  | msgConsWrite (pty : Party) (n : InstNo) (be : BitVec 8) (cons : BitVec 32)
  | commonsAccess (pty : Party) (off : BitVec 24) (write : Bool) (length : Nat) (bytes : List Byte) (be : List Bool)
  | bucketRefill
  | bucketLimitWrite (pty : Party) (bucket : BitVec 12) (field : Fin 8) (be : BitVec 8) (data : W32)
  | egressVisit (e : Fin 14)
  | dlStart (pty : Party) (t : BitVec 10)
  | dlSwitch (pty : Party) (t : BitVec 10)
  | dlStop (pty : Party) (t : BitVec 10)
  | dlRead (pty : Party) (t : BitVec 10)
  | dlSwitchDrainDone (t : BitVec 10)
  | dlWordWrite (t : BitVec 10) (half : Bool) (word : Nat)
  | signal (pty : Party) (be : BitVec 8) (data : W32)
  | pendSet (pty : Party) (b : LicBank) (be : BitVec 8) (data : W32)
  | pendClr (pty : Party) (b : LicBank) (be : BitVec 8) (data : W32)
  | maskSet (pty : Party) (b : LicBank) (be : BitVec 8) (data : W32)
  | maskClr (pty : Party) (b : LicBank) (be : BitVec 8) (data : W32)
  | licSrcCfgWrite (pty : Party) (r : LicCfg) (be : BitVec 8) (data : W64)
  | coreBindWrite (pty : Party) (c : Fin 16) (be : BitVec 8) (data : W32)
  | claimRead (pty : Party) (c : Fin 16)
  | eoi (pty : Party) (c : Fin 16) (be : BitVec 8) (data : W32)
  | deliverCredit (c : Fin 16)
  | deliverCreditWait (p : LPort)
  | licGateEntry
  | licWake (accessWaits : Bool)
  | licRestoreComplete (crcOk : Bool)
  | sourceRaise (n : Fin 512) (level : Bool) (port : Port)
  | guylineBroken (n : Fin 512)
  | guylineMended (n : Fin 512) (asserted : Bool)
  | escalationStep
  | graveChipReset
  | fwtAck (pty : Party) (be : BitVec 8) (data : W32)
  | forceSet (pty : Party) (w : Fin 16) (be : BitVec 8) (data : W32)
  | forceClr (pty : Party) (w : Fin 16) (be : BitVec 8) (data : W32)
  | fwtSrcCfgWrite (pty : Party) (n : Fin 512) (be : BitVec 8) (data : W32)
  | wearMeasurement (slowdowns : List (BitVec 16))
  | errRelease
  | recordWrite
  | clgAck (pty : Party) (seq : W64)
  | rdSeqWrite (pty : Party) (seq : W64)
  | rdRecAdvance (pty : Party)
  | snapshotTaken (bad : Bool)
  | pushBatch
  | pushConsWrite (pty : Party) (seq : W64)
  | pdOff (pty : Party) (be : BitVec 8) (domain : Fin 64)
  | pdOn (pty : Party) (be : BitVec 8) (domain : Fin 64)
  | pdDrainEnd
  | pdDrainLimit
  | lostWriteRecord (domain : Fin 64)
  | pdPowerOffComplete
  | pdPowerOnComplete
  | powerGoodTimeout
  | autoRetainEntry (domain : Fin 64)
  | retainWake (domain : Fin 64) (crcOk : Bool)
  | pwrfailNLow
  | monitorTrip (rail : MainRail)
  | bivouacDrainEnd (bad : List BadUnit)
  | bivouacBudgetExpiry (bad : List BadUnit)
  | returnWithoutLoss
  | resumeTokenWrite (pty : Party) (token : W64)
  | resume (pty : Party) (token : W64)
  | resumeDiscard (pty : Party) (be : BitVec 8)
  | resumptionComplete
  | discardComplete
  | shadowHello (h : TwinHello)
  | delta (version : BitVec 8) (epoch : W64) (entries : List DeltaEnt)
  | commit (c : TwinCommit)
  | shadowAck (version : BitVec 8) (epoch : W64) (rejected : Bool)
  | twinHelloInterval
  | twinCreditTimeout
  | epochClose
  | twinRenew
  | orphan
  | activeLost
  | witnessQuietEnd
  | twinWitnessWrite (pty : Party) (be : BitVec 8) (data : W32)
  | twinResume (pty : Party) (be : BitVec 8)
  | twinTakeOver (pty : Party) (be : BitVec 8)
  | twinReform (pty : Party) (be : BitVec 8)
  | twinRdSeqWrite (pty : Party) (seq : W64)
  | twinRdRecAdvance (pty : Party)
  | pwrfailNGlitch
  | railReading (mv : List Nat)
  | vbatMeasurement (mv : Nat)
  | tempReading (temps : List Int)
  | refclkReturn
  | hostLinkUp (speed width : BitVec 3) (flit : Bool)
  | aspmL1Entry (sub : L1Sub)
  | hostLinkError (e : HostErr) (fn : InstNo)
  | convergence
  | dampingCountReset (p : FPort)
  | deliveryStreamFree (p : LPort) (src : Addr) (inst : InstNo) (key : BitVec 32)
  | insCmdComplete
  | winCmdComplete
  | mainPowerLoss
  deriving DecidableEq, Repr

end Sys2Proof
end

