-- ==== Sys2Proof/Config.lean ====
section
/-! DEFINITION. What the manual leaves open and the model leaves free: a constant without a body, applied to a plain counter of the state, so that no proof can see its value (log entry 4). -/
namespace Sys2Proof.Config

/-- The free value number n: the contents of a Store unit that nothing has written (R178) and every other word the manual calls undefined or whose bits no rule gives (log entry 4). -/
opaque freeValue : Nat → BitVec 64

/-- A free byte, cut from the free value of the same number. -/
def freeByte (n : Nat) : Byte := (freeValue n).setWidth 8

/-- The serial number of this die, unique per die (R54, log entry 5). -/
opaque dieSerial : BitVec 64

/-- The termination code that a PHYCAL resistance in units of 0.1 Ω gives (R207). -/
opaque termCode : Nat → Nat

/-- The transmit-swing code that a PHYCAL resistance in units of 0.1 Ω gives (R207). -/
opaque swingCode : Nat → Nat

/-- How many requests an admission queue holds beside the first before it withholds credits (R36, log entry 122). -/
opaque admissionDepth : Nat

/-- The built-in default termination code (R207). -/
opaque termDefault : Nat

/-- The built-in default transmit-swing code (R207). -/
opaque swingDefault : Nat

end Sys2Proof.Config
end

