-- ==== Sys2Proof/Machine/Map.lean ====
section
/-! DEFINITION. Sparse tables as plain data: a list of key and value pairs with strictly rising keys. A partial table uses `find?`, `ins` and `del`; a table with a value for every key uses `lk` and `put`, and lists no entry equal to what an unlisted key reads as. -/
namespace Sys2Proof.Machine

/-- A sparse table keyed by a number. -/
abbrev SMap (α : Type) := List (Nat × α)

/-- The entry of key `k`, if listed. -/
def SMap.find? {α : Type} (m : SMap α) (k : Nat) : Option α :=
  match m with
  | [] => none
  | (j, v) :: t => if j = k then some v else if k < j then none else SMap.find? t k

/-- The table with key `k` holding `v`. -/
def SMap.ins {α : Type} (m : SMap α) (k : Nat) (v : α) : SMap α :=
  match m with
  | [] => [(k, v)]
  | (j, w) :: t => if k < j then (k, v) :: (j, w) :: t else if k = j then (k, v) :: t else (j, w) :: SMap.ins t k v

/-- The table without key `k`. -/
def SMap.del {α : Type} (m : SMap α) (k : Nat) : SMap α :=
  match m with
  | [] => []
  | (j, w) :: t => if k < j then (j, w) :: t else if k = j then t else (j, w) :: SMap.del t k

/-- The value of key `k`, `d` where unlisted. -/
def SMap.lk {α : Type} (m : SMap α) (d : α) (k : Nat) : α := (m.find? k).getD d

/-- The table with `k` reading `v`; writing the value an unlisted key reads as removes the entry. -/
def SMap.put {α : Type} [DecidableEq α] (m : SMap α) (d : α) (k : Nat) (v : α) : SMap α :=
  if v = d then m.del k else m.ins k v

/-- The table with the entry of `k`, or `d`, changed by `f`. -/
def SMap.upd {α : Type} [DecidableEq α] (m : SMap α) (d : α) (k : Nat) (f : α → α) : SMap α :=
  m.put d k (f (m.lk d k))

/-- The keys listed. -/
def SMap.keys {α : Type} (m : SMap α) : List Nat := m.map (·.1)

/-- The values listed. -/
def SMap.vals {α : Type} (m : SMap α) : List α := m.map (·.2)

/-- The entries that pass a test of key and value. -/
def SMap.keep {α : Type} (m : SMap α) (f : Nat → α → Bool) : SMap α := m.filter (fun e => f e.1 e.2)

/-- Keys rise strictly from above `lo`. -/
def SMap.rising {α : Type} (m : SMap α) (lo : Nat) : Bool :=
  match m with
  | [] => true
  | (j, _) :: t => lo ≤ j && SMap.rising t (j + 1)

/-- The canonical form: keys strictly rising. -/
def SMap.wf {α : Type} (m : SMap α) : Bool := m.rising 0

/-- Canonical against a default: keys strictly rising and no entry equal to what an unlisted key reads as. -/
def SMap.canon {α : Type} [DecidableEq α] (m : SMap α) (d : α) : Bool := m.wf && m.all (fun e => e.2 ≠ d)

/-- The least number from `i` on, below `hi`, that is not a key. -/
def SMap.freshFrom {α : Type} (m : SMap α) (i hi : Nat) : Option Nat :=
  match m with
  | [] => if i < hi then some i else none
  | (j, _) :: t => if hi ≤ i then none else if i < j then some i else if i = j then SMap.freshFrom t (i + 1) hi else SMap.freshFrom t i hi

end Sys2Proof.Machine
end

