-- ==== Sys2Proof/Machine/State.lean ====
section
/-! DEFINITION. The state of the device as plain data, the stops, and the state after reset. A register of control space has one home, `Dev.regs`, by its PF BAR0 offset (R53); what is no register has a field of its own. -/
namespace Sys2Proof.Machine

/-- One field of a register: PF BAR0 offset of the register, high bit, low bit (R8, R9). -/
structure Fld where
  off : Nat
  hi : Nat
  lo : Nat
  deriving DecidableEq, Repr

/-- Access codes (R19). -/
inductive Acc where
  | ro | rw | wo | w1s | w1c | wm | sf | set | clr
  deriving DecidableEq, Repr

/-- Strength orders of WM fields (R111); `period` is the Timer order on the coded scrub period (R190). -/
inductive WmOrder where
  | none | set | timer | threshold | cls | enable | period
  deriving DecidableEq, Repr

/-- The values a field admits: every other value is a reserved encoding (R576). `pvec` and `logLevel` depend on the state (R444, R554, R582). -/
inductive Legal where
  | any
  | range (lo hi : Nat)
  | trim
  | pvec
  | logLevel
  deriving DecidableEq, Repr

/-- A field's definition in a Reference table. -/
structure FDef where
  hi : Nat
  lo : Nat
  acc : Acc
  ord : WmOrder
  legal : Legal
  deriving DecidableEq, Repr

/-- Reset codes (R20). -/
structure Codes where
  p : Bool
  w : Bool
  f : Bool
  b : Bool
  e : Bool
  s : Bool
  deriving DecidableEq, Repr

/-- A register or register array of a Reference table: offset, two strides and counts, 64-bit access only, reset value, reset codes, fields. -/
structure RegDef where
  off : Nat
  s1 : Nat
  n1 : Nat
  s2 : Nat
  n2 : Nat
  wide : Bool
  reset : Nat
  codes : Codes
  fields : List FDef
  deriving DecidableEq, Repr

/-- Change-log origins (R21, R555). -/
inductive Origin where
  | strap (code : Nat)
  | manager
  | tenant (n : Nat)
  | loc (p : Nat) (core : Option Nat)
  | fabric (addr inst : Nat)
  | hardware (blk port : Nat)
  | ember
  deriving DecidableEq, Repr

/-- A change-log record before it is numbered and chained (R562). -/
structure Rec where
  tally : W64
  org : Origin
  space : Nat
  flags : BitVec 16
  target : W64
  old : W64
  new : W64
  aux : W64
  deriving DecidableEq, Repr

/-- A record of the ring with its chain value (R562, R566). -/
structure LogEnt where
  body : Rec
  chain : W64
  bad : Bool
  deriving DecidableEq, Repr

/-- What leaves on the host link or appears to the host. -/
inductive Out where
  /-- A posted memory write to host memory with a function's Requester ID (R356). -/
  | mwr (fn : Nat) (addr : W64) (data : List Byte) (ep : Bool)
  /-- A memory read (R356). -/
  | mrd (fn htag : Nat) (addr : W64) (len : Nat)
  /-- A host AtomicOp (R356). -/
  | atomic (fn htag : Nat) (addr : W64) (kind : AtomicKind) (operands : List Byte)
  /-- A completion to a host request (R353): status, data, EP. -/
  | cpl (fn : Nat) (reqTag : BitVec 16) (status : HostStatus) (data : List Byte) (ep : Bool)
  /-- An MSI-X message (R361). -/
  | msix (fn vec : Nat) (addr : W64) (data : W32)
  /-- An AER error message: 0 correctable, 1 non-fatal, 2 fatal (R367). -/
  | err (fn sev : Nat)
  /-- Configuration Request Retry Status (R137). -/
  | rrs (fn : Nat)
  /-- The answer to a read of control space or commons by a host function, poisoned where a unit is uncorrectable (R39, R179). -/
  | rdata (fn : Nat) (data : List Byte) (ep : Bool)
  /-- A flit on port `p` with its CRC (R219, R220). -/
  | flit (p : Nat) (f : Flit) (crc : W32)
  /-- The levels a transmit lane of port `p` sends: a training frame, a codeword, a block behind its sync header (R195 to R200). -/
  | line (p lane : Nat) (levels : List Nat)
  deriving DecidableEq, Repr

/-- What waits in an egress queue: a transport packet, the bytes of a message of VC0 or VC7, or a host TLP. -/
inductive Item where
  | tp (k : Pkt)
  | raw (b : List Byte)
  | host (o : Out)
  /-- A host TLP whose issue completes a write (R311, R356): the request, the path it came by, and whether this TLP is its last. -/
  | hostW (o : Out) (k : Pkt) (via : Via) (last : Bool)
  deriving DecidableEq, Repr

/-- A queued item, its virtual channel and its size in bytes (R457). -/
structure QEnt where
  item : Item
  vc : Nat
  size : Nat
  deriving DecidableEq, Repr

/-- A group of an egress (R456): instances are 0 to 4,095, transit groups 0x1000 + ingress port, VC7 is 0x2000. -/
structure EGroup where
  id : Nat
  deficit : Nat
  q : List QEnt
  deriving DecidableEq, Repr

/-- An egress: strictly first, responses, groups in cyclic order (R456, R457). -/
structure Egress where
  net : List QEnt
  rsp : List QEnt
  groups : List EGroup
  deriving DecidableEq, Repr

/-- Who waits for the answer of a request of this node. -/
inductive Who where
  | host (fn : Nat) (rt : BitVec 16)
  | loc (p : Nat) (ltag : Nat) (tag : BitVec 16) (use : BitVec 8)
  | twin (op : Nat)
  | line (id : Nat)
  | none
  deriving DecidableEq, Repr

/-- An outstanding fabric tag (R36, R308, R316). -/
structure FTag where
  pkt : Pkt
  who : Who
  busyWait : Bool
  deriving DecidableEq, Repr

/-- What a waiting request waits for (R36, R309, R312, R454): tokens, a BUSY retry of its stream, a fabric tag, a lane, the node's claim. -/
inductive WStage where
  | claim
  | tokens
  | stream
  | localTag
  | fabricTag
  | lane
  deriving DecidableEq, Repr

/-- A request of this node waiting at admission. -/
structure Wait where
  pkt : Pkt
  who : Who
  stage : WStage
  paid : Bool
  deriving DecidableEq, Repr

/-- A request at this node as destination, waiting for a host-directed tag, a local-port tag or a delivery stream (R36, R395). -/
structure DWait where
  pkt : Pkt
  via : Via
  res : AdmRes
  deriving DecidableEq, Repr

/-- A parked packet of a lane or of a local stream (R313, R399). -/
structure Parked where
  key : Nat
  via : Via
  vc : Nat
  pkt : Pkt
  deriving DecidableEq, Repr

/-- A home entry of a hold (R322): lease end in ms of the tally. -/
structure HoldEnt where
  inst : Nat
  addr : W64
  node : Nat
  owner : Nat
  inc : W32
  lease : Nat
  held : Bool
  broken : Bool
  deriving DecidableEq, Repr

/-- An owned entry (R322). -/
structure OwnedEnt where
  inst : Nat
  node : Nat
  home : Nat
  addr : W64
  deriving DecidableEq, Repr

/-- A local-port tag: a request delivered to the local design, or one it originated (R397). -/
structure LTag where
  deliver : Bool
  pkt : Pkt
  via : Via
  gen : BitVec 16
  deriving DecidableEq, Repr

/-- A host request of BAR2 awaiting its transport answer (R353). -/
structure HReq where
  fn : Nat
  rt : BitVec 16
  addr : Nat
  len : Nat
  deriving DecidableEq, Repr

/-- One host-directed non-posted operation, cut into pieces (R356): the pieces still to issue (index, address, length), the pieces not yet completed; each issued piece holds a host-directed tag. -/
structure HOp where
  pkt : Pkt
  via : Via
  fn : Nat
  todo : List (Nat × Nat × Nat)
  left : Nat
  data : SMap (List Byte)
  fail : Option (BitVec 8 × BitVec 8)
  deriving DecidableEq, Repr

/-- A host-directed tag: operation and piece index; `stale` after an FLR or link down ended the operation. -/
structure HTag where
  op : Nat
  piece : Nat
  fn : Nat
  stale : Bool
  deriving DecidableEq, Repr

/-- A write-combining line (R389): the translation recorded when it was opened. -/
structure WcLine where
  inst : Nat
  win : Nat
  off : Nat
  dst : Nat
  dinst : Nat
  key : W32
  addr : W64
  data : SMap Byte
  id : Nat
  sending : Bool
  born : Nat
  deriving DecidableEq, Repr

/-- A host request to BAR2 that waits behind a write for which the write-combining buffer has no line (R390): a write, or a non-posted request behind it. -/
inductive HostReq2 where
  | write (fn off : Nat) (bytes : List Byte) (be : List Bool) (ep : Bool)
  | np (op fn : Nat) (rt : BitVec 16) (off len : Nat) (data : List Byte) (perm : Nat)
  deriving DecidableEq, Repr

/-- A freeze shadow of the time block (R71): the eight words and whether a read of tm_tally_lo started it. -/
structure Frz where
  snap : List W32
  byLo : Bool
  deriving DecidableEq, Repr

/-- A wall-clock write on its way to Ember (R66). -/
structure WallPend where
  reg : WallReg
  be : BitVec 8
  data : W64
  deriving DecidableEq, Repr

/-- Ember (R55 to R90) beside its registers. -/
structure Ember where
  tallySec : Nat
  tallyPre : Nat
  wallPre : Nat
  cyc : Nat
  winPos : Nat
  winOk : Bool
  trimNow : BitVec 10
  wall : Option WallPend
  frz : SMap Frz
  onVbat : Bool
  vmain : Bool
  vbat : Bool
  xtal : Bool
  subst : Bool
  goodPend : Bool
  swSince : Bool
  deriving DecidableEq, Repr

/-- Pins, supplies and references (19, R34): main power, PERST_N asserted, HOLD_OK asserted, REFCLK and REFF present. -/
structure Pins where
  main : Bool
  perst : Bool
  holdOk : Bool
  refclk : Bool
  reff : Bool
  deriving DecidableEq, Repr

/-- A block re-pitch or Firewatch block reset under way (R145, R526): step 3 drain, 5 restore. -/
structure BReset where
  block : Nat
  step : Nat
  fwt : Bool
  again : Bool
  limit : Bool
  deriving DecidableEq, Repr

/-- The phases of Bivouac (R608): none, drain (steps 1 to 3), held (after step 8). -/
inductive BvcPhase where
  | none | drain | held
  deriving DecidableEq, Repr

/-- The pitch sequencer beside its registers (04): step 9 reached, straps latched, the log started (step 8), the ring initialised empty (R133), what step 2 read (R131), the last pass of the re-read, TEST_EN sampled and confirmed, the block resets under way. -/
structure Pit where
  ready : Bool
  sampled : Bool
  logOpen : Bool
  emptyRing : Bool
  b58 : Nat
  b59 : Nat
  inc0 : W32
  seq0 : W32
  prev : Option StrapPass
  testEnS : Bool
  testEnNow : Bool
  resets : List BReset
  deriving DecidableEq, Repr

/-- The power state of a domain (R583, R588, R590, R594): `off` by the manager, `hwOff` by hardware, `autoOff` by automatic gating, `bvcOff` by Bivouac. -/
inductive PdSt where
  | on | retain | off | hwOff | autoOff | closing | drained | poweringOff | powerOn | bvcOff
  deriving DecidableEq, Repr

/-- Power domains (17) beside their registers: states, lost posted writes not yet in a kind 14 record, block generations, and the states that the running pitch found, where the device had power before it (R596). -/
structure Pd where
  st : SMap PdSt
  lost : SMap Nat
  gen : SMap (BitVec 16)
  prev : Option (SMap PdSt)
  deriving DecidableEq, Repr

/-- The seal (R612). -/
structure Seal where
  seq : W32
  inc : W32
  tally : W64
  trigger : Nat
  incomplete : Bool
  sd : W32
  sv : W64
  token : W64
  head : W64
  chain : W64
  lost : Nat
  role : Nat
  imageOk : Bool
  epoch : W64
  boundary : W64
  peer : Serial
  deriving DecidableEq, Repr

/-- Routing tables of one run (R280, R287). -/
structure Routes where
  camp : SMap W32
  member : SMap W32
  escUp : SMap Nat
  escDn : SMap Nat
  root : Nat
  level : Nat
  reach : List Nat
  deriving DecidableEq, Repr

/-- No routes: every entry invalid, nothing reached. -/
def Routes.empty : Routes := ⟨[], [], [], [], 0, 0, []⟩

/-- A route snapshot (R278): the database, the tables, and the member this node then held (R275). -/
structure Snap where
  db : SMap Lsa
  tbl : Routes
  member : Option Nat
  deriving DecidableEq, Repr

/-- The Store beside its registers (05): whether the stack is in self-refresh, was initialised, the seal copies, the log header, scrub position, quarantined tags, the warm image (R614), the member recorded in the newest route snapshot (R275, R278), and the unit a diagnostic read is under way for. -/
structure Sto where
  held : Bool
  live : Bool
  sealA : Option Seal
  sealB : Option Seal
  cur : Option Seal
  hdrLevel : Option Nat
  hdrHead : W64
  hdrTail : W64
  hdrAnchor : W64
  scrubPos : Nat
  quar : SMap Bool
  image : SMap W64
  errUnits : SMap Bool
  twinWord : W64
  snap0 : Option Snap
  snap1 : Option Snap
  snapLast : Bool
  dbgAt : Nat
  deriving DecidableEq, Repr

/-- One lane in training (R200 to R202). Of the frames received: good ones in a row, and of one state; the fields of the last good one, and the microsecond it came; `rep`, the partner has reported this lane synced. Of what the lane sends: its answer to a tap request, and its own requests. -/
structure LaneT where
  run : Nat
  sameRun : Nat
  lastState : Nat
  inv : Bool
  seq : Nat
  lane : Nat
  native : Nat
  rate : Nat
  fec : Bool
  kind : Bool
  widths : Nat
  ack : Bool
  hold : Bool
  eqIn : Nat
  count : Nat
  heard : Nat
  rep : Bool
  eqStat : Nat
  reqPre : Nat
  reqPost : Nat
  deriving DecidableEq, Repr

/-- Lock tracking of one lane (R204): codewords that decoded in a row, uncorrectable ones in a row, the codewords or blocks since the last mark (0 at the mark), superframes without their mark; the last 64 headers, newest first, and the flits without theirs. -/
structure LaneL where
  good : Nat
  bad : Nat
  since : Option Nat
  missed : Nat
  hist : List Bool
  missHdr : Nat
  deriving DecidableEq, Repr

/-- The transmit coding of one logical lane (R197 to R199): the last 58 scrambled bits, the message symbols of the codeword begun, its place in the superframe. -/
structure TxLane where
  scr : BitVec 58
  msg : List (BitVec 10)
  cw : Nat
  deriving DecidableEq, Repr

/-- The transmit coding of a port: stream bits that make no whole symbol yet, the lane the next symbol goes to, the lanes. -/
structure LineTx where
  bits : List Bool
  sym : Nat
  lanes : SMap TxLane
  deriving DecidableEq, Repr

/-- What a lane brings of the stream: its pieces (symbols, or one block), and whether they are in error (R198, R199). -/
structure Piece where
  parts : List (List Bool)
  err : Bool
  deriving DecidableEq, Repr

/-- A flit as the physical layer hands it up: 256 bytes, and whether a bit of it is in error (R198, R199, R220). -/
structure UpFlit where
  bytes : List Byte
  err : Bool
  deriving DecidableEq, Repr

/-- The receive coding of a port (R197 to R199): the last 58 received bits of each physical lane; by place in the superframe or flit, what the logical lanes have brought (pieces of the stream, and whether in error); stream bits with their error marks that make no whole flit yet; whether a flit boundary is known; the flits handed up and not yet judged by the link layer. -/
structure LineRx where
  scr : SMap (BitVec 58)
  rows : SMap (SMap Piece)
  bits : List (Bool × Bool)
  aligned : Bool
  up : List UpFlit
  deriving DecidableEq, Repr

/-- A sequenced flit as first sent (R230), its ack and credit fields included, when, and of its packet: whether it is posted, a number, the scope a FENCE sees (R311), whether it is the last Summary of an exchange (R268). -/
structure TxFlit where
  seq : Nat
  sent : Nat
  f : Flit
  posted : Bool
  pid : Nat
  scope : Option (Nat × Nat × Nat)
  last : Bool
  deriving DecidableEq, Repr

/-- A packet being sent on a VC: its remaining bytes (R225). -/
structure TxPkt where
  bytes : List Byte
  started : Bool
  posted : Bool
  pid : Nat
  scope : Option (Nat × Nat × Nat)
  last : Bool
  deriving DecidableEq, Repr

/-- A received flit waiting for delivery to the switch (R237, R238); of a landed one also its slot of the landing ring and its 256 bytes as received. -/
structure RxFlit where
  seq : Nat
  shared : Bool
  sop : Bool
  eop : Bool
  abort : Bool
  data : List Byte
  slot : Nat
  wire : List Byte
  deriving DecidableEq, Repr

/-- A packet being assembled at the receive side (R225, R249); `skip`: what follows is discarded, up to the next sop where `toSop`, else up to eop. -/
structure RxOpen where
  flits : Nat
  bytes : List Byte
  skip : Bool
  toSop : Bool
  deriving DecidableEq, Repr

/-- The Init exchange (R241): a good Init has been received, ok as computed, an Init with peer_seen was sent, the partner's peer_seen came, its resume bit, further Inits sent, and the partner's identity and expect. -/
structure InitX where
  seen : Bool
  ok : Bool
  sent : Bool
  peer : Bool
  peerResume : Bool
  after : Nat
  inc : W32
  gen : BitVec 16
  expect : Nat
  deriving DecidableEq, Repr

/-- The physical layer of a port beside its registers (06): attempts failed in a row, the idle time after a failure, the lock-loss timer running, what each lane received, corrected symbols of this second, the width found at Deskew; the lanes held out and the FEC request of this training (R194, R214), each lane's offset in frames (R201, R204), the frame counter, the coding of both directions. -/
structure Phy where
  fails : Nat
  idle : Bool
  timer : Bool
  lanes : SMap LaneT
  lock : SMap LaneL
  corr : Nat
  width : Nat
  off : List Nat
  fecReq : Bool
  skew : SMap Nat
  seq : Nat
  tx : LineTx
  rx : LineRx
  deriving DecidableEq, Repr

/-- The link layer of a port beside its registers (07): the near and far rings, the replay under way and the one last made, replays without progress and in this second, a NAK due, the Init exchange, the partner's identity (R239), packets to send by VC, cumulative grants given, reported and seen, credits the partner holds (R236, R250), the receive buffers by VC, the packets open at delivery and on the line, and the packets handed to the switch; a replay begun of which no flit has been sent (R252), a spill refused (R255), the microsecond of the last NAK or advance of E (R228), and whether only Inits have come since the last exchange ended (R254). -/
structure Link where
  near : List TxFlit
  far : List TxFlit
  replay : List Nat
  lastReplay : Option Nat
  stale : Nat
  replays : Nat
  nakSend : Bool
  init : Option InitX
  peerInc : W32
  peerGen : BitVec 16
  peerKnown : Bool
  txq : SMap (List TxPkt)
  pid : Nat
  gd : SMap Nat
  gs : Nat
  gdSeen : SMap Nat
  gsSeen : Nat
  gdSent : SMap Nat
  gdOut : SMap Nat
  gsOut : Nat
  crVc : Nat
  rxBuf : SMap (List RxFlit)
  rxOpen : SMap RxOpen
  done : List (Nat × List Byte)
  lineOpen : SMap RxOpen
  begun : Bool
  stuck : Bool
  nakAt : Nat
  tail : Bool
  deriving DecidableEq, Repr

/-- The termination and transmit-swing codes that every port derives from the PHYCAL measurement, and the codes they move to (R207). -/
structure PhyCal where
  term : Nat
  swing : Nat
  termTo : Nat
  swingTo : Nat
  deriving DecidableEq, Repr

/-- A crl port. -/
structure PortSt where
  phy : Phy
  link : Link
  deriving DecidableEq, Repr

/-- A neighbour's exchange state on one port beside its registers (R267 to R269, R273): its hello interval and port, its flag, whether its last Summary has come, the Requests outstanding, the LSAs sent and not acknowledged, the Hellos counted in a millisecond. -/
structure Nbr where
  interval : Nat
  nbrPort : Nat
  quarantined : Bool
  lastIn : Bool
  reqs : List LsaKey
  unacked : List Serial
  helloMs : Nat
  helloCnt : Nat
  helloTx : Nat
  deriving DecidableEq, Repr

/-- Discovery and routing beside its registers (08): neighbours, the database by serial, own sequence number, the incarnation last reported of each serial (R274), a change since the last run began and its time, changes waiting for an origination, the run under way, the tables in force and whether the registers show them (R297), whether the claim check was made, the rivals already reported, and yields in a row. -/
structure Net where
  nbr : SMap Nbr
  lsdb : SMap Lsa
  seq : W32
  incs : SMap W32
  dirty : Bool
  chg : Nat
  changed : Bool
  run : Option Routes
  tbl : Routes
  shown : Bool
  checked : Bool
  kept : List Nat
  yields : Nat
  deriving DecidableEq, Repr

/-- The transport endpoint beside its registers (09); `past` keeps the hold acquires that ended without a response, for R329. -/
structure Trn where
  tags : SMap FTag
  past : SMap Pkt
  use : SMap (BitVec 8)
  waits : List Wait
  srcLanes : SMap Nat
  dstLanes : SMap Nat
  park : List Parked
  dwait : List DWait
  fences : List DWait
  behind : List Parked
  home : List HoldEnt
  owned : List OwnedEnt
  ltags : SMap LTag
  luse : SMap (BitVec 8)
  deliv : SMap Nat
  admitExp : SMap Nat
  lpark : List Parked
  deriving DecidableEq, Repr

/-- The host port beside its registers (10): configuration space by function × 4096 + offset, the MSI-X table by ((function × 2048 + vector) × 4 + dword), pending bits by function × 2048 + vector. -/
structure Hst where
  cfg : SMap W32
  msix : SMap W32
  pba : SMap Bool
  reqs : SMap HReq
  ops : SMap HOp
  opNext : Nat
  tags : SMap HTag
  dlUp : Bool
  corr : Nat
  l1 : L1Sub
  deriving DecidableEq, Repr

/-- A command of win or ins that has been accepted and not yet completed (R384, R422). -/
structure WinCmd where
  op : Nat
  index : Nat
  desc : List W64
  deriving DecidableEq, Repr

/-- Windows (11): descriptors as eight words, lines, the command under way, control accesses held for a domain in Retain (R411). -/
structure Win where
  desc : SMap (List W64)
  lines : List WcLine
  lineNext : Nat
  cmd : Option WinCmd
  stalled : List HostReq2
  deriving DecidableEq, Repr

/-- An FLR or destroy in progress (R423). -/
structure Flr where
  destroy : Bool
  state0 : Nat
  deriving DecidableEq, Repr

/-- Instances (12): descriptors as thirty-two words, write sequences of R171, mailbox slots by instance × 16 + slot (inbox 0 to 7, outbox 8 to 15) and their error bits, the overflow bits of the message rings (R430), the commons memory, FLRs in progress, the instance command under way, the refusals and the microseconds of token waits that a VF reads (R478). -/
structure Ins where
  desc : SMap (List W64)
  wseq : SMap Nat
  mbx : SMap W64
  mbxErr : SMap Nat
  msgOvf : SMap Bool
  mem : List Host.Cell
  flr : SMap Flr
  cmd : Option WinCmd
  refused : SMap Nat
  waitUs : SMap Nat
  deriving DecidableEq, Repr

/-- A dirty-log tracker (R459, R464): configuration words, the accumulators of both halves as 64-bit words, words changed since their last bitmap write, the record counters; `due` holds the tracked writes of the old half that had not been issued when its epoch closed. -/
structure Tracker where
  cfg : List W64
  a : SMap W64
  b : SMap W64
  dirtyA : List Nat
  dirtyB : List Nat
  marked : Nat
  words : Nat
  outside : Nat
  closing : Bool
  stop : Bool
  destroyed : Bool
  flrSeen : Bool
  allDirty : Bool
  tally : W64
  oldMarked : Nat
  oldWords : Nat
  oldOutside : Nat
  oldFlr : Bool
  oldAll : Bool
  due : List Pkt
  deriving DecidableEq, Repr

/-- Isolation and migration (13): egresses 0 to 11 are ports, 12 the host path, 13 the turn path; trackers; the rates in force, by bucket × 4 + quantity (R455). -/
structure Iso where
  eg : SMap Egress
  dl : SMap Tracker
  turn : List Pkt
  rate : SMap Nat
  deriving DecidableEq, Repr

/-- An event the wake sentinel captured while the LIC was gated (R498). -/
inductive Capture where
  | pulse (n : Nat)
  | line (n : Nat) (assert : Bool)
  | priv (c : Nat) (k : Nat)
  | trap (n : Nat)
  deriving DecidableEq, Repr

/-- The LIC (14) beside its registers: claimed priorities by number (private banks 1024 + 32c + k), prepared Directed DELIVERs, captures, whether it is waking, and the sentinel's line mirror. -/
structure Lic where
  claimed : SMap Nat
  prep : SMap Nat
  captures : List Capture
  waking : Bool
  mirror : SMap W32
  deriving DecidableEq, Repr

/-- A raise on its way into Firewatch (R523): the source, whether its condition lasts, the port of F042, whether it was forced or comes from a broken guyline. -/
structure RaiseQ where
  src : Nat
  level : Bool
  port : Nat
  forced : Bool
  broken : Bool
  deriving DecidableEq, Repr

/-- Firewatch (15) beside its registers: raises to act on, the asserted sources, the Grave latch, its chip reset due, the Grave count advanced for the open event, an err reaction taken by the open event, ERR_P/ERR_N asserted and since when, the first source of the open event forced or broken, the port of F042. -/
structure Fwt where
  queue : List RaiseQ
  raw : SMap W32
  grave : Bool
  graveDue : Bool
  graveReal : Bool
  errTaken : Bool
  err : Bool
  errAt : Nat
  evForced : Bool
  evBroken : Bool
  f042 : Nat
  deriving DecidableEq, Repr

/-- The change log (16) beside its registers: the ring by sequence number, the 16-record staging queue, the Watch-domain staging of 256, the chain value of the last record, missed records not yet in a kind 13 record. -/
structure Clg where
  ring : SMap LogEnt
  staged : List Rec
  watch : List Rec
  last : W64
  missed : Nat
  pushSeq : W64
  deriving DecidableEq, Repr

/-- Bivouac (18): the phase, the trigger and its tally, the posted writes counted at its end (R610), no seal to write (R607), the resume token to seal (R618), a resume or discard already presented (R619). -/
structure Bvc where
  phase : BvcPhase
  trigger : Nat
  tally : W64
  lost : Nat
  noSeal : Bool
  token : W64
  presented : Bool
  deriving DecidableEq, Repr

/-- An epoch of the shadow stream (R625, R626). -/
structure Epoch where
  num : W64
  ents : List DeltaEnt
  closed : Bool
  boundary : W64
  tally : W64
  deriving DecidableEq, Repr

/-- The twin engine (18): the peer's last Hello, whether this member is active-elect and whether it holds active state, the open epoch, the send ring, the staging, the shadow log, the deadline of R630 and the send time of the last hold request in ms of the tally, the microsecond of the last VC7 packet, a witness in its quiet period, the witness left for another whose hold is not held yet (R631). `answers` holds the witness's responses not yet acted on: operation, code, detail, hint. -/
structure Twin where
  peer : Option TwinHello
  elect : Bool
  active : Bool
  open_ : Option Epoch
  unacked : List Epoch
  staging : Option Epoch
  slog : SMap (List W64)
  deadline : Nat
  heard : Nat
  quiet : Bool
  hacq : Nat
  oldWit : Option Nat
  answers : List (Nat × Nat × Nat × Nat)
  deriving DecidableEq, Repr

/-- A control access that waits for its domain to return to On (R48, R411), or for a record snapshot (R570): a register write, a local control message, a LIC claim, a read, a commons access. -/
inductive Held where
  | reg (pty : Party) (off : BitVec 24) (wide : Bool) (be : BitVec 8) (data : W64)
  | msg (p : LPort) (m : CtlMsg)
  | claim (pty : Party) (c : Fin 16)
  | read (pty : Party) (off : BitVec 24)
  | cons (pty : Party) (off : BitVec 24) (write : Bool) (length : Nat) (bytes : List Byte) (be : List Bool)
  deriving DecidableEq, Repr

/-- The device: everything but the queue of waiting commands. `free` counts the free values taken, `now` the microseconds that have passed, `out` what has left the device (log entries 1, 3 and 4). -/
structure Dev where
  regs : SMap W64
  emb : Ember
  pins : Pins
  pit : Pit
  pd : Pd
  sto : Sto
  ports : SMap PortSt
  net : Net
  trn : Trn
  hst : Hst
  win : Win
  ins : Ins
  iso : Iso
  lic : Lic
  fwt : Fwt
  clg : Clg
  bvc : Bvc
  twin : Twin
  held : List Held
  out : List Out
  free : Nat
  now : Nat
  serial : Serial
  codes : PhyCal
  deriving DecidableEq, Repr

/-- The machine: the device and the commands waiting, first in first out. -/
structure State where
  dev : Dev
  pending : List Instr
  deriving DecidableEq, Repr

/-- Faults. No command of this block ends in one: every error of the device is an effect on its state (15_firewatch.md). -/
inductive Fault where
  /-- Raised by no command; kept so that the type is inhabited. Safe. -/
  | none
  deriving DecidableEq, Repr

/-- Refusals. -/
inductive Refusal where
  /-- A command that has no meaning yet; raised by an arm of `exec` only. Safe. -/
  | notModelled (mnemonic : String)
  deriving DecidableEq, Repr

/-- An empty port: nothing trained, nothing sent. -/
def PortSt.empty : PortSt :=
  ⟨⟨0, false, false, [], [], 0, 0, [], false, [], 0, ⟨[], 0, []⟩, ⟨[], [], [], false, []⟩⟩,
   ⟨[], [], [], none, 0, 0, false, none, 0#32, 0#16, false, [], 0, [], 0, [], 0, [], [], 0, 0, [], [], [], [], false, false, 0, false⟩⟩

/-- The device before its first pitch: Ember has just started on VMAIN_EMB, every other domain is without power (R55, log entry 5). -/
def Dev.reset : Dev where
  regs := []
  emb := ⟨0, 0, 0, 0, 0, true, 0#10, none, [], false, true, false, true, false, false, false⟩
  pins := ⟨false, true, false, true, true⟩
  pit := ⟨false, false, false, false, 0, 0, 0#32, 0#32, none, false, false, []⟩
  pd := ⟨[], [], [], none⟩
  sto := ⟨false, false, none, none, none, none, 0#64, 0#64, 0#64, 0, [], [], [], 0#64, none, none, false, 0⟩
  ports := []
  net := ⟨[], [], 0#32, [], false, 0, false, none, Routes.empty, false, false, [], 0⟩
  trn := ⟨[], [], [], [], [], [], [], [], [], [], [], [], [], [], [], [], []⟩
  hst := ⟨[], [], [], [], [], 0, [], false, 0, .l1⟩
  win := ⟨[], [], 0, none, []⟩
  ins := ⟨[], [], [], [], [], [], [], none, [], []⟩
  iso := ⟨[], [], [], []⟩
  lic := ⟨[], [], [], false, []⟩
  fwt := ⟨[], [], false, false, false, false, false, 0, false, false, 0xFF⟩
  clg := ⟨[], [], [], 0#64, 0, 0#64⟩
  bvc := ⟨.none, 0, 0#64, 0, false, 0#64, false⟩
  twin := ⟨none, false, false, none, [], none, [], 0, 0, false, 0, none, []⟩
  held := []
  out := []
  free := 0
  now := 0
  serial := Config.dieSerial
  codes := ⟨0, 0, 0, 0⟩

/-- The machine right after reset: no command waits (log entry 5). -/
def State.reset : State := ⟨Dev.reset, []⟩

end Sys2Proof.Machine
end

