-- ==== Sys2Proof/Machine/Bits.lean ====
section
/-! DEFINITION. Bit fields, bytes and little-endian words (R8). -/
namespace Sys2Proof.Machine

/-- Bits `hi:lo` of a word, as a number (R8). -/
def fieldOf (v : W64) (hi lo : Nat) : Nat := (v.toNat / 2 ^ lo) % 2 ^ (hi + 1 - lo)

/-- The word with bits `hi:lo` replaced by the low bits of `x`. -/
def setField (v : W64) (hi lo x : Nat) : W64 :=
  BitVec.ofNat 64 (v.toNat % 2 ^ lo + (x % 2 ^ (hi + 1 - lo)) * 2 ^ lo + (v.toNat / 2 ^ (hi + 1)) * 2 ^ (hi + 1))

/-- Bit `i` of a number. -/
def bitOf (n i : Nat) : Bool := n.testBit i

/-- The number with bit `i` set or cleared. -/
def setBit (n i : Nat) (b : Bool) : Nat :=
  if n.testBit i = b then n else if b then n + 2 ^ i else n - 2 ^ i

/-- 1 for true. -/
def b2n (b : Bool) : Nat := if b then 1 else 0

/-- The bits set in a number, below `n`, lowest first. -/
def bitsOf (x n : Nat) : List Nat := (List.range n).filter (fun i => x.testBit i)

/-- The `n` bytes of a number, least significant first (R8). -/
def bytesLE (n x : Nat) : List Byte :=
  match n with
  | 0 => []
  | n + 1 => BitVec.ofNat 8 x :: bytesLE n (x / 256)

/-- The number that bytes spell, least significant first (R8). -/
def ofBytesLE (bs : List Byte) : Nat := bs.foldr (fun b a => b.toNat + 256 * a) 0

/-- The number that 64-bit words spell, least significant first. -/
def ofWords (ws : List W64) : Nat := ws.foldr (fun w a => w.toNat + 2 ^ 64 * a) 0

/-- The `n` 64-bit words of a number. -/
def toWords (n x : Nat) : List W64 :=
  match n with
  | 0 => []
  | n + 1 => BitVec.ofNat 64 x :: toWords n (x / 2 ^ 64)

/-- Bytes `off` to `off + n - 1` of a structure held as 64-bit words, little-endian. -/
def bget (ws : List W64) (off n : Nat) : Nat := (ofWords ws / 2 ^ (8 * off)) % 2 ^ (8 * n)

/-- The structure with bytes `off` to `off + n - 1` replaced. -/
def bput (ws : List W64) (off n x : Nat) : List W64 :=
  toWords ws.length (ofWords ws % 2 ^ (8 * off) + (x % 2 ^ (8 * n)) * 2 ^ (8 * off) + ofWords ws / 2 ^ (8 * (off + n)) * 2 ^ (8 * (off + n)))

/-- The words of a list of bytes, eight to a word, little-endian. -/
def wordsOfBytes (n : Nat) (bs : List Byte) : List W64 := toWords n (ofBytesLE bs)

/-- The bytes of a list of words. -/
def bytesOfWords (ws : List W64) : List Byte := bytesLE (8 * ws.length) (ofWords ws)

/-- The mask of the bits of enabled bytes (R41). -/
def byteMask (n : Nat) (be : BitVec 8) : W64 :=
  BitVec.ofNat 64 (ofBytesLE ((List.range n).map (fun i => if be.getLsbD i then 255#8 else 0#8)))

/-- Element `i` of a list, or `d`. -/
def nth {α : Type} (l : List α) (i : Nat) (d : α) : α := l.getD i d

/-- The signed value of an `n`-bit field. -/
def signedOf (n x : Nat) : Int := if x < 2 ^ (n - 1) then (x : Int) else (x : Int) - 2 ^ n

/-- Saturating addition to an `n`-bit counter. -/
def satAdd (n x k : Nat) : Nat := min (x + k) (2 ^ n - 1)

end Sys2Proof.Machine
end

