-- ==== Sys2Proof/Machine/Coding.lean ====
section
/-! DEFINITION. The check codes and wire layouts: CRC-64 (R169), CRC-32C (R220), the two CRC-16 (R200, R283), the byte layouts of flits, packets and messages (R219, R240, R262 to R265, R282, R302, R401, R623), and the line codings (R195 to R199). -/
namespace Sys2Proof.Machine

/-- One bit step of a reflected CRC of width `w`. -/
def crcRefStep {w : Nat} (poly r : BitVec w) : BitVec w :=
  if r.getLsbD 0 then (r >>> 1) ^^^ poly else r >>> 1

/-- One byte of a reflected CRC. -/
def crcRefByte {w : Nat} (poly r : BitVec w) (b : Byte) : BitVec w :=
  Nat.rec (r ^^^ b.setWidth w) (fun _ a => crcRefStep poly a) 8

/-- The CRC-64 of R169 over bytes: reflected ECMA-182, initial value all ones, final XOR all ones. -/
def crc64 (bs : List Byte) : W64 :=
  (bs.foldl (crcRefByte 0xC96C5795D7870F42#64) (BitVec.allOnes 64)) ^^^ BitVec.allOnes 64

/-- The CRC-32C of R220. -/
def crc32c (bs : List Byte) : W32 :=
  (bs.foldl (crcRefByte 0x82F63B78#32) (BitVec.allOnes 32)) ^^^ BitVec.allOnes 32

/-- One bit of the CRC-16 with polynomial 0x1021, not reflected (R200, R283). -/
def crc16Bit (r : BitVec 16) (b : Bool) : BitVec 16 :=
  let f := b ^^ r.getLsbD 15
  if f then (r <<< 1) ^^^ 0x1021#16 else r <<< 1

/-- The CRC-16 of training frames (R200) over bits in transmission order. -/
def crc16Bits (bs : List Bool) : BitVec 16 := bs.foldl crc16Bit 0xFFFF#16

/-- The bits of a byte, most significant first (R283). -/
def msbBits (b : Byte) : List Bool := (List.range 8).map (fun i => b.getLsbD (7 - i))

/-- The CRC-16 of R283 over bytes, each taken most significant bit first. -/
def crc16 (bs : List Byte) : BitVec 16 := crc16Bits (bs.flatMap msbBits)

/-- The flow hash of R283. -/
def flowHash (src : Addr) (inst : Nat) (dst : Addr) (key : W32) : BitVec 16 :=
  crc16 (bytesLE 2 src.toNat ++ bytesLE 2 inst ++ bytesLE 2 dst.toNat ++ bytesLE 2 key.toNat)

/-- The bits of a frame in transmission order, bit 0 first (R200). -/
def frameBits (f : BitVec 256) : List Bool := (List.range 256).map (fun i => f.getLsbD i)

/-- A frame is good when its CRC-16 over all 256 bits ends at zero (R200). -/
def frameCrcGood (f : BitVec 256) : Bool := crc16Bits (frameBits f) == 0#16

/-- Bits `hi:lo` of a frame. -/
def frameFld (f : BitVec 256) (hi lo : Nat) : Nat := (f.toNat / 2 ^ lo) % 2 ^ (hi + 1 - lo)

/-- The marker of a training frame (R200). -/
def frameMarker : Nat := 0x4B1ED2A7

/-- The 96-bit link header of a flit (R219). -/
def flitHeader (f : Flit) : Nat :=
  f.typ.toNat + f.vc.toNat * 2 ^ 4 + b2n f.shared * 2 ^ 7 + f.seq.toNat * 2 ^ 8 + f.ack.toNat * 2 ^ 24 +
  f.ackKind.toNat * 2 ^ 40 + b2n f.sop * 2 ^ 42 + b2n f.eop * 2 ^ 43 + f.len.toNat * 2 ^ 44 +
  f.crVc.toNat * 2 ^ 52 + f.crDed.toNat * 2 ^ 56 + f.crShared.toNat * 2 ^ 64

/-- Bytes 0 to 251 of a flit (R219). -/
def flitBody (f : Flit) : List Byte := bytesLE 12 (flitHeader f) ++ f.payload

/-- The CRC a flit carries in bytes 252 to 255 (R219, R220). -/
def flitCrc (f : Flit) : W32 := crc32c (flitBody f)

/-- The 256 bytes of a flit (R219). -/
def flitBytes (f : Flit) : List Byte := flitBody f ++ bytesLE 4 (flitCrc f).toNat

/-- A payload cut to 240 bytes, the unused bytes zero (R225). -/
def pad240 (bs : List Byte) : List Byte := (bs ++ List.replicate 240 0#8).take 240

/-- The routing header and the transport header of a packet, 64 bytes (R282, R302). -/
def pktHeader (k : Pkt) : List Byte :=
  bytesLE 8 (k.dst.toNat + k.src.toNat * 2 ^ 16 + k.flow.toNat * 2 ^ 32 + k.ttl.toNat * 2 ^ 48 + b2n k.esc * 2 ^ 56 + b2n k.dn * 2 ^ 57 +
    k.resv.toNat % 16 * 2 ^ 12 + k.resv.toNat / 16 % 16 * 2 ^ 28 + k.resv.toNat / 256 * 2 ^ 58) ++
  [k.opcode, k.flags] ++ bytesLE 2 k.tag.toNat ++ [k.tagUse, k.code] ++ bytesLE 2 k.srcInst.toNat ++ bytesLE 2 k.dstInst.toNat ++
  bytesLE 2 k.sseq.toNat ++ bytesLE 4 k.key.toNat ++ bytesLE 8 k.addr.toNat ++ bytesLE 2 k.length.toNat ++ bytesLE 2 k.generation.toNat ++
  [k.detail, k.retryAfter] ++ bytesLE 2 k.lease.toNat ++ bytesLE 4 k.srcInc.toNat ++ bytesLE 20 k.tail.toNat

/-- A transport packet on the wire (R302). -/
def pktBytes (k : Pkt) : List Byte := pktHeader k ++ k.data

/-- A packet's size: the header and the payload (R457). -/
def pktSize (k : Pkt) : Nat := 64 + k.data.length

/-- The sender field of network messages (R262). -/
def senderField (a : Addr) (quar auto noAddr : Bool) : Nat :=
  a.toNat + b2n quar * 2 ^ 12 + b2n auto * 2 ^ 13 + b2n noAddr * 2 ^ 14

/-- The 8-byte header of a network message of `len` bytes (R262), with byte 6 (the last flag of a Summary, R265). -/
def netHdrBytes (h : NetHdr) (b6 : Nat) : List Byte :=
  [h.typ, h.version] ++ bytesLE 2 h.length.toNat ++ bytesLE 2 (senderField h.sender h.quarantined h.auto h.noAddr) ++ [BitVec.ofNat 8 b6, 0#8]

/-- A Hello on the wire (R263). -/
def helloBytes (h : Hello) : List Byte :=
  netHdrBytes h.hdr 0 ++ [h.port, h.interval, h.cost, h.seenPort] ++ bytesLE 4 h.incarnation.toNat ++ bytesLE 8 h.serial.toNat ++
  bytesLE 2 (h.seen.toNat + b2n h.seenValid * 2 ^ 15) ++ List.replicate 6 0#8 ++ bytesLE 8 h.seenSerial.toNat

/-- One link entry of an LSA (R264). -/
def lsaLinkBytes (l : LsaLink) : List Byte :=
  bytesLE 2 l.nbr.toNat ++ [l.port, l.nbrPort, l.cost] ++ List.replicate 3 0#8 ++ bytesLE 8 l.serial.toNat

/-- An LSA on the wire (R264). -/
def lsaBytes (h : NetHdr) (l : Lsa) : List Byte :=
  netHdrBytes h 0 ++ bytesLE 2 (senderField l.origin l.quarantined l.auto l.noAddr) ++ [BitVec.ofNat 8 l.links.length, 0#8] ++
  bytesLE 4 l.incarnation.toNat ++ bytesLE 4 l.seq.toNat ++ bytesLE 8 l.serial.toNat ++ List.replicate 4 0#8 ++ l.links.flatMap lsaLinkBytes

/-- An LSA key on the wire (R265). -/
def lsaKeyBytes (k : LsaKey) : List Byte :=
  bytesLE 4 k.addr.toNat ++ bytesLE 4 k.incarnation.toNat ++ bytesLE 4 k.seq.toNat ++ bytesLE 4 0 ++ bytesLE 8 k.serial.toNat

/-- An Ack, Summary or Request on the wire (R265). -/
def keysBytes (h : NetHdr) (last : Bool) (ks : List LsaKey) : List Byte := netHdrBytes h (b2n last) ++ ks.flatMap lsaKeyBytes

/-- A CRESP or DELIVER on the wire (R401), 24 bytes. -/
def ctlBytes (typ core ctag offset size status : Nat) (data : W64) : List Byte :=
  bytesLE 1 typ ++ bytesLE 1 core ++ bytesLE 2 ctag ++ bytesLE 4 offset ++ bytesLE 1 size ++ bytesLE 1 status ++ List.replicate 6 0#8 ++ bytesLE 8 data.toNat

/-- The header of a shadow packet (R623). -/
def shadowHdr (typ len : Nat) (epoch : W64) : List Byte :=
  bytesLE 1 typ ++ [1#8] ++ bytesLE 2 len ++ List.replicate 4 0#8 ++ bytesLE 8 epoch.toNat

/-- A shadow Hello (R623). -/
def twinHelloBytes (h : TwinHello) : List Byte :=
  shadowHdr 1 48 0#64 ++ bytesLE 8 h.serial.toNat ++ bytesLE 4 h.incarnation.toNat ++ bytesLE 2 h.addr.toNat ++ [h.pref, h.held, h.role] ++
  bytesLE 1 (h.sv8.toNat + 16 * h.sv10.toNat) ++ List.replicate 6 0#8 ++ bytesLE 8 h.committed.toNat

/-- One Delta entry, 72 bytes (R623). -/
def deltaEntBytes (e : DeltaEnt) : List Byte :=
  bytesLE 8 (if e.isRecord then 2 ^ 63 + e.loc % 2 ^ 48 else e.loc % 2 ^ 34) ++ (bytesOfWords e.words).take 64

/-- A Delta packet (R623). -/
def deltaBytes (epoch : W64) (es : List DeltaEnt) : List Byte := shadowHdr 2 (16 + 72 * es.length) epoch ++ es.flatMap deltaEntBytes

/-- The CRC-64 a Commit carries over the entries of its epoch in order (R623). -/
def epochCrc (es : List DeltaEnt) : W64 := crc64 (es.flatMap deltaEntBytes)

/-- A Commit packet (R623). -/
def commitBytes (epoch : W64) (n : Nat) (crc boundary tally : W64) : List Byte :=
  shadowHdr 3 48 epoch ++ bytesLE 8 n ++ bytesLE 8 crc.toNat ++ bytesLE 8 boundary.toNat ++ bytesLE 8 tally.toNat

/-- A shadow Ack (R623). -/
def shadowAckBytes (epoch : W64) (rejected : Bool) : List Byte :=
  shadowHdr 4 24 epoch ++ bytesLE 8 (b2n rejected)

/-- The Init payload (R240). -/
def initPayload (inc : W32) (gen : BitVec 16) (expect flags port limit : Nat) : List Byte :=
  pad240 (bytesLE 4 inc.toNat ++ bytesLE 2 gen.toNat ++ bytesLE 2 expect ++ bytesLE 1 flags ++ bytesLE 1 port ++ bytesLE 2 limit)

/-- The envelope CRC of an instance descriptor copy (R171): the copy's Store address, then bytes 0 to 247. -/
def envelopeCrc (addr : Nat) (ws : List W64) : W64 := crc64 (bytesLE 8 addr ++ (bytesOfWords ws).take 248)

/-- The self-synchronising scrambler 1 + x^39 + x^58 of R197 on one bit: the last 58 sent bits are the state, bit 0 the newest. -/
def scrambleBit (s : BitVec 58) (b : Bool) : BitVec 58 × Bool :=
  let o := (b ^^ s.getLsbD 38) ^^ s.getLsbD 57
  ((s <<< 1) ||| (BitVec.ofBool o).setWidth 58, o)

/-- The scrambler over a bit stream (R197). -/
def scramble (s : BitVec 58) (bs : List Bool) : BitVec 58 × List Bool :=
  match bs with
  | [] => (s, [])
  | b :: t => let r := scrambleBit s b; let q := scramble r.1 t; (q.1, r.2 :: q.2)

/-- Multiplication by α in GF(2^10) with field polynomial x^10 + x^3 + 1 (R197). -/
def gfAlpha (a : BitVec 10) : BitVec 10 := if a.getLsbD 9 then (a <<< 1) ^^^ 9#10 else a <<< 1

/-- Multiplication in GF(2^10) (R197). -/
def gfMul (a b : BitVec 10) : BitVec 10 :=
  if a = 0#10 || b = 0#10 then 0#10
  else (List.range 10).foldr (fun i acc => gfAlpha acc ^^^ (if a.getLsbD i then b else 0#10)) 0#10

/-- α to a power (R197). -/
def gfPow (n : Nat) : BitVec 10 := Nat.rec 1#10 (fun _ a => gfAlpha a) n

/-- The product of a polynomial, highest degree first, by x − r. -/
def gfMulRoot (p : List (BitVec 10)) (r : BitVec 10) : List (BitVec 10) :=
  List.zipWith (· ^^^ ·) (p ++ [0#10]) (0#10 :: p.map (gfMul r))

/-- The generator of RS(544,514), highest degree first (R197). -/
def rsGen : List (BitVec 10) := (List.range 30).foldl (fun p i => gfMulRoot p (gfPow i)) [1#10]

/-- One message symbol shifted into the parity register, highest degree first (R197). -/
def rsStep (par : List (BitVec 10)) (m : BitVec 10) : List (BitVec 10) :=
  let f := par.headD 0#10 ^^^ m
  List.zipWith (· ^^^ ·) (par.drop 1 ++ [0#10]) ((rsGen.drop 1).map (gfMul f))

/-- The 30 parity symbols of 514 message symbols, highest degree first (R197). -/
def rsParity (msg : List (BitVec 10)) : List (BitVec 10) := msg.foldl rsStep (List.replicate 30 0#10)

/-- The codeword sent: message, then parity; in the marked codeword each parity symbol is XORed with 0x3FF (R197, R198). -/
def rsCodeword (msg : List (BitVec 10)) (marked : Bool) : List (BitVec 10) :=
  msg ++ (rsParity msg).map (fun s => if marked then s ^^^ 0x3FF#10 else s)

/-- The inverse in GF(2^10), the power 1,022 by squaring. -/
def gfInv (a : BitVec 10) : BitVec 10 :=
  ((List.range 9).foldl (fun (x : BitVec 10 × BitVec 10) _ => let s := gfMul x.1 x.1; (s, gfMul x.2 s)) (a, 1#10)).2

/-- A polynomial, lowest degree first, at a point. -/
def gfEval (p : List (BitVec 10)) (x : BitVec 10) : BitVec 10 := p.foldr (fun c acc => c ^^^ gfMul acc x) 0#10

/-- The sum of a polynomial and another times k · x^n, lowest degree first. -/
def gfAddShift (a b : List (BitVec 10)) (n : Nat) (k : BitVec 10) : List (BitVec 10) :=
  let s := List.replicate n 0#10 ++ b.map (gfMul k)
  (List.range (max a.length s.length)).map (fun i => a.getD i 0#10 ^^^ s.getD i 0#10)

/-- Coefficient n of the product of two polynomials, lowest degree first. -/
def gfConv (a b : List (BitVec 10)) (n : Nat) : BitVec 10 :=
  (List.range (n + 1)).foldl (fun acc i => acc ^^^ gfMul (a.getD i 0#10) (b.getD (n - i) 0#10)) 0#10

/-- The syndromes of a received word, highest degree first: its values at the roots of the generator (R197). -/
def rsSyndromes (r : List (BitVec 10)) : List (BitVec 10) :=
  (List.range 30).map (fun j => let a := gfPow j; r.foldl (fun acc c => gfMul acc a ^^^ c) 0#10)

/-- The search for the error locator: the locator so far, the one before its last change, its length, the steps since and the discrepancy then. -/
structure RsSearch where
  loc : List (BitVec 10)
  old : List (BitVec 10)
  len : Nat
  gap : Nat
  last : BitVec 10
  deriving DecidableEq, Repr

/-- One syndrome taken into the search (Berlekamp and Massey). -/
def RsSearch.next (s : List (BitVec 10)) (x : RsSearch) (n : Nat) : RsSearch :=
  let d := gfConv x.loc s n
  if d = 0#10 then { x with gap := x.gap + 1 }
  else
    let c := gfAddShift x.loc x.old x.gap (gfMul d (gfInv x.last))
    if 2 * x.len ≤ n then ⟨c, x.loc, n + 1 - x.len, 1, d⟩ else { x with loc := c, gap := x.gap + 1 }

/-- The symbol at position i of a received word corrected by a locator and evaluator (Forney), and 1 where it was in error. -/
def rsFix (loc omega : List (BitVec 10)) (i : Nat) (c : BitVec 10) : BitVec 10 × Nat :=
  let e := 543 - i
  let y := gfPow ((1023 - e) % 1023)
  let deriv := (List.range (loc.length - 1)).map (fun i => if i % 2 = 0 then loc.getD (i + 1) 0#10 else 0#10)
  if gfEval loc y = 0#10 then (c ^^^ gfMul (gfPow e) (gfMul (gfEval omega y) (gfInv (gfEval deriv y))), 1) else (c, 0)

/-- The decoding of a received RS(544,514) word: its message and the symbols corrected, at most 15; none where no codeword is that near (R197, R198). -/
def rsDecode (r : List (BitVec 10)) : Option (List (BitVec 10) × Nat) :=
  let s := rsSyndromes r
  if s.all (· = 0#10) then some (r.take 514, 0)
  else
    let x := (List.range 30).foldl (RsSearch.next s) ⟨[1#10], [1#10], 0, 1, 1#10⟩
    let fixed := List.zipWith (rsFix x.loc ((List.range 30).map (gfConv x.loc s))) (List.range 544) r
    let w := fixed.map (·.1)
    let n := (fixed.map (·.2)).foldl (· + ·) 0
    if x.len ≤ 15 && n = x.len && (rsSyndromes w).all (· = 0#10) then some (w.take 514, n) else none

/-- A received word with the marking of its parity symbols removed (R198). -/
def rsUnmark (r : List (BitVec 10)) : List (BitVec 10) := r.take 514 ++ (r.drop 514).map (· ^^^ 0x3FF#10)

/-- A received codeword: message, symbols corrected, and whether it is marked; read as unmarked first (R198). -/
def rsRead (r : List (BitVec 10)) : Option (List (BitVec 10) × Nat × Bool) := match rsDecode r, rsDecode (rsUnmark r) with
  | some x, _ => some (x.1, x.2, false)
  | none, some x => some (x.1, x.2, true)
  | none, none => none

/-- The inverse of the scrambler on one received bit: the last 58 received bits are the state (R197). -/
def descrambleBit (s : BitVec 58) (b : Bool) : BitVec 58 × Bool :=
  ((s <<< 1) ||| (BitVec.ofBool b).setWidth 58, (b ^^ s.getLsbD 38) ^^ s.getLsbD 57)

/-- The inverse of the scrambler over received bits (R197). -/
def descramble (s : BitVec 58) (bs : List Bool) : BitVec 58 × List Bool := match bs with
  | [] => (s, [])
  | b :: t => let r := descrambleBit s b; let q := descramble r.1 t; (q.1, r.2 :: q.2)

/-- The low `n` bits of a number in time, bit 0 first (R196, R197). -/
def bitsLE (n x : Nat) : List Bool := (List.range n).map (fun i => x.testBit i)

/-- The number a list of bits in time makes, bit 0 first. -/
def ofBits (bs : List Bool) : Nat := bs.foldr (fun b n => b2n b + 2 * n) 0

/-- Bytes as the bit stream: byte 0 first, bit 0 of each byte first (R196). -/
def streamBits (bs : List Byte) : List Bool := bs.flatMap (fun b => bitsLE 8 b.toNat)

/-- A list cut into whole pieces of `n`, at most `k` of them, and what is left. -/
def cutEvery {α : Type} (n k : Nat) (l : List α) : List (List α) × List α := match k with
  | 0 => ([], l)
  | k + 1 => if l.length < n then ([], l) else let r := cutEvery n k (l.drop n); (l.take n :: r.1, r.2)

/-- The PAM4 level of the bit pair ab, lowest voltage 0 (R195). -/
def pam4Level (a b : Bool) : Nat := match a, b with
  | false, false => 0
  | false, true => 1
  | true, true => 2
  | true, false => 3

/-- The levels of a lane that sends a bit stream: pairs at a PAM4 rate, the low and the high level at an NRZ rate (R195). -/
def lineLevels (pam4 : Bool) (bs : List Bool) : List Nat :=
  if pam4 then (cutEvery 2 bs.length bs).1.map (fun p => pam4Level (p.getD 0 false) (p.getD 1 false)) else bs.map b2n

/-- The levels of a training frame: 0 and 3 only at a PAM4 rate (R195). -/
def frameLevels (pam4 : Bool) (f : BitVec 256) : List Nat := (frameBits f).map (fun b => if pam4 then 3 * b2n b else b2n b)

/-- The fields of a training frame as a device sends it (R200). -/
structure FrameF where
  seq : Nat
  lane : Nat
  native : Nat
  rate : Nat
  fec : Bool
  loc : Bool
  state : Nat
  ack : Bool
  preReq : Nat
  postReq : Nat
  eqStat : Nat
  widths : Nat
  count : Nat
  deriving DecidableEq, Repr

/-- Bits 239 to 0 of a training frame (R200). -/
def FrameF.body (x : FrameF) : Nat :=
  frameMarker + x.seq % 256 * 2 ^ 32 + x.lane * 2 ^ 40 + x.native * 2 ^ 44 + x.rate * 2 ^ 46 + b2n x.fec * 2 ^ 48 + b2n x.loc * 2 ^ 49 +
  x.state * 2 ^ 50 + b2n x.ack * 2 ^ 53 + x.preReq * 2 ^ 54 + x.postReq * 2 ^ 56 + x.eqStat * 2 ^ 58 + x.widths * 2 ^ 60 + x.count * 2 ^ 64

/-- A training frame with its CRC, bit 15 of the register first (R200). -/
def FrameF.bits (x : FrameF) : BitVec 256 :=
  let r := crc16Bits (bitsLE 240 x.body)
  BitVec.ofNat 256 (x.body + ofBits ((List.range 16).map (fun k => r.getLsbD (15 - k))) * 2 ^ 240)

end Sys2Proof.Machine
end

