-- ==== Sys2Proof/Machine/RegNames.lean ====
section
/-! DEFINITION. The names of the registers of control space and of their fields: `R.x` is a register's PF BAR0 offset, `F.x_y` its field y, as the Reference tables of the chapters place them (R9, R53). -/
namespace Sys2Proof.Machine

/-- gen.id (R54). -/
def R.genId : Nat := 0
@[inherit_doc R.genId] def F.genId_vendor : Fld := ⟨R.genId, 15, 0⟩
@[inherit_doc R.genId] def F.genId_device : Fld := ⟨R.genId, 31, 16⟩
/-- gen.shape (R54). -/
def R.genShape : Nat := 4
@[inherit_doc R.genShape] def F.genShape_member : Fld := ⟨R.genShape, 3, 0⟩
@[inherit_doc R.genShape] def F.genShape_fabric_ports : Fld := ⟨R.genShape, 7, 4⟩
@[inherit_doc R.genShape] def F.genShape_local_ports : Fld := ⟨R.genShape, 11, 8⟩
@[inherit_doc R.genShape] def F.genShape_host_width : Fld := ⟨R.genShape, 15, 12⟩
@[inherit_doc R.genShape] def F.genShape_max_instance : Fld := ⟨R.genShape, 27, 16⟩
/-- gen.silicon (R54). -/
def R.genSilicon : Nat := 8
@[inherit_doc R.genSilicon] def F.genSilicon_stepping : Fld := ⟨R.genSilicon, 7, 0⟩
@[inherit_doc R.genSilicon] def F.genSilicon_store_gib : Fld := ⟨R.genSilicon, 15, 8⟩
/-- gen.serial (R54). -/
def R.genSerial : Nat := 0x10
@[inherit_doc R.genSerial] def F.genSerial_serial : Fld := ⟨R.genSerial, 63, 0⟩
/-- gen.strap_sd (R124). -/
def R.genStrapSd : Nat := 0x100
@[inherit_doc R.genStrapSd] def F.genStrapSd_sd : Fld := ⟨R.genStrapSd, 23, 0⟩
/-- gen.strap_sd_now (R124). -/
def R.genStrapSdNow : Nat := 0x104
@[inherit_doc R.genStrapSdNow] def F.genStrapSdNow_sd : Fld := ⟨R.genStrapSdNow, 23, 0⟩
@[inherit_doc R.genStrapSdNow] def F.genStrapSdNow_test_en : Fld := ⟨R.genStrapSdNow, 24, 24⟩
/-- gen.strap_sd_float (R124). -/
def R.genStrapSdFloat : Nat := 0x108
@[inherit_doc R.genStrapSdFloat] def F.genStrapSdFloat_floating : Fld := ⟨R.genStrapSdFloat, 23, 0⟩
@[inherit_doc R.genStrapSdFloat] def F.genStrapSdFloat_test_en : Fld := ⟨R.genStrapSdFloat, 24, 24⟩
/-- gen.strap_sv_lo (R124). -/
def R.genStrapSvLo : Nat := 0x110
@[inherit_doc R.genStrapSvLo] def F.genStrapSvLo_level : Fld := ⟨R.genStrapSvLo, 31, 0⟩
/-- gen.strap_sv_hi (R124). -/
def R.genStrapSvHi : Nat := 0x114
@[inherit_doc R.genStrapSvHi] def F.genStrapSvHi_level : Fld := ⟨R.genStrapSvHi, 31, 0⟩
/-- gen.strap_sv_now_lo (R124). -/
def R.genStrapSvNowLo : Nat := 0x118
@[inherit_doc R.genStrapSvNowLo] def F.genStrapSvNowLo_level : Fld := ⟨R.genStrapSvNowLo, 31, 0⟩
/-- gen.strap_sv_now_hi (R124). -/
def R.genStrapSvNowHi : Nat := 0x11c
@[inherit_doc R.genStrapSvNowHi] def F.genStrapSvNowHi_level : Fld := ⟨R.genStrapSvNowHi, 31, 0⟩
/-- gen.strap_sv_flags (R124). -/
def R.genStrapSvFlags : Nat := 0x120
@[inherit_doc R.genStrapSvFlags] def F.genStrapSvFlags_marginal : Fld := ⟨R.genStrapSvFlags, 15, 0⟩
@[inherit_doc R.genStrapSvFlags] def F.genStrapSvFlags_unstable : Fld := ⟨R.genStrapSvFlags, 31, 16⟩
/-- gen.strap_drift (R124). -/
def R.genStrapDrift : Nat := 0x124
@[inherit_doc R.genStrapDrift] def F.genStrapDrift_sv : Fld := ⟨R.genStrapDrift, 15, 0⟩
@[inherit_doc R.genStrapDrift] def F.genStrapDrift_sd : Fld := ⟨R.genStrapDrift, 16, 16⟩
/-- gen.strap_drift_cnt (R124). -/
def R.genStrapDriftCnt : Nat := 0x128
@[inherit_doc R.genStrapDriftCnt] def F.genStrapDriftCnt_count : Fld := ⟨R.genStrapDriftCnt, 15, 0⟩
/-- gen.strap_fault (R124). -/
def R.genStrapFault : Nat := 0x12c
@[inherit_doc R.genStrapFault] def F.genStrapFault_rows : Fld := ⟨R.genStrapFault, 9, 0⟩
/-- gen.node_cfg (R124). -/
def R.genNodeCfg : Nat := 0x130
@[inherit_doc R.genNodeCfg] def F.genNodeCfg_member : Fld := ⟨R.genNodeCfg, 5, 0⟩
@[inherit_doc R.genNodeCfg] def F.genNodeCfg_camp : Fld := ⟨R.genNodeCfg, 11, 6⟩
@[inherit_doc R.genNodeCfg] def F.genNodeCfg_auto_member : Fld := ⟨R.genNodeCfg, 12, 12⟩
@[inherit_doc R.genNodeCfg] def F.genNodeCfg_twin : Fld := ⟨R.genNodeCfg, 14, 13⟩
@[inherit_doc R.genNodeCfg] def F.genNodeCfg_warm_ok : Fld := ⟨R.genNodeCfg, 15, 15⟩
@[inherit_doc R.genNodeCfg] def F.genNodeCfg_lp_absent : Fld := ⟨R.genNodeCfg, 19, 16⟩
@[inherit_doc R.genNodeCfg] def F.genNodeCfg_test_en : Fld := ⟨R.genNodeCfg, 20, 20⟩
@[inherit_doc R.genNodeCfg] def F.genNodeCfg_disc_only : Fld := ⟨R.genNodeCfg, 21, 21⟩
@[inherit_doc R.genNodeCfg] def F.genNodeCfg_log_hold : Fld := ⟨R.genNodeCfg, 22, 22⟩
@[inherit_doc R.genNodeCfg] def F.genNodeCfg_log_push : Fld := ⟨R.genNodeCfg, 23, 23⟩
@[inherit_doc R.genNodeCfg] def F.genNodeCfg_ember_bin : Fld := ⟨R.genNodeCfg, 24, 24⟩
@[inherit_doc R.genNodeCfg] def F.genNodeCfg_autorestart : Fld := ⟨R.genNodeCfg, 25, 25⟩
/-- gen.host_cfg (R124). -/
def R.genHostCfg : Nat := 0x134
@[inherit_doc R.genHostCfg] def F.genHostCfg_width : Fld := ⟨R.genHostCfg, 2, 0⟩
@[inherit_doc R.genHostCfg] def F.genHostCfg_speed : Fld := ⟨R.genHostCfg, 6, 4⟩
@[inherit_doc R.genHostCfg] def F.genHostCfg_sriov : Fld := ⟨R.genHostCfg, 8, 8⟩
@[inherit_doc R.genHostCfg] def F.genHostCfg_total_vfs : Fld := ⟨R.genHostCfg, 27, 16⟩
/-- gen.rate_cfg (R124). -/
def R.genRateCfg : Nat := 0x138
@[inherit_doc R.genRateCfg] def F.genRateCfg_rate : Fld := ⟨R.genRateCfg, 23, 0⟩
@[inherit_doc R.genRateCfg] def F.genRateCfg_held_down : Fld := ⟨R.genRateCfg, 29, 24⟩
/-- gen.size_cfg (R124). -/
def R.genSizeCfg : Nat := 0x13c
@[inherit_doc R.genSizeCfg] def F.genSizeCfg_levels : Fld := ⟨R.genSizeCfg, 31, 0⟩
/-- gen.strap_meas[16] (R124). -/
def R.genStrapMeas (i : Nat) : Nat := 0x140 + 4 * i
@[inherit_doc R.genStrapMeas] def F.genStrapMeas_ohms (i : Nat) : Fld := ⟨R.genStrapMeas i, 15, 0⟩
@[inherit_doc R.genStrapMeas] def F.genStrapMeas_level (i : Nat) : Fld := ⟨R.genStrapMeas i, 19, 16⟩
@[inherit_doc R.genStrapMeas] def F.genStrapMeas_marginal (i : Nat) : Fld := ⟨R.genStrapMeas i, 20, 20⟩
/-- gen.temp[8] (R685). -/
def R.genTemp (i : Nat) : Nat := 0x200 + 4 * i
@[inherit_doc R.genTemp] def F.genTemp_temp (i : Nat) : Fld := ⟨R.genTemp i, 11, 0⟩
@[inherit_doc R.genTemp] def F.genTemp_valid (i : Nat) : Fld := ⟨R.genTemp i, 16, 16⟩
@[inherit_doc R.genTemp] def F.genTemp_excluded (i : Nat) : Fld := ⟨R.genTemp i, 17, 17⟩
/-- gen.temp_max (R685). -/
def R.genTempMax : Nat := 0x220
@[inherit_doc R.genTempMax] def F.genTempMax_temp : Fld := ⟨R.genTempMax, 11, 0⟩
/-- gen.rail[8] (R685). -/
def R.genRail (i : Nat) : Nat := 0x240 + 4 * i
@[inherit_doc R.genRail] def F.genRail_mv (i : Nat) : Fld := ⟨R.genRail i, 12, 0⟩
@[inherit_doc R.genRail] def F.genRail_out_of_tol (i : Nat) : Fld := ⟨R.genRail i, 16, 16⟩
/-- pit.pitch_status (R156). -/
def R.pitPitchStatus : Nat := 0x10000
@[inherit_doc R.pitPitchStatus] def F.pitPitchStatus_step : Fld := ⟨R.pitPitchStatus, 3, 0⟩
@[inherit_doc R.pitPitchStatus] def F.pitPitchStatus_warm : Fld := ⟨R.pitPitchStatus, 4, 4⟩
@[inherit_doc R.pitPitchStatus] def F.pitPitchStatus_trigger : Fld := ⟨R.pitPitchStatus, 6, 5⟩
@[inherit_doc R.pitPitchStatus] def F.pitPitchStatus_reset_seal : Fld := ⟨R.pitPitchStatus, 7, 7⟩
@[inherit_doc R.pitPitchStatus] def F.pitPitchStatus_cold_reason : Fld := ⟨R.pitPitchStatus, 11, 8⟩
@[inherit_doc R.pitPitchStatus] def F.pitPitchStatus_config_ready : Fld := ⟨R.pitPitchStatus, 12, 12⟩
@[inherit_doc R.pitPitchStatus] def F.pitPitchStatus_converged : Fld := ⟨R.pitPitchStatus, 13, 13⟩
@[inherit_doc R.pitPitchStatus] def F.pitPitchStatus_complete : Fld := ⟨R.pitPitchStatus, 14, 14⟩
@[inherit_doc R.pitPitchStatus] def F.pitPitchStatus_join_timeout : Fld := ⟨R.pitPitchStatus, 15, 15⟩
@[inherit_doc R.pitPitchStatus] def F.pitPitchStatus_limited : Fld := ⟨R.pitPitchStatus, 16, 16⟩
@[inherit_doc R.pitPitchStatus] def F.pitPitchStatus_store_attempts : Fld := ⟨R.pitPitchStatus, 18, 17⟩
@[inherit_doc R.pitPitchStatus] def F.pitPitchStatus_suspended : Fld := ⟨R.pitPitchStatus, 19, 19⟩
/-- pit.incarnation (R156). -/
def R.pitIncarnation : Nat := 0x10004
@[inherit_doc R.pitIncarnation] def F.pitIncarnation_value : Fld := ⟨R.pitIncarnation, 31, 0⟩
/-- pit.pitch_start (R156). -/
def R.pitPitchStart : Nat := 0x10008
@[inherit_doc R.pitPitchStart] def F.pitPitchStart_tally : Fld := ⟨R.pitPitchStart, 63, 0⟩
/-- pit.step_end[13] (R156). -/
def R.pitStepEnd (i : Nat) : Nat := 0x10010 + 8 * i
@[inherit_doc R.pitStepEnd] def F.pitStepEnd_tally (i : Nat) : Fld := ⟨R.pitStepEnd i, 63, 0⟩
/-- pit.first_counts (R156). -/
def R.pitFirstCounts : Nat := 0x10080
@[inherit_doc R.pitFirstCounts] def F.pitFirstCounts_rrs : Fld := ⟨R.pitFirstCounts, 15, 0⟩
@[inherit_doc R.pitFirstCounts] def F.pitFirstCounts_busy : Fld := ⟨R.pitFirstCounts, 31, 16⟩
/-- pit.hello_capped (R156). -/
def R.pitHelloCapped : Nat := 0x10084
@[inherit_doc R.pitHelloCapped] def F.pitHelloCapped_count : Fld := ⟨R.pitHelloCapped, 15, 0⟩
/-- pit.repitch (R156). -/
def R.pitRepitch : Nat := 0x10090
@[inherit_doc R.pitRepitch] def F.pitRepitch_block : Fld := ⟨R.pitRepitch, 7, 0⟩
/-- pit.repitch_status (R156). -/
def R.pitRepitchStatus : Nat := 0x10094
@[inherit_doc R.pitRepitchStatus] def F.pitRepitchStatus_busy : Fld := ⟨R.pitRepitchStatus, 0, 0⟩
@[inherit_doc R.pitRepitchStatus] def F.pitRepitchStatus_last_block : Fld := ⟨R.pitRepitchStatus, 15, 8⟩
@[inherit_doc R.pitRepitchStatus] def F.pitRepitchStatus_result : Fld := ⟨R.pitRepitchStatus, 18, 16⟩
/-- pit.pd_req (R604). -/
def R.pitPdReq : Nat := 0x10100
@[inherit_doc R.pitPdReq] def F.pitPdReq_domain : Fld := ⟨R.pitPdReq, 5, 0⟩
@[inherit_doc R.pitPdReq] def F.pitPdReq_op : Fld := ⟨R.pitPdReq, 9, 8⟩
/-- pit.pd_status (R604). -/
def R.pitPdStatus : Nat := 0x10104
@[inherit_doc R.pitPdStatus] def F.pitPdStatus_busy : Fld := ⟨R.pitPdStatus, 0, 0⟩
@[inherit_doc R.pitPdStatus] def F.pitPdStatus_phase : Fld := ⟨R.pitPdStatus, 3, 1⟩
@[inherit_doc R.pitPdStatus] def F.pitPdStatus_result : Fld := ⟨R.pitPdStatus, 7, 4⟩
@[inherit_doc R.pitPdStatus] def F.pitPdStatus_domain : Fld := ⟨R.pitPdStatus, 13, 8⟩
/-- pit.pd_state_lo (R604). -/
def R.pitPdStateLo : Nat := 0x10110
@[inherit_doc R.pitPdStateLo] def F.pitPdStateLo_state : Fld := ⟨R.pitPdStateLo, 63, 0⟩
/-- pit.pd_state_hi (R604). -/
def R.pitPdStateHi : Nat := 0x10118
@[inherit_doc R.pitPdStateHi] def F.pitPdStateHi_state : Fld := ⟨R.pitPdStateHi, 63, 0⟩
/-- pit.pd_manual (R604). -/
def R.pitPdManual : Nat := 0x10120
@[inherit_doc R.pitPdManual] def F.pitPdManual_domains : Fld := ⟨R.pitPdManual, 63, 0⟩
/-- pit.pd_auto (R604). -/
def R.pitPdAuto : Nat := 0x10128
@[inherit_doc R.pitPdAuto] def F.pitPdAuto_slices : Fld := ⟨R.pitPdAuto, 41, 34⟩
@[inherit_doc R.pitPdAuto] def F.pitPdAuto_ins : Fld := ⟨R.pitPdAuto, 49, 43⟩
@[inherit_doc R.pitPdAuto] def F.pitPdAuto_engines : Fld := ⟨R.pitPdAuto, 61, 53⟩
/-- pit.pd_idle (R604). -/
def R.pitPdIdle : Nat := 0x10130
@[inherit_doc R.pitPdIdle] def F.pitPdIdle_us : Fld := ⟨R.pitPdIdle, 7, 0⟩
/-- pit.pd_lost[64] (R604). -/
def R.pitPdLost (i : Nat) : Nat := 0x10200 + 4 * i
@[inherit_doc R.pitPdLost] def F.pitPdLost_count (i : Nat) : Fld := ⟨R.pitPdLost i, 31, 0⟩
/-- pit.pd_retain_cnt[64] (R604). -/
def R.pitPdRetainCnt (i : Nat) : Nat := 0x10300 + 4 * i
@[inherit_doc R.pitPdRetainCnt] def F.pitPdRetainCnt_count (i : Nat) : Fld := ⟨R.pitPdRetainCnt i, 31, 0⟩
/-- pit.bvc_last (R648). -/
def R.pitBvcLast : Nat := 0x10400
@[inherit_doc R.pitBvcLast] def F.pitBvcLast_trigger : Fld := ⟨R.pitBvcLast, 1, 0⟩
@[inherit_doc R.pitBvcLast] def F.pitBvcLast_incomplete : Fld := ⟨R.pitBvcLast, 2, 2⟩
@[inherit_doc R.pitBvcLast] def F.pitBvcLast_budget_reached : Fld := ⟨R.pitBvcLast, 3, 3⟩
@[inherit_doc R.pitBvcLast] def F.pitBvcLast_valid : Fld := ⟨R.pitBvcLast, 4, 4⟩
/-- pit.bvc_lost (R648). -/
def R.pitBvcLost : Nat := 0x10404
@[inherit_doc R.pitBvcLost] def F.pitBvcLost_count : Fld := ⟨R.pitBvcLost, 31, 0⟩
/-- pit.bvc_tally (R648). -/
def R.pitBvcTally : Nat := 0x10408
@[inherit_doc R.pitBvcTally] def F.pitBvcTally_tally : Fld := ⟨R.pitBvcTally, 63, 0⟩
/-- pit.resume_token (R648). -/
def R.pitResumeToken : Nat := 0x10410
@[inherit_doc R.pitResumeToken] def F.pitResumeToken_token : Fld := ⟨R.pitResumeToken, 63, 0⟩
/-- pit.resume (R648). -/
def R.pitResume : Nat := 0x10418
@[inherit_doc R.pitResume] def F.pitResume_token : Fld := ⟨R.pitResume, 63, 0⟩
/-- pit.resume_ctl (R648). -/
def R.pitResumeCtl : Nat := 0x10420
@[inherit_doc R.pitResumeCtl] def F.pitResumeCtl_discard : Fld := ⟨R.pitResumeCtl, 0, 0⟩
/-- pit.resume_status (R648). -/
def R.pitResumeStatus : Nat := 0x10424
@[inherit_doc R.pitResumeStatus] def F.pitResumeStatus_state : Fld := ⟨R.pitResumeStatus, 2, 0⟩
@[inherit_doc R.pitResumeStatus] def F.pitResumeStatus_token_set : Fld := ⟨R.pitResumeStatus, 3, 3⟩
@[inherit_doc R.pitResumeStatus] def F.pitResumeStatus_held_token : Fld := ⟨R.pitResumeStatus, 4, 4⟩
@[inherit_doc R.pitResumeStatus] def F.pitResumeStatus_cause : Fld := ⟨R.pitResumeStatus, 11, 8⟩
@[inherit_doc R.pitResumeStatus] def F.pitResumeStatus_resumed : Fld := ⟨R.pitResumeStatus, 28, 16⟩
/-- pit.twin_cfg (R648). -/
def R.pitTwinCfg : Nat := 0x10500
@[inherit_doc R.pitTwinCfg] def F.pitTwinCfg_lease : Fld := ⟨R.pitTwinCfg, 7, 0⟩
@[inherit_doc R.pitTwinCfg] def F.pitTwinCfg_silence : Fld := ⟨R.pitTwinCfg, 15, 8⟩
@[inherit_doc R.pitTwinCfg] def F.pitTwinCfg_epoch : Fld := ⟨R.pitTwinCfg, 31, 16⟩
/-- pit.twin_witness (R648). -/
def R.pitTwinWitness : Nat := 0x10504
@[inherit_doc R.pitTwinWitness] def F.pitTwinWitness_address : Fld := ⟨R.pitTwinWitness, 11, 0⟩
@[inherit_doc R.pitTwinWitness] def F.pitTwinWitness_valid : Fld := ⟨R.pitTwinWitness, 12, 12⟩
/-- pit.twin_status (R648). -/
def R.pitTwinStatus : Nat := 0x10508
@[inherit_doc R.pitTwinStatus] def F.pitTwinStatus_role : Fld := ⟨R.pitTwinStatus, 2, 0⟩
@[inherit_doc R.pitTwinStatus] def F.pitTwinStatus_peer_ok : Fld := ⟨R.pitTwinStatus, 3, 3⟩
@[inherit_doc R.pitTwinStatus] def F.pitTwinStatus_lease_held : Fld := ⟨R.pitTwinStatus, 4, 4⟩
@[inherit_doc R.pitTwinStatus] def F.pitTwinStatus_image_ok : Fld := ⟨R.pitTwinStatus, 5, 5⟩
/-- pit.twin_epoch (R648). -/
def R.pitTwinEpoch : Nat := 0x10510
@[inherit_doc R.pitTwinEpoch] def F.pitTwinEpoch_epoch : Fld := ⟨R.pitTwinEpoch, 63, 0⟩
/-- pit.twin_acked (R648). -/
def R.pitTwinAcked : Nat := 0x10518
@[inherit_doc R.pitTwinAcked] def F.pitTwinAcked_epoch : Fld := ⟨R.pitTwinAcked, 63, 0⟩
/-- pit.twin_boundary (R648). -/
def R.pitTwinBoundary : Nat := 0x10520
@[inherit_doc R.pitTwinBoundary] def F.pitTwinBoundary_seq : Fld := ⟨R.pitTwinBoundary, 63, 0⟩
/-- pit.twin_cmd (R648). -/
def R.pitTwinCmd : Nat := 0x10528
@[inherit_doc R.pitTwinCmd] def F.pitTwinCmd_op : Fld := ⟨R.pitTwinCmd, 1, 0⟩
/-- pit.twin_cmd_status (R648). -/
def R.pitTwinCmdStatus : Nat := 0x1052c
@[inherit_doc R.pitTwinCmdStatus] def F.pitTwinCmdStatus_busy : Fld := ⟨R.pitTwinCmdStatus, 0, 0⟩
@[inherit_doc R.pitTwinCmdStatus] def F.pitTwinCmdStatus_result : Fld := ⟨R.pitTwinCmdStatus, 3, 1⟩
/-- pit.twin_queue (R648). -/
def R.pitTwinQueue : Nat := 0x10530
@[inherit_doc R.pitTwinQueue] def F.pitTwinQueue_kib : Fld := ⟨R.pitTwinQueue, 31, 0⟩
/-- pit.twin_log_head (R648). -/
def R.pitTwinLogHead : Nat := 0x10540
@[inherit_doc R.pitTwinLogHead] def F.pitTwinLogHead_seq : Fld := ⟨R.pitTwinLogHead, 63, 0⟩
/-- pit.twin_log_tail (R648). -/
def R.pitTwinLogTail : Nat := 0x10548
@[inherit_doc R.pitTwinLogTail] def F.pitTwinLogTail_seq : Fld := ⟨R.pitTwinLogTail, 63, 0⟩
/-- pit.twin_rd_seq (R648). -/
def R.pitTwinRdSeq : Nat := 0x10550
@[inherit_doc R.pitTwinRdSeq] def F.pitTwinRdSeq_seq : Fld := ⟨R.pitTwinRdSeq, 63, 0⟩
/-- pit.twin_rd_status (R648). -/
def R.pitTwinRdStatus : Nat := 0x10558
@[inherit_doc R.pitTwinRdStatus] def F.pitTwinRdStatus_state : Fld := ⟨R.pitTwinRdStatus, 1, 0⟩
/-- pit.twin_rd_rec[8] (R648). -/
def R.pitTwinRdRec (i : Nat) : Nat := 0x10580 + 8 * i
@[inherit_doc R.pitTwinRdRec] def F.pitTwinRdRec_bytes (i : Nat) : Fld := ⟨R.pitTwinRdRec i, 63, 0⟩
/-- pit.cnt_epochs (R648). -/
def R.pitCntEpochs : Nat := 0x10600
@[inherit_doc R.pitCntEpochs] def F.pitCntEpochs_count : Fld := ⟨R.pitCntEpochs, 31, 0⟩
/-- pit.cnt_rejected (R648). -/
def R.pitCntRejected : Nat := 0x10604
@[inherit_doc R.pitCntRejected] def F.pitCntRejected_count : Fld := ⟨R.pitCntRejected, 31, 0⟩
/-- pit.cnt_reform (R648). -/
def R.pitCntReform : Nat := 0x10608
@[inherit_doc R.pitCntReform] def F.pitCntReform_count : Fld := ⟨R.pitCntReform, 31, 0⟩
/-- pit.cnt_takeover (R648). -/
def R.pitCntTakeover : Nat := 0x1060c
@[inherit_doc R.pitCntTakeover] def F.pitCntTakeover_count : Fld := ⟨R.pitCntTakeover, 31, 0⟩
/-- pit.cnt_undef_twin (R648). -/
def R.pitCntUndefTwin : Nat := 0x10610
@[inherit_doc R.pitCntUndefTwin] def F.pitCntUndefTwin_count : Fld := ⟨R.pitCntUndefTwin, 31, 0⟩
/-- emb.tm_tally_lo (R91). -/
def R.embTmTallyLo : Nat := 0x20000
@[inherit_doc R.embTmTallyLo] def F.embTmTallyLo_sub : Fld := ⟨R.embTmTallyLo, 15, 0⟩
@[inherit_doc R.embTmTallyLo] def F.embTmTallyLo_sec_lo : Fld := ⟨R.embTmTallyLo, 31, 16⟩
/-- emb.tm_tally_hi (R91). -/
def R.embTmTallyHi : Nat := 0x20004
@[inherit_doc R.embTmTallyHi] def F.embTmTallyHi_sec_hi : Fld := ⟨R.embTmTallyHi, 31, 0⟩
/-- emb.tm_bin (R91). -/
def R.embTmBin : Nat := 0x20008
@[inherit_doc R.embTmBin] def F.embTmBin_seconds : Fld := ⟨R.embTmBin, 47, 0⟩
/-- emb.tm_wall_sub (R91). -/
def R.embTmWallSub : Nat := 0x20010
@[inherit_doc R.embTmWallSub] def F.embTmWallSub_sub : Fld := ⟨R.embTmWallSub, 15, 0⟩
/-- emb.tm_cal_time (R91). -/
def R.embTmCalTime : Nat := 0x20014
@[inherit_doc R.embTmCalTime] def F.embTmCalTime_sec : Fld := ⟨R.embTmCalTime, 5, 0⟩
@[inherit_doc R.embTmCalTime] def F.embTmCalTime_min : Fld := ⟨R.embTmCalTime, 13, 8⟩
@[inherit_doc R.embTmCalTime] def F.embTmCalTime_hour : Fld := ⟨R.embTmCalTime, 20, 16⟩
@[inherit_doc R.embTmCalTime] def F.embTmCalTime_dow : Fld := ⟨R.embTmCalTime, 26, 24⟩
/-- emb.tm_cal_date (R91). -/
def R.embTmCalDate : Nat := 0x20018
@[inherit_doc R.embTmCalDate] def F.embTmCalDate_date : Fld := ⟨R.embTmCalDate, 4, 0⟩
@[inherit_doc R.embTmCalDate] def F.embTmCalDate_month : Fld := ⟨R.embTmCalDate, 11, 8⟩
@[inherit_doc R.embTmCalDate] def F.embTmCalDate_year : Fld := ⟨R.embTmCalDate, 23, 16⟩
/-- emb.tm_end (R91). -/
def R.embTmEnd : Nat := 0x2001c
@[inherit_doc R.embTmEnd] def F.embTmEnd_wall_valid : Fld := ⟨R.embTmEnd, 0, 0⟩
@[inherit_doc R.embTmEnd] def F.embTmEnd_halted : Fld := ⟨R.embTmEnd, 1, 1⟩
@[inherit_doc R.embTmEnd] def F.embTmEnd_mode : Fld := ⟨R.embTmEnd, 2, 2⟩
@[inherit_doc R.embTmEnd] def F.embTmEnd_frz_ok : Fld := ⟨R.embTmEnd, 3, 3⟩
/-- emb.wctl (R91). -/
def R.embWctl : Nat := 0x20040
@[inherit_doc R.embWctl] def F.embWctl_halt : Fld := ⟨R.embWctl, 0, 0⟩
@[inherit_doc R.embWctl] def F.embWctl_sec_reset : Fld := ⟨R.embWctl, 1, 1⟩
@[inherit_doc R.embWctl] def F.embWctl_mode : Fld := ⟨R.embWctl, 2, 2⟩
/-- emb.dst (R91). -/
def R.embDst : Nat := 0x20044
@[inherit_doc R.embDst] def F.embDst_cmd : Fld := ⟨R.embDst, 1, 0⟩
@[inherit_doc R.embDst] def F.embDst_pending : Fld := ⟨R.embDst, 8, 8⟩
@[inherit_doc R.embDst] def F.embDst_dst_on : Fld := ⟨R.embDst, 9, 9⟩
/-- emb.trim (R91). -/
def R.embTrim : Nat := 0x20048
@[inherit_doc R.embTrim] def F.embTrim_trim : Fld := ⟨R.embTrim, 9, 0⟩
/-- emb.xtal_meas (R91). -/
def R.embXtalMeas : Nat := 0x2004c
@[inherit_doc R.embXtalMeas] def F.embXtalMeas_offset : Fld := ⟨R.embXtalMeas, 15, 0⟩
@[inherit_doc R.embXtalMeas] def F.embXtalMeas_valid : Fld := ⟨R.embXtalMeas, 16, 16⟩
/-- emb.status (R91). -/
def R.embStatus : Nat := 0x20050
@[inherit_doc R.embStatus] def F.embStatus_ember_fresh : Fld := ⟨R.embStatus, 0, 0⟩
@[inherit_doc R.embStatus] def F.embStatus_osc_stop : Fld := ⟨R.embStatus, 1, 1⟩
@[inherit_doc R.embStatus] def F.embStatus_xtal_sub : Fld := ⟨R.embStatus, 2, 2⟩
@[inherit_doc R.embStatus] def F.embStatus_xtal_coarse : Fld := ⟨R.embStatus, 3, 3⟩
@[inherit_doc R.embStatus] def F.embStatus_frz_lapsed : Fld := ⟨R.embStatus, 4, 4⟩
@[inherit_doc R.embStatus] def F.embStatus_wake_ev : Fld := ⟨R.embStatus, 5, 5⟩
@[inherit_doc R.embStatus] def F.embStatus_on_battery : Fld := ⟨R.embStatus, 6, 6⟩
@[inherit_doc R.embStatus] def F.embStatus_hold_armed : Fld := ⟨R.embStatus, 7, 7⟩
@[inherit_doc R.embStatus] def F.embStatus_hold_broken : Fld := ⟨R.embStatus, 8, 8⟩
/-- emb.sw_first_bat (R91). -/
def R.embSwFirstBat : Nat := 0x20058
@[inherit_doc R.embSwFirstBat] def F.embSwFirstBat_tally : Fld := ⟨R.embSwFirstBat, 63, 0⟩
/-- emb.sw_last_main (R91). -/
def R.embSwLastMain : Nat := 0x20060
@[inherit_doc R.embSwLastMain] def F.embSwLastMain_tally : Fld := ⟨R.embSwLastMain, 63, 0⟩
/-- emb.sw_count (R91). -/
def R.embSwCount : Nat := 0x20068
@[inherit_doc R.embSwCount] def F.embSwCount_count : Fld := ⟨R.embSwCount, 15, 0⟩
/-- emb.wake (R91). -/
def R.embWake : Nat := 0x20070
@[inherit_doc R.embWake] def F.embWake_unit : Fld := ⟨R.embWake, 2, 0⟩
@[inherit_doc R.embWake] def F.embWake_pwron : Fld := ⟨R.embWake, 3, 3⟩
@[inherit_doc R.embWake] def F.embWake_count : Fld := ⟨R.embWake, 27, 16⟩
/-- emb.wake_ovr (R91). -/
def R.embWakeOvr : Nat := 0x20074
@[inherit_doc R.embWakeOvr] def F.embWakeOvr_count : Fld := ⟨R.embWakeOvr, 7, 0⟩
/-- emb.pwr (R91). -/
def R.embPwr : Nat := 0x20078
@[inherit_doc R.embPwr] def F.embPwr_autorestart : Fld := ⟨R.embPwr, 0, 0⟩
@[inherit_doc R.embPwr] def F.embPwr_pwron_active : Fld := ⟨R.embPwr, 1, 1⟩
@[inherit_doc R.embPwr] def F.embPwr_pwron_pulses : Fld := ⟨R.embPwr, 15, 8⟩
/-- emb.bkp[12] (R91). -/
def R.embBkp (i : Nat) : Nat := 0x20100 + 4 * i
@[inherit_doc R.embBkp] def F.embBkp_data (i : Nat) : Fld := ⟨R.embBkp i, 31, 0⟩
/-- emb.bkp_dev[4] (R91). -/
def R.embBkpDev (i : Nat) : Nat := 0x20130 + 4 * i
@[inherit_doc R.embBkpDev] def F.embBkpDev_data (i : Nat) : Fld := ⟨R.embBkpDev i, 31, 0⟩
/-- clg.status (R582). -/
def R.clgStatus : Nat := 0x30000
@[inherit_doc R.clgStatus] def F.clgStatus_hold : Fld := ⟨R.clgStatus, 0, 0⟩
@[inherit_doc R.clgStatus] def F.clgStatus_push_ok : Fld := ⟨R.clgStatus, 1, 1⟩
@[inherit_doc R.clgStatus] def F.clgStatus_full : Fld := ⟨R.clgStatus, 2, 2⟩
@[inherit_doc R.clgStatus] def F.clgStatus_reserve : Fld := ⟨R.clgStatus, 3, 3⟩
@[inherit_doc R.clgStatus] def F.clgStatus_missing : Fld := ⟨R.clgStatus, 4, 4⟩
@[inherit_doc R.clgStatus] def F.clgStatus_attn : Fld := ⟨R.clgStatus, 5, 5⟩
@[inherit_doc R.clgStatus] def F.clgStatus_pushing : Fld := ⟨R.clgStatus, 6, 6⟩
@[inherit_doc R.clgStatus] def F.clgStatus_size_level : Fld := ⟨R.clgStatus, 11, 8⟩
/-- clg.head (R582). -/
def R.clgHead : Nat := 0x30008
@[inherit_doc R.clgHead] def F.clgHead_seq : Fld := ⟨R.clgHead, 63, 0⟩
/-- clg.tail (R582). -/
def R.clgTail : Nat := 0x30010
@[inherit_doc R.clgTail] def F.clgTail_seq : Fld := ⟨R.clgTail, 63, 0⟩
/-- clg.anchor (R582). -/
def R.clgAnchor : Nat := 0x30018
@[inherit_doc R.clgAnchor] def F.clgAnchor_chain : Fld := ⟨R.clgAnchor, 63, 0⟩
/-- clg.ack (R582). -/
def R.clgAck : Nat := 0x30020
@[inherit_doc R.clgAck] def F.clgAck_seq : Fld := ⟨R.clgAck, 63, 0⟩
/-- clg.capacity (R582). -/
def R.clgCapacity : Nat := 0x30028
@[inherit_doc R.clgCapacity] def F.clgCapacity_n : Fld := ⟨R.clgCapacity, 24, 0⟩
/-- clg.attn_cfg (R582). -/
def R.clgAttnCfg : Nat := 0x30030
@[inherit_doc R.clgAttnCfg] def F.clgAttnCfg_level : Fld := ⟨R.clgAttnCfg, 24, 0⟩
@[inherit_doc R.clgAttnCfg] def F.clgAttnCfg_irq : Fld := ⟨R.clgAttnCfg, 31, 31⟩
/-- clg.attn_vec (R582). -/
def R.clgAttnVec : Nat := 0x30034
@[inherit_doc R.clgAttnVec] def F.clgAttnVec_vector : Fld := ⟨R.clgAttnVec, 10, 0⟩
/-- clg.rd_seq (R582). -/
def R.clgRdSeq : Nat := 0x30040
@[inherit_doc R.clgRdSeq] def F.clgRdSeq_seq : Fld := ⟨R.clgRdSeq, 63, 0⟩
/-- clg.rd_status (R582). -/
def R.clgRdStatus : Nat := 0x30048
@[inherit_doc R.clgRdStatus] def F.clgRdStatus_state : Fld := ⟨R.clgRdStatus, 1, 0⟩
@[inherit_doc R.clgRdStatus] def F.clgRdStatus_busy : Fld := ⟨R.clgRdStatus, 2, 2⟩
/-- clg.rd_rec[8] (R582). -/
def R.clgRdRec (i : Nat) : Nat := 0x30080 + 8 * i
@[inherit_doc R.clgRdRec] def F.clgRdRec_bytes (i : Nat) : Fld := ⟨R.clgRdRec i, 63, 0⟩
/-- clg.hold_refused (R582). -/
def R.clgHoldRefused : Nat := 0x30100
@[inherit_doc R.clgHoldRefused] def F.clgHoldRefused_count : Fld := ⟨R.clgHoldRefused, 31, 0⟩
/-- clg.missed (R582). -/
def R.clgMissed : Nat := 0x30104
@[inherit_doc R.clgMissed] def F.clgMissed_count : Fld := ⟨R.clgMissed, 31, 0⟩
/-- clg.wrapped (R582). -/
def R.clgWrapped : Nat := 0x30108
@[inherit_doc R.clgWrapped] def F.clgWrapped_count : Fld := ⟨R.clgWrapped, 31, 0⟩
/-- clg.push_skipped (R582). -/
def R.clgPushSkipped : Nat := 0x3010c
@[inherit_doc R.clgPushSkipped] def F.clgPushSkipped_count : Fld := ⟨R.clgPushSkipped, 31, 0⟩
/-- clg.records (R582). -/
def R.clgRecords : Nat := 0x30110
@[inherit_doc R.clgRecords] def F.clgRecords_count : Fld := ⟨R.clgRecords, 31, 0⟩
/-- clg.push_ctl (R582). -/
def R.clgPushCtl : Nat := 0x30200
@[inherit_doc R.clgPushCtl] def F.clgPushCtl_enable : Fld := ⟨R.clgPushCtl, 0, 0⟩
@[inherit_doc R.clgPushCtl] def F.clgPushCtl_auto_ack : Fld := ⟨R.clgPushCtl, 1, 1⟩
@[inherit_doc R.clgPushCtl] def F.clgPushCtl_size : Fld := ⟨R.clgPushCtl, 12, 8⟩
/-- clg.push_base (R582). -/
def R.clgPushBase : Nat := 0x30208
@[inherit_doc R.clgPushBase] def F.clgPushBase_base : Fld := ⟨R.clgPushBase, 63, 12⟩
/-- clg.push_prod (R582). -/
def R.clgPushProd : Nat := 0x30210
@[inherit_doc R.clgPushProd] def F.clgPushProd_addr : Fld := ⟨R.clgPushProd, 63, 3⟩
/-- clg.push_cons (R582). -/
def R.clgPushCons : Nat := 0x30218
@[inherit_doc R.clgPushCons] def F.clgPushCons_seq : Fld := ⟨R.clgPushCons, 63, 0⟩
/-- clg.push_pos (R582). -/
def R.clgPushPos : Nat := 0x30220
@[inherit_doc R.clgPushPos] def F.clgPushPos_seq : Fld := ⟨R.clgPushPos, 63, 0⟩
/-- fwt.status (R554). -/
def R.fwtStatus : Nat := 0x40000
@[inherit_doc R.fwtStatus] def F.fwtStatus_open : Fld := ⟨R.fwtStatus, 0, 0⟩
@[inherit_doc R.fwtStatus] def F.fwtStatus_class : Fld := ⟨R.fwtStatus, 3, 1⟩
@[inherit_doc R.fwtStatus] def F.fwtStatus_fence : Fld := ⟨R.fwtStatus, 4, 4⟩
@[inherit_doc R.fwtStatus] def F.fwtStatus_grave : Fld := ⟨R.fwtStatus, 5, 5⟩
@[inherit_doc R.fwtStatus] def F.fwtStatus_err : Fld := ⟨R.fwtStatus, 6, 6⟩
@[inherit_doc R.fwtStatus] def F.fwtStatus_profile : Fld := ⟨R.fwtStatus, 11, 8⟩
@[inherit_doc R.fwtStatus] def F.fwtStatus_test_en : Fld := ⟨R.fwtStatus, 12, 12⟩
/-- fwt.event (R554). -/
def R.fwtEvent : Nat := 0x40004
@[inherit_doc R.fwtEvent] def F.fwtEvent_id : Fld := ⟨R.fwtEvent, 15, 0⟩
@[inherit_doc R.fwtEvent] def F.fwtEvent_merges : Fld := ⟨R.fwtEvent, 31, 16⟩
/-- fwt.event_src (R554). -/
def R.fwtEventSrc : Nat := 0x40008
@[inherit_doc R.fwtEventSrc] def F.fwtEventSrc_first : Fld := ⟨R.fwtEventSrc, 8, 0⟩
@[inherit_doc R.fwtEventSrc] def F.fwtEventSrc_last : Fld := ⟨R.fwtEventSrc, 24, 16⟩
/-- fwt.event_left (R554). -/
def R.fwtEventLeft : Nat := 0x4000c
@[inherit_doc R.fwtEventLeft] def F.fwtEventLeft_us : Fld := ⟨R.fwtEventLeft, 31, 0⟩
/-- fwt.ack (R554). -/
def R.fwtAck : Nat := 0x40010
@[inherit_doc R.fwtAck] def F.fwtAck_id : Fld := ⟨R.fwtAck, 15, 0⟩
@[inherit_doc R.fwtAck] def F.fwtAck_merges : Fld := ⟨R.fwtAck, 31, 16⟩
/-- fwt.ack_status (R554). -/
def R.fwtAckStatus : Nat := 0x40014
@[inherit_doc R.fwtAckStatus] def F.fwtAckStatus_result : Fld := ⟨R.fwtAckStatus, 2, 0⟩
/-- fwt.grave (R554). -/
def R.fwtGrave : Nat := 0x40018
@[inherit_doc R.fwtGrave] def F.fwtGrave_latched : Fld := ⟨R.fwtGrave, 0, 0⟩
@[inherit_doc R.fwtGrave] def F.fwtGrave_count : Fld := ⟨R.fwtGrave, 31, 16⟩
/-- fwt.timer[4] (R554). -/
def R.fwtTimer (i : Nat) : Nat := 0x40020 + 4 * i
@[inherit_doc R.fwtTimer] def F.fwtTimer_us (i : Nat) : Fld := ⟨R.fwtTimer i, 31, 0⟩
/-- fwt.irq_cfg (R554). -/
def R.fwtIrqCfg : Nat := 0x40030
@[inherit_doc R.fwtIrqCfg] def F.fwtIrqCfg_vector : Fld := ⟨R.fwtIrqCfg, 10, 0⟩
/-- fwt.log_missed (R554). -/
def R.fwtLogMissed : Nat := 0x40034
@[inherit_doc R.fwtLogMissed] def F.fwtLogMissed_count : Fld := ⟨R.fwtLogMissed, 31, 0⟩
/-- fwt.hist_lost (R554). -/
def R.fwtHistLost : Nat := 0x40038
@[inherit_doc R.fwtHistLost] def F.fwtHistLost_count : Fld := ⟨R.fwtHistLost, 31, 0⟩
/-- fwt.wear_thresh (R554). -/
def R.fwtWearThresh : Nat := 0x40040
@[inherit_doc R.fwtWearThresh] def F.fwtWearThresh_limit : Fld := ⟨R.fwtWearThresh, 15, 0⟩
/-- fwt.hist_pos (R554). -/
def R.fwtHistPos : Nat := 0x40100
@[inherit_doc R.fwtHistPos] def F.fwtHistPos_newest : Fld := ⟨R.fwtHistPos, 3, 0⟩
@[inherit_doc R.fwtHistPos] def F.fwtHistPos_valid : Fld := ⟨R.fwtHistPos, 8, 4⟩
/-- fwt.hist[64] (R554). -/
def R.fwtHist (i : Nat) : Nat := 0x40200 + 8 * i
@[inherit_doc R.fwtHist] def F.fwtHist_bytes (i : Nat) : Fld := ⟨R.fwtHist i, 63, 0⟩
/-- fwt.force_set[16] (R554). -/
def R.fwtForceSet (i : Nat) : Nat := 0x40400 + 4 * i
@[inherit_doc R.fwtForceSet] def F.fwtForceSet_force (i : Nat) : Fld := ⟨R.fwtForceSet i, 31, 0⟩
/-- fwt.force_clr[16] (R554). -/
def R.fwtForceClr (i : Nat) : Nat := 0x40440 + 4 * i
@[inherit_doc R.fwtForceClr] def F.fwtForceClr_force (i : Nat) : Fld := ⟨R.fwtForceClr i, 31, 0⟩
/-- fwt.live[16] (R554). -/
def R.fwtLive (i : Nat) : Nat := 0x40480 + 4 * i
@[inherit_doc R.fwtLive] def F.fwtLive_live (i : Nat) : Fld := ⟨R.fwtLive i, 31, 0⟩
/-- fwt.broken[16] (R554). -/
def R.fwtBroken (i : Nat) : Nat := 0x404c0 + 4 * i
@[inherit_doc R.fwtBroken] def F.fwtBroken_broken (i : Nat) : Fld := ⟨R.fwtBroken i, 31, 0⟩
/-- fwt.latched[16] (R554). -/
def R.fwtLatched (i : Nat) : Nat := 0x40500 + 4 * i
@[inherit_doc R.fwtLatched] def F.fwtLatched_latched (i : Nat) : Fld := ⟨R.fwtLatched i, 31, 0⟩
/-- fwt.wear[16] (R554). -/
def R.fwtWear (i : Nat) : Nat := 0x40600 + 4 * i
@[inherit_doc R.fwtWear] def F.fwtWear_slowdown (i : Nat) : Fld := ⟨R.fwtWear i, 15, 0⟩
@[inherit_doc R.fwtWear] def F.fwtWear_valid (i : Nat) : Fld := ⟨R.fwtWear i, 16, 16⟩
/-- fwt.src_cfg[512] (R554). -/
def R.fwtSrcCfg (i : Nat) : Nat := 0x41000 + 4 * i
@[inherit_doc R.fwtSrcCfg] def F.fwtSrcCfg_reactions (i : Nat) : Fld := ⟨R.fwtSrcCfg i, 5, 0⟩
@[inherit_doc R.fwtSrcCfg] def F.fwtSrcCfg_class (i : Nat) : Fld := ⟨R.fwtSrcCfg i, 10, 8⟩
/-- fwt.src_info[512] (R554). -/
def R.fwtSrcInfo (i : Nat) : Nat := 0x42000 + 4 * i
@[inherit_doc R.fwtSrcInfo] def F.fwtSrcInfo_class (i : Nat) : Fld := ⟨R.fwtSrcInfo i, 2, 0⟩
@[inherit_doc R.fwtSrcInfo] def F.fwtSrcInfo_block (i : Nat) : Fld := ⟨R.fwtSrcInfo i, 15, 8⟩
@[inherit_doc R.fwtSrcInfo] def F.fwtSrcInfo_guyline (i : Nat) : Fld := ⟨R.fwtSrcInfo i, 16, 16⟩
@[inherit_doc R.fwtSrcInfo] def F.fwtSrcInfo_implemented (i : Nat) : Fld := ⟨R.fwtSrcInfo i, 17, 17⟩
/-- fwt.src_count[512] (R554). -/
def R.fwtSrcCount (i : Nat) : Nat := 0x43000 + 4 * i
@[inherit_doc R.fwtSrcCount] def F.fwtSrcCount_raises (i : Nat) : Fld := ⟨R.fwtSrcCount i, 15, 0⟩
/-- lic.signal (R516). -/
def R.licSignal : Nat := 0x80010
@[inherit_doc R.licSignal] def F.licSignal_number : Fld := ⟨R.licSignal, 4, 0⟩
@[inherit_doc R.licSignal] def F.licSignal_cores : Fld := ⟨R.licSignal, 31, 16⟩
/-- lic.trap_targets (R516). -/
def R.licTrapTargets : Nat := 0x80020
@[inherit_doc R.licTrapTargets] def F.licTrapTargets_cores : Fld := ⟨R.licTrapTargets, 15, 0⟩
/-- lic.gate_cfg (R516). -/
def R.licGateCfg : Nat := 0x80030
@[inherit_doc R.licGateCfg] def F.licGateCfg_enable : Fld := ⟨R.licGateCfg, 0, 0⟩
@[inherit_doc R.licGateCfg] def F.licGateCfg_idle : Fld := ⟨R.licGateCfg, 15, 8⟩
/-- lic.core_bind[16] (R516). -/
def R.licCoreBind (i : Nat) : Nat := 0x80100 + 4 * i
@[inherit_doc R.licCoreBind] def F.licCoreBind_port (i : Nat) : Fld := ⟨R.licCoreBind i, 1, 0⟩
@[inherit_doc R.licCoreBind] def F.licCoreBind_valid (i : Nat) : Fld := ⟨R.licCoreBind i, 4, 4⟩
/-- lic.core_cfg[16] (R516). -/
def R.licCoreCfg (i : Nat) : Nat := 0x80200 + 4 * i
@[inherit_doc R.licCoreCfg] def F.licCoreCfg_pmr (i : Nat) : Fld := ⟨R.licCoreCfg i, 4, 0⟩
/-- lic.core_state[16] (R516). -/
def R.licCoreState (i : Nat) : Nat := 0x80300 + 4 * i
@[inherit_doc R.licCoreState] def F.licCoreState_running (i : Nat) : Fld := ⟨R.licCoreState i, 4, 0⟩
@[inherit_doc R.licCoreState] def F.licCoreState_trap_active (i : Nat) : Fld := ⟨R.licCoreState i, 5, 5⟩
@[inherit_doc R.licCoreState] def F.licCoreState_offer (i : Nat) : Fld := ⟨R.licCoreState i, 25, 16⟩
/-- lic.claim[16] (R516). -/
def R.licClaim (i : Nat) : Nat := 0x80400 + 8 * i
@[inherit_doc R.licClaim] def F.licClaim_number (i : Nat) : Fld := ⟨R.licClaim i, 9, 0⟩
@[inherit_doc R.licClaim] def F.licClaim_priority (i : Nat) : Fld := ⟨R.licClaim i, 19, 16⟩
/-- lic.eoi[16] (R516). -/
def R.licEoi (i : Nat) : Nat := 0x80600 + 8 * i
@[inherit_doc R.licEoi] def F.licEoi_number (i : Nat) : Fld := ⟨R.licEoi i, 9, 0⟩
/-- lic.core_vbase[16] (R516). -/
def R.licCoreVbase (i : Nat) : Nat := 0x80800 + 8 * i
@[inherit_doc R.licCoreVbase] def F.licCoreVbase_base (i : Nat) : Fld := ⟨R.licCoreVbase i, 63, 14⟩
/-- lic.mask_set[24] (R516). -/
def R.licMaskSet (i : Nat) : Nat := 0x81004 + 4 * i
@[inherit_doc R.licMaskSet] def F.licMaskSet_mask (i : Nat) : Fld := ⟨R.licMaskSet i, 31, 0⟩
/-- lic.mask_clr[24] (R516). -/
def R.licMaskClr (i : Nat) : Nat := 0x81084 + 4 * i
@[inherit_doc R.licMaskClr] def F.licMaskClr_mask (i : Nat) : Fld := ⟨R.licMaskClr i, 31, 0⟩
/-- lic.pend_set[24] (R516). -/
def R.licPendSet (i : Nat) : Nat := 0x81104 + 4 * i
@[inherit_doc R.licPendSet] def F.licPendSet_pend (i : Nat) : Fld := ⟨R.licPendSet i, 31, 0⟩
/-- lic.pend_clr[24] (R516). -/
def R.licPendClr (i : Nat) : Nat := 0x81184 + 4 * i
@[inherit_doc R.licPendClr] def F.licPendClr_pend (i : Nat) : Fld := ⟨R.licPendClr i, 31, 0⟩
/-- lic.active[31] (R516). -/
def R.licActive (i : Nat) : Nat := 0x81204 + 4 * i
@[inherit_doc R.licActive] def F.licActive_active (i : Nat) : Fld := ⟨R.licActive i, 31, 0⟩
/-- lic.line[31] (R516). -/
def R.licLine (i : Nat) : Nat := 0x81284 + 4 * i
@[inherit_doc R.licLine] def F.licLine_line (i : Nat) : Fld := ⟨R.licLine i, 31, 0⟩
/-- lic.src_cfg[768] (R516). -/
def R.licSrcCfg (i : Nat) : Nat := 0x82080 + 4 * i
@[inherit_doc R.licSrcCfg] def F.licSrcCfg_priority (i : Nat) : Fld := ⟨R.licSrcCfg i, 3, 0⟩
@[inherit_doc R.licSrcCfg] def F.licSrcCfg_mode (i : Nat) : Fld := ⟨R.licSrcCfg i, 4, 4⟩
@[inherit_doc R.licSrcCfg] def F.licSrcCfg_target (i : Nat) : Fld := ⟨R.licSrcCfg i, 11, 8⟩
@[inherit_doc R.licSrcCfg] def F.licSrcCfg_owner (i : Nat) : Fld := ⟨R.licSrcCfg i, 15, 12⟩
@[inherit_doc R.licSrcCfg] def F.licSrcCfg_mask (i : Nat) : Fld := ⟨R.licSrcCfg i, 31, 16⟩
/-- lic.pmask_set[16] (R516). -/
def R.licPmaskSet (i : Nat) : Nat := 0x84000 + 0x100 * i
@[inherit_doc R.licPmaskSet] def F.licPmaskSet_mask (i : Nat) : Fld := ⟨R.licPmaskSet i, 31, 0⟩
/-- lic.pmask_clr[16] (R516). -/
def R.licPmaskClr (i : Nat) : Nat := 0x84004 + 0x100 * i
@[inherit_doc R.licPmaskClr] def F.licPmaskClr_mask (i : Nat) : Fld := ⟨R.licPmaskClr i, 31, 0⟩
/-- lic.ppend_set[16] (R516). -/
def R.licPpendSet (i : Nat) : Nat := 0x84008 + 0x100 * i
@[inherit_doc R.licPpendSet] def F.licPpendSet_pend (i : Nat) : Fld := ⟨R.licPpendSet i, 31, 0⟩
/-- lic.ppend_clr[16] (R516). -/
def R.licPpendClr (i : Nat) : Nat := 0x8400c + 0x100 * i
@[inherit_doc R.licPpendClr] def F.licPpendClr_pend (i : Nat) : Fld := ⟨R.licPpendClr i, 31, 0⟩
/-- lic.pactive[16] (R516). -/
def R.licPactive (i : Nat) : Nat := 0x84010 + 0x100 * i
@[inherit_doc R.licPactive] def F.licPactive_active (i : Nat) : Fld := ⟨R.licPactive i, 31, 0⟩
/-- lic.tstate[16] (R516). -/
def R.licTstate (i : Nat) : Nat := 0x84014 + 0x100 * i
@[inherit_doc R.licTstate] def F.licTstate_pending (i : Nat) : Fld := ⟨R.licTstate i, 3, 0⟩
@[inherit_doc R.licTstate] def F.licTstate_active (i : Nat) : Fld := ⟨R.licTstate i, 11, 8⟩
/-- lic.cnt_delivered (R516). -/
def R.licCntDelivered : Nat := 0x85000
@[inherit_doc R.licCntDelivered] def F.licCntDelivered_count : Fld := ⟨R.licCntDelivered, 31, 0⟩
/-- lic.cnt_offered (R516). -/
def R.licCntOffered : Nat := 0x85004
@[inherit_doc R.licCntOffered] def F.licCntOffered_count : Fld := ⟨R.licCntOffered, 31, 0⟩
/-- lic.cnt_withdrawn (R516). -/
def R.licCntWithdrawn : Nat := 0x85008
@[inherit_doc R.licCntWithdrawn] def F.licCntWithdrawn_count : Fld := ⟨R.licCntWithdrawn, 31, 0⟩
/-- lic.cnt_spurious (R516). -/
def R.licCntSpurious : Nat := 0x8500c
@[inherit_doc R.licCntSpurious] def F.licCntSpurious_count : Fld := ⟨R.licCntSpurious, 31, 0⟩
/-- lic.cnt_bad_eoi (R516). -/
def R.licCntBadEoi : Nat := 0x85010
@[inherit_doc R.licCntBadEoi] def F.licCntBadEoi_count : Fld := ⟨R.licCntBadEoi, 31, 0⟩
/-- lic.cnt_repend (R516). -/
def R.licCntRepend : Nat := 0x85014
@[inherit_doc R.licCntRepend] def F.licCntRepend_count : Fld := ⟨R.licCntRepend, 31, 0⟩
/-- lic.cnt_wake (R516). -/
def R.licCntWake : Nat := 0x85018
@[inherit_doc R.licCntWake] def F.licCntWake_count : Fld := ⟨R.licCntWake, 31, 0⟩
/-- lic.cnt_discard (R516). -/
def R.licCntDiscard : Nat := 0x8501c
@[inherit_doc R.licCntDiscard] def F.licCntDiscard_count : Fld := ⟨R.licCntDiscard, 23, 0⟩
@[inherit_doc R.licCntDiscard] def F.licCntDiscard_restore_bad : Fld := ⟨R.licCntDiscard, 31, 24⟩
/-- sto.status (R190). -/
def R.stoStatus : Nat := 0xc0000
@[inherit_doc R.stoStatus] def F.stoStatus_ready : Fld := ⟨R.stoStatus, 0, 0⟩
@[inherit_doc R.stoStatus] def F.stoStatus_hot : Fld := ⟨R.stoStatus, 1, 1⟩
@[inherit_doc R.stoStatus] def F.stoStatus_scrub_on : Fld := ⟨R.stoStatus, 2, 2⟩
@[inherit_doc R.stoStatus] def F.stoStatus_held : Fld := ⟨R.stoStatus, 3, 3⟩
/-- sto.region_base[23] (R190). -/
def R.stoRegionBase (i : Nat) : Nat := 0xc0100 + 0x10 * i
@[inherit_doc R.stoRegionBase] def F.stoRegionBase_value (i : Nat) : Fld := ⟨R.stoRegionBase i, 63, 0⟩
/-- sto.region_used[23] (R190). -/
def R.stoRegionUsed (i : Nat) : Nat := 0xc0108 + 0x10 * i
@[inherit_doc R.stoRegionUsed] def F.stoRegionUsed_value (i : Nat) : Fld := ⟨R.stoRegionUsed i, 63, 0⟩
/-- sto.bw_bytes[8] (R190). -/
def R.stoBwBytes (i : Nat) : Nat := 0xc0280 + 0x10 * i
@[inherit_doc R.stoBwBytes] def F.stoBwBytes_count (i : Nat) : Fld := ⟨R.stoBwBytes i, 63, 0⟩
/-- sto.bw_starved[8] (R190). -/
def R.stoBwStarved (i : Nat) : Nat := 0xc0288 + 0x10 * i
@[inherit_doc R.stoBwStarved] def F.stoBwStarved_count (i : Nat) : Fld := ⟨R.stoBwStarved i, 63, 0⟩
/-- sto.err_ce (R190). -/
def R.stoErrCe : Nat := 0xc0300
@[inherit_doc R.stoErrCe] def F.stoErrCe_count : Fld := ⟨R.stoErrCe, 31, 0⟩
/-- sto.err_ue (R190). -/
def R.stoErrUe : Nat := 0xc0304
@[inherit_doc R.stoErrUe] def F.stoErrUe_count : Fld := ⟨R.stoErrUe, 31, 0⟩
/-- sto.crc_fail (R190). -/
def R.stoCrcFail : Nat := 0xc0308
@[inherit_doc R.stoCrcFail] def F.stoCrcFail_count : Fld := ⟨R.stoCrcFail, 31, 0⟩
/-- sto.copy_mismatch (R190). -/
def R.stoCopyMismatch : Nat := 0xc030c
@[inherit_doc R.stoCopyMismatch] def F.stoCopyMismatch_count : Fld := ⟨R.stoCopyMismatch, 31, 0⟩
/-- sto.tag_quarantined (R190). -/
def R.stoTagQuarantined : Nat := 0xc0310
@[inherit_doc R.stoTagQuarantined] def F.stoTagQuarantined_count : Fld := ⟨R.stoTagQuarantined, 31, 0⟩
/-- sto.ue_addr (R190). -/
def R.stoUeAddr : Nat := 0xc0320
@[inherit_doc R.stoUeAddr] def F.stoUeAddr_addr : Fld := ⟨R.stoUeAddr, 33, 0⟩
/-- sto.ue_info (R190). -/
def R.stoUeInfo : Nat := 0xc0328
@[inherit_doc R.stoUeInfo] def F.stoUeInfo_region : Fld := ⟨R.stoUeInfo, 4, 0⟩
@[inherit_doc R.stoUeInfo] def F.stoUeInfo_crc : Fld := ⟨R.stoUeInfo, 5, 5⟩
@[inherit_doc R.stoUeInfo] def F.stoUeInfo_in_use : Fld := ⟨R.stoUeInfo, 6, 6⟩
@[inherit_doc R.stoUeInfo] def F.stoUeInfo_port : Fld := ⟨R.stoUeInfo, 11, 8⟩
@[inherit_doc R.stoUeInfo] def F.stoUeInfo_valid : Fld := ⟨R.stoUeInfo, 31, 31⟩
/-- sto.scrub_cfg (R190). -/
def R.stoScrubCfg : Nat := 0xc0400
@[inherit_doc R.stoScrubCfg] def F.stoScrubCfg_period : Fld := ⟨R.stoScrubCfg, 2, 0⟩
/-- sto.scrub_status (R190). -/
def R.stoScrubStatus : Nat := 0xc0404
@[inherit_doc R.stoScrubStatus] def F.stoScrubStatus_passes : Fld := ⟨R.stoScrubStatus, 15, 0⟩
@[inherit_doc R.stoScrubStatus] def F.stoScrubStatus_progress : Fld := ⟨R.stoScrubStatus, 23, 16⟩
/-- sto.dbg_addr (R190). -/
def R.stoDbgAddr : Nat := 0xc0500
@[inherit_doc R.stoDbgAddr] def F.stoDbgAddr_addr : Fld := ⟨R.stoDbgAddr, 33, 6⟩
/-- sto.dbg_ctl (R190). -/
def R.stoDbgCtl : Nat := 0xc0508
@[inherit_doc R.stoDbgCtl] def F.stoDbgCtl_go : Fld := ⟨R.stoDbgCtl, 0, 0⟩
@[inherit_doc R.stoDbgCtl] def F.stoDbgCtl_busy : Fld := ⟨R.stoDbgCtl, 1, 1⟩
@[inherit_doc R.stoDbgCtl] def F.stoDbgCtl_poison : Fld := ⟨R.stoDbgCtl, 2, 2⟩
/-- sto.dbg_data[8] (R190). -/
def R.stoDbgData (i : Nat) : Nat := 0xc0540 + 8 * i
@[inherit_doc R.stoDbgData] def F.stoDbgData_data (i : Nat) : Fld := ⟨R.stoDbgData i, 63, 0⟩
/-- crl.phy_status[12] (R218). -/
def R.crlPhyStatus (i : Nat) : Nat := 0x100000 + 0x10000 * i
@[inherit_doc R.crlPhyStatus] def F.crlPhyStatus_state (i : Nat) : Fld := ⟨R.crlPhyStatus i, 2, 0⟩
@[inherit_doc R.crlPhyStatus] def F.crlPhyStatus_lock (i : Nat) : Fld := ⟨R.crlPhyStatus i, 3, 3⟩
@[inherit_doc R.crlPhyStatus] def F.crlPhyStatus_width (i : Nat) : Fld := ⟨R.crlPhyStatus i, 7, 4⟩
@[inherit_doc R.crlPhyStatus] def F.crlPhyStatus_reversed (i : Nat) : Fld := ⟨R.crlPhyStatus i, 8, 8⟩
@[inherit_doc R.crlPhyStatus] def F.crlPhyStatus_fec_on (i : Nat) : Fld := ⟨R.crlPhyStatus i, 9, 9⟩
@[inherit_doc R.crlPhyStatus] def F.crlPhyStatus_rate (i : Nat) : Fld := ⟨R.crlPhyStatus i, 11, 10⟩
@[inherit_doc R.crlPhyStatus] def F.crlPhyStatus_last_down (i : Nat) : Fld := ⟨R.crlPhyStatus i, 15, 12⟩
@[inherit_doc R.crlPhyStatus] def F.crlPhyStatus_held (i : Nat) : Fld := ⟨R.crlPhyStatus i, 16, 16⟩
/-- crl.phy_cfg[12] (R218). -/
def R.crlPhyCfg (i : Nat) : Nat := 0x100004 + 0x10000 * i
@[inherit_doc R.crlPhyCfg] def F.crlPhyCfg_nrz_fec (i : Nat) : Fld := ⟨R.crlPhyCfg i, 0, 0⟩
@[inherit_doc R.crlPhyCfg] def F.crlPhyCfg_retrain (i : Nat) : Fld := ⟨R.crlPhyCfg i, 1, 1⟩
/-- crl.err_thresh[12] (R218). -/
def R.crlErrThresh (i : Nat) : Nat := 0x100008 + 0x10000 * i
@[inherit_doc R.crlErrThresh] def F.crlErrThresh_count (i : Nat) : Fld := ⟨R.crlErrThresh i, 23, 0⟩
/-- crl.train_cnt[12] (R218). -/
def R.crlTrainCnt (i : Nat) : Nat := 0x10000c + 0x10000 * i
@[inherit_doc R.crlTrainCnt] def F.crlTrainCnt_attempts (i : Nat) : Fld := ⟨R.crlTrainCnt i, 15, 0⟩
@[inherit_doc R.crlTrainCnt] def F.crlTrainCnt_failed (i : Nat) : Fld := ⟨R.crlTrainCnt i, 31, 16⟩
/-- crl.down_cnt[12] (R218). -/
def R.crlDownCnt (i : Nat) : Nat := 0x100010 + 0x10000 * i
@[inherit_doc R.crlDownCnt] def F.crlDownCnt_down (i : Nat) : Fld := ⟨R.crlDownCnt i, 15, 0⟩
@[inherit_doc R.crlDownCnt] def F.crlDownCnt_recovered (i : Nat) : Fld := ⟨R.crlDownCnt i, 31, 16⟩
/-- crl.phycal[12] (R218). -/
def R.crlPhycal (i : Nat) : Nat := 0x100020 + 0x10000 * i
@[inherit_doc R.crlPhycal] def F.crlPhycal_ohms (i : Nat) : Fld := ⟨R.crlPhycal i, 11, 0⟩
@[inherit_doc R.crlPhycal] def F.crlPhycal_out_of_range (i : Nat) : Fld := ⟨R.crlPhycal i, 12, 12⟩
/-- crl.eye_ctl[12] (R218). -/
def R.crlEyeCtl (i : Nat) : Nat := 0x100200 + 0x10000 * i
@[inherit_doc R.crlEyeCtl] def F.crlEyeCtl_lane (i : Nat) : Fld := ⟨R.crlEyeCtl i, 2, 0⟩
@[inherit_doc R.crlEyeCtl] def F.crlEyeCtl_eye (i : Nat) : Fld := ⟨R.crlEyeCtl i, 5, 4⟩
@[inherit_doc R.crlEyeCtl] def F.crlEyeCtl_go (i : Nat) : Fld := ⟨R.crlEyeCtl i, 8, 8⟩
/-- crl.eye_result[12] (R218). -/
def R.crlEyeResult (i : Nat) : Nat := 0x100204 + 0x10000 * i
@[inherit_doc R.crlEyeResult] def F.crlEyeResult_width (i : Nat) : Fld := ⟨R.crlEyeResult i, 7, 0⟩
@[inherit_doc R.crlEyeResult] def F.crlEyeResult_height (i : Nat) : Fld := ⟨R.crlEyeResult i, 15, 8⟩
@[inherit_doc R.crlEyeResult] def F.crlEyeResult_valid (i : Nat) : Fld := ⟨R.crlEyeResult i, 16, 16⟩
/-- crl.link_status[12] (R259). -/
def R.crlLinkStatus (i : Nat) : Nat := 0x101000 + 0x10000 * i
@[inherit_doc R.crlLinkStatus] def F.crlLinkStatus_state (i : Nat) : Fld := ⟨R.crlLinkStatus i, 1, 0⟩
@[inherit_doc R.crlLinkStatus] def F.crlLinkStatus_session (i : Nat) : Fld := ⟨R.crlLinkStatus i, 3, 2⟩
@[inherit_doc R.crlLinkStatus] def F.crlLinkStatus_held (i : Nat) : Fld := ⟨R.crlLinkStatus i, 4, 4⟩
@[inherit_doc R.crlLinkStatus] def F.crlLinkStatus_replaying (i : Nat) : Fld := ⟨R.crlLinkStatus i, 5, 5⟩
@[inherit_doc R.crlLinkStatus] def F.crlLinkStatus_nak_state (i : Nat) : Fld := ⟨R.crlLinkStatus i, 6, 6⟩
@[inherit_doc R.crlLinkStatus] def F.crlLinkStatus_down_cause (i : Nat) : Fld := ⟨R.crlLinkStatus i, 10, 8⟩
/-- crl.link_limits[12] (R259). -/
def R.crlLinkLimits (i : Nat) : Nat := 0x101004 + 0x10000 * i
@[inherit_doc R.crlLinkLimits] def F.crlLinkLimits_limit (i : Nat) : Fld := ⟨R.crlLinkLimits i, 15, 0⟩
@[inherit_doc R.crlLinkLimits] def F.crlLinkLimits_shared (i : Nat) : Fld := ⟨R.crlLinkLimits i, 31, 16⟩
/-- crl.tx_seq[12] (R259). -/
def R.crlTxSeq (i : Nat) : Nat := 0x101008 + 0x10000 * i
@[inherit_doc R.crlTxSeq] def F.crlTxSeq_next_seq (i : Nat) : Fld := ⟨R.crlTxSeq i, 15, 0⟩
@[inherit_doc R.crlTxSeq] def F.crlTxSeq_acked (i : Nat) : Fld := ⟨R.crlTxSeq i, 31, 16⟩
/-- crl.rx_seq[12] (R259). -/
def R.crlRxSeq (i : Nat) : Nat := 0x10100c + 0x10000 * i
@[inherit_doc R.crlRxSeq] def F.crlRxSeq_E (i : Nat) : Fld := ⟨R.crlRxSeq i, 15, 0⟩
@[inherit_doc R.crlRxSeq] def F.crlRxSeq_partner_limit (i : Nat) : Fld := ⟨R.crlRxSeq i, 31, 16⟩
/-- crl.unacked[12] (R259). -/
def R.crlUnacked (i : Nat) : Nat := 0x101010 + 0x10000 * i
@[inherit_doc R.crlUnacked] def F.crlUnacked_U (i : Nat) : Fld := ⟨R.crlUnacked i, 15, 0⟩
@[inherit_doc R.crlUnacked] def F.crlUnacked_far (i : Nat) : Fld := ⟨R.crlUnacked i, 31, 16⟩
/-- crl.tx_shared[12] (R259). -/
def R.crlTxShared (i : Nat) : Nat := 0x101014 + 0x10000 * i
@[inherit_doc R.crlTxShared] def F.crlTxShared_shared (i : Nat) : Fld := ⟨R.crlTxShared i, 15, 0⟩
@[inherit_doc R.crlTxShared] def F.crlTxShared_seg (i : Nat) : Fld := ⟨R.crlTxShared i, 31, 16⟩
/-- crl.link_rtt[12] (R259). -/
def R.crlLinkRtt (i : Nat) : Nat := 0x101080 + 0x10000 * i
@[inherit_doc R.crlLinkRtt] def F.crlLinkRtt_last (i : Nat) : Fld := ⟨R.crlLinkRtt i, 15, 0⟩
@[inherit_doc R.crlLinkRtt] def F.crlLinkRtt_max (i : Nat) : Fld := ⟨R.crlLinkRtt i, 31, 16⟩
/-- crl.replay_thresh[12] (R259). -/
def R.crlReplayThresh (i : Nat) : Nat := 0x101084 + 0x10000 * i
@[inherit_doc R.crlReplayThresh] def F.crlReplayThresh_count (i : Nat) : Fld := ⟨R.crlReplayThresh i, 15, 0⟩
/-- net.status (R301). -/
def R.netStatus : Nat := 0x200000
@[inherit_doc R.netStatus] def F.netStatus_converged : Fld := ⟨R.netStatus, 0, 0⟩
@[inherit_doc R.netStatus] def F.netStatus_claim : Fld := ⟨R.netStatus, 2, 1⟩
@[inherit_doc R.netStatus] def F.netStatus_root_self : Fld := ⟨R.netStatus, 3, 3⟩
@[inherit_doc R.netStatus] def F.netStatus_lsa_count : Fld := ⟨R.netStatus, 28, 16⟩
/-- net.addr (R301). -/
def R.netAddr : Nat := 0x200004
@[inherit_doc R.netAddr] def F.netAddr_address : Fld := ⟨R.netAddr, 11, 0⟩
@[inherit_doc R.netAddr] def F.netAddr_valid : Fld := ⟨R.netAddr, 12, 12⟩
@[inherit_doc R.netAddr] def F.netAddr_yields : Fld := ⟨R.netAddr, 20, 16⟩
/-- net.root (R301). -/
def R.netRoot : Nat := 0x200008
@[inherit_doc R.netRoot] def F.netRoot_root : Fld := ⟨R.netRoot, 11, 0⟩
@[inherit_doc R.netRoot] def F.netRoot_level : Fld := ⟨R.netRoot, 27, 16⟩
/-- net.esc_cfg (R301). -/
def R.netEscCfg : Nat := 0x20000c
@[inherit_doc R.netEscCfg] def F.netEscCfg_wait : Fld := ⟨R.netEscCfg, 4, 0⟩
/-- net.dup (R301). -/
def R.netDup : Nat := 0x200010
@[inherit_doc R.netDup] def F.netDup_serial : Fld := ⟨R.netDup, 63, 0⟩
/-- net.nbr[8] (R301). -/
def R.netNbr (i : Nat) : Nat := 0x200100 + 0x20 * i
@[inherit_doc R.netNbr] def F.netNbr_state (i : Nat) : Fld := ⟨R.netNbr i, 2, 0⟩
@[inherit_doc R.netNbr] def F.netNbr_loop (i : Nat) : Fld := ⟨R.netNbr i, 3, 3⟩
@[inherit_doc R.netNbr] def F.netNbr_damped (i : Nat) : Fld := ⟨R.netNbr i, 4, 4⟩
@[inherit_doc R.netNbr] def F.netNbr_address (i : Nat) : Fld := ⟨R.netNbr i, 27, 16⟩
/-- net.nbr_inc[8] (R301). -/
def R.netNbrInc (i : Nat) : Nat := 0x200104 + 0x20 * i
@[inherit_doc R.netNbrInc] def F.netNbrInc_incarnation (i : Nat) : Fld := ⟨R.netNbrInc i, 31, 0⟩
/-- net.nbr_serial[8] (R301). -/
def R.netNbrSerial (i : Nat) : Nat := 0x200108 + 0x20 * i
@[inherit_doc R.netNbrSerial] def F.netNbrSerial_serial (i : Nat) : Fld := ⟨R.netNbrSerial i, 63, 0⟩
/-- net.nbr_cost[8] (R301). -/
def R.netNbrCost (i : Nat) : Nat := 0x200110 + 0x20 * i
@[inherit_doc R.netNbrCost] def F.netNbrCost_cost (i : Nat) : Fld := ⟨R.netNbrCost i, 7, 0⟩
@[inherit_doc R.netNbrCost] def F.netNbrCost_downs (i : Nat) : Fld := ⟨R.netNbrCost i, 15, 8⟩
/-- net.port_cost_add[8] (R301). -/
def R.netPortCostAdd (i : Nat) : Nat := 0x200114 + 0x20 * i
@[inherit_doc R.netPortCostAdd] def F.netPortCostAdd_add (i : Nat) : Fld := ⟨R.netPortCostAdd i, 7, 0⟩
/-- net.camp_tbl[64] (R301). -/
def R.netCampTbl (i : Nat) : Nat := 0x201000 + 4 * i
@[inherit_doc R.netCampTbl] def F.netCampTbl_hops (i : Nat) : Fld := ⟨R.netCampTbl i, 11, 0⟩
@[inherit_doc R.netCampTbl] def F.netCampTbl_k (i : Nat) : Fld := ⟨R.netCampTbl i, 14, 12⟩
@[inherit_doc R.netCampTbl] def F.netCampTbl_dist (i : Nat) : Fld := ⟨R.netCampTbl i, 31, 16⟩
/-- net.member_tbl[64] (R301). -/
def R.netMemberTbl (i : Nat) : Nat := 0x201200 + 4 * i
@[inherit_doc R.netMemberTbl] def F.netMemberTbl_hops (i : Nat) : Fld := ⟨R.netMemberTbl i, 11, 0⟩
@[inherit_doc R.netMemberTbl] def F.netMemberTbl_k (i : Nat) : Fld := ⟨R.netMemberTbl i, 14, 12⟩
@[inherit_doc R.netMemberTbl] def F.netMemberTbl_dist (i : Nat) : Fld := ⟨R.netMemberTbl i, 31, 16⟩
/-- net.query (R301). -/
def R.netQuery : Nat := 0x202000
@[inherit_doc R.netQuery] def F.netQuery_dst : Fld := ⟨R.netQuery, 11, 0⟩
@[inherit_doc R.netQuery] def F.netQuery_esc_up : Fld := ⟨R.netQuery, 18, 16⟩
@[inherit_doc R.netQuery] def F.netQuery_esc_dn : Fld := ⟨R.netQuery, 22, 20⟩
@[inherit_doc R.netQuery] def F.netQuery_esc_valid : Fld := ⟨R.netQuery, 23, 23⟩
/-- net.cnt_hello_capped (R301). -/
def R.netCntHelloCapped : Nat := 0x203000
@[inherit_doc R.netCntHelloCapped] def F.netCntHelloCapped_count : Fld := ⟨R.netCntHelloCapped, 31, 0⟩
/-- net.cnt_lsa_rx (R301). -/
def R.netCntLsaRx : Nat := 0x203004
@[inherit_doc R.netCntLsaRx] def F.netCntLsaRx_count : Fld := ⟨R.netCntLsaRx, 31, 0⟩
/-- net.cnt_lsa_tx (R301). -/
def R.netCntLsaTx : Nat := 0x203008
@[inherit_doc R.netCntLsaTx] def F.netCntLsaTx_count : Fld := ⟨R.netCntLsaTx, 31, 0⟩
/-- net.cnt_runs (R301). -/
def R.netCntRuns : Nat := 0x20300c
@[inherit_doc R.netCntRuns] def F.netCntRuns_count : Fld := ⟨R.netCntRuns, 31, 0⟩
/-- net.cnt_noroute (R301). -/
def R.netCntNoroute : Nat := 0x203010
@[inherit_doc R.netCntNoroute] def F.netCntNoroute_count : Fld := ⟨R.netCntNoroute, 31, 0⟩
/-- net.cnt_ttl (R301). -/
def R.netCntTtl : Nat := 0x203014
@[inherit_doc R.netCntTtl] def F.netCntTtl_count : Fld := ⟨R.netCntTtl, 31, 0⟩
/-- net.cnt_escape (R301). -/
def R.netCntEscape : Nat := 0x203018
@[inherit_doc R.netCntEscape] def F.netCntEscape_count : Fld := ⟨R.netCntEscape, 31, 0⟩
/-- net.cnt_undef (R301). -/
def R.netCntUndef : Nat := 0x20301c
@[inherit_doc R.netCntUndef] def F.netCntUndef_count : Fld := ⟨R.netCntUndef, 31, 0⟩
/-- trn.tags (R335). -/
def R.trnTags : Nat := 0x240000
@[inherit_doc R.trnTags] def F.trnTags_fabric : Fld := ⟨R.trnTags, 16, 0⟩
/-- trn.host_tags (R335). -/
def R.trnHostTags : Nat := 0x240004
@[inherit_doc R.trnHostTags] def F.trnHostTags_host : Fld := ⟨R.trnHostTags, 14, 0⟩
/-- trn.timeout (R335). -/
def R.trnTimeout : Nat := 0x240008
@[inherit_doc R.trnTimeout] def F.trnTimeout_exp : Fld := ⟨R.trnTimeout, 3, 0⟩
/-- trn.hold_cfg (R335). -/
def R.trnHoldCfg : Nat := 0x24000c
@[inherit_doc R.trnHoldCfg] def F.trnHoldCfg_max_lease : Fld := ⟨R.trnHoldCfg, 15, 0⟩
/-- trn.lanes (R335). -/
def R.trnLanes : Nat := 0x240010
@[inherit_doc R.trnLanes] def F.trnLanes_src : Fld := ⟨R.trnLanes, 12, 0⟩
@[inherit_doc R.trnLanes] def F.trnLanes_dst : Fld := ⟨R.trnLanes, 28, 16⟩
/-- trn.park (R335). -/
def R.trnPark : Nat := 0x240014
@[inherit_doc R.trnPark] def F.trnPark_parked : Fld := ⟨R.trnPark, 5, 0⟩
/-- trn.holds (R335). -/
def R.trnHolds : Nat := 0x240018
@[inherit_doc R.trnHolds] def F.trnHolds_home : Fld := ⟨R.trnHolds, 16, 0⟩
@[inherit_doc R.trnHolds] def F.trnHolds_owned : Fld := ⟨R.trnHolds, 48, 32⟩
/-- trn.cnt_undef_posted (R335). -/
def R.trnCntUndefPosted : Nat := 0x240100
@[inherit_doc R.trnCntUndefPosted] def F.trnCntUndefPosted_count : Fld := ⟨R.trnCntUndefPosted, 31, 0⟩
/-- trn.cnt_malformed_posted (R335). -/
def R.trnCntMalformedPosted : Nat := 0x240104
@[inherit_doc R.trnCntMalformedPosted] def F.trnCntMalformedPosted_count : Fld := ⟨R.trnCntMalformedPosted, 31, 0⟩
/-- trn.cnt_unsup (R335). -/
def R.trnCntUnsup : Nat := 0x240108
@[inherit_doc R.trnCntUnsup] def F.trnCntUnsup_count : Fld := ⟨R.trnCntUnsup, 31, 0⟩
/-- trn.cnt_timeout (R335). -/
def R.trnCntTimeout : Nat := 0x24010c
@[inherit_doc R.trnCntTimeout] def F.trnCntTimeout_count : Fld := ⟨R.trnCntTimeout, 31, 0⟩
/-- trn.cnt_late (R335). -/
def R.trnCntLate : Nat := 0x240110
@[inherit_doc R.trnCntLate] def F.trnCntLate_count : Fld := ⟨R.trnCntLate, 31, 0⟩
/-- trn.cnt_gone_synth (R335). -/
def R.trnCntGoneSynth : Nat := 0x240114
@[inherit_doc R.trnCntGoneSynth] def F.trnCntGoneSynth_count : Fld := ⟨R.trnCntGoneSynth, 31, 0⟩
/-- trn.cnt_busy_retry (R335). -/
def R.trnCntBusyRetry : Nat := 0x240118
@[inherit_doc R.trnCntBusyRetry] def F.trnCntBusyRetry_count : Fld := ⟨R.trnCntBusyRetry, 31, 0⟩
/-- trn.cnt_order_break (R335). -/
def R.trnCntOrderBreak : Nat := 0x24011c
@[inherit_doc R.trnCntOrderBreak] def F.trnCntOrderBreak_count : Fld := ⟨R.trnCntOrderBreak, 31, 0⟩
/-- trn.cnt_gap_skip (R335). -/
def R.trnCntGapSkip : Nat := 0x240120
@[inherit_doc R.trnCntGapSkip] def F.trnCntGapSkip_count : Fld := ⟨R.trnCntGapSkip, 31, 0⟩
/-- trn.cnt_hold_broken (R335). -/
def R.trnCntHoldBroken : Nat := 0x240124
@[inherit_doc R.trnCntHoldBroken] def F.trnCntHoldBroken_count : Fld := ⟨R.trnCntHoldBroken, 31, 0⟩
/-- trn.cnt_hold_expired (R335). -/
def R.trnCntHoldExpired : Nat := 0x240128
@[inherit_doc R.trnCntHoldExpired] def F.trnCntHoldExpired_count : Fld := ⟨R.trnCntHoldExpired, 31, 0⟩
/-- trn.cnt_hold_drop (R335). -/
def R.trnCntHoldDrop : Nat := 0x24012c
@[inherit_doc R.trnCntHoldDrop] def F.trnCntHoldDrop_count : Fld := ⟨R.trnCntHoldDrop, 31, 0⟩
/-- trn.cnt_incarn_gone (R335). -/
def R.trnCntIncarnGone : Nat := 0x240130
@[inherit_doc R.trnCntIncarnGone] def F.trnCntIncarnGone_count : Fld := ⟨R.trnCntIncarnGone, 31, 0⟩
/-- hst.status (R380). -/
def R.hstStatus : Nat := 0x280000
@[inherit_doc R.hstStatus] def F.hstStatus_ltssm : Fld := ⟨R.hstStatus, 3, 0⟩
@[inherit_doc R.hstStatus] def F.hstStatus_speed : Fld := ⟨R.hstStatus, 6, 4⟩
@[inherit_doc R.hstStatus] def F.hstStatus_width : Fld := ⟨R.hstStatus, 10, 8⟩
@[inherit_doc R.hstStatus] def F.hstStatus_flit : Fld := ⟨R.hstStatus, 11, 11⟩
@[inherit_doc R.hstStatus] def F.hstStatus_dl_up : Fld := ⟨R.hstStatus, 12, 12⟩
@[inherit_doc R.hstStatus] def F.hstStatus_pf_dstate : Fld := ⟨R.hstStatus, 14, 13⟩
@[inherit_doc R.hstStatus] def F.hstStatus_vf_enable : Fld := ⟨R.hstStatus, 16, 16⟩
@[inherit_doc R.hstStatus] def F.hstStatus_ari : Fld := ⟨R.hstStatus, 17, 17⟩
@[inherit_doc R.hstStatus] def F.hstStatus_num_vfs : Fld := ⟨R.hstStatus, 29, 18⟩
/-- hst.cpl_limit (R380). -/
def R.hstCplLimit : Nat := 0x280004
@[inherit_doc R.hstCplLimit] def F.hstCplLimit_ms : Fld := ⟨R.hstCplLimit, 7, 0⟩
/-- hst.pf_vectors (R380). -/
def R.hstPfVectors : Nat := 0x280008
@[inherit_doc R.hstPfVectors] def F.hstPfVectors_count : Fld := ⟨R.hstPfVectors, 10, 0⟩
/-- hst.vec_pool (R380). -/
def R.hstVecPool : Nat := 0x28000c
@[inherit_doc R.hstVecPool] def F.hstVecPool_vf_assigned : Fld := ⟨R.hstVecPool, 15, 0⟩
@[inherit_doc R.hstVecPool] def F.hstVecPool_free : Fld := ⟨R.hstVecPool, 31, 16⟩
/-- hst.int_err (R380). -/
def R.hstIntErr : Nat := 0x280010
@[inherit_doc R.hstIntErr] def F.hstIntErr_source : Fld := ⟨R.hstIntErr, 8, 0⟩
@[inherit_doc R.hstIntErr] def F.hstIntErr_class : Fld := ⟨R.hstIntErr, 11, 9⟩
@[inherit_doc R.hstIntErr] def F.hstIntErr_valid : Fld := ⟨R.hstIntErr, 12, 12⟩
/-- hst.corr_thresh (R380). -/
def R.hstCorrThresh : Nat := 0x280014
@[inherit_doc R.hstCorrThresh] def F.hstCorrThresh_count : Fld := ⟨R.hstCorrThresh, 15, 0⟩
/-- hst.cnt_ur (R380). -/
def R.hstCntUr : Nat := 0x280100
@[inherit_doc R.hstCntUr] def F.hstCntUr_count : Fld := ⟨R.hstCntUr, 31, 0⟩
/-- hst.cnt_ca (R380). -/
def R.hstCntCa : Nat := 0x280104
@[inherit_doc R.hstCntCa] def F.hstCntCa_count : Fld := ⟨R.hstCntCa, 31, 0⟩
/-- hst.cnt_cpl_timeout (R380). -/
def R.hstCntCplTimeout : Nat := 0x280108
@[inherit_doc R.hstCntCplTimeout] def F.hstCntCplTimeout_count : Fld := ⟨R.hstCntCplTimeout, 31, 0⟩
/-- hst.cnt_unexp_cpl (R380). -/
def R.hstCntUnexpCpl : Nat := 0x28010c
@[inherit_doc R.hstCntUnexpCpl] def F.hstCntUnexpCpl_count : Fld := ⟨R.hstCntUnexpCpl, 31, 0⟩
/-- hst.cnt_poison_rx (R380). -/
def R.hstCntPoisonRx : Nat := 0x280110
@[inherit_doc R.hstCntPoisonRx] def F.hstCntPoisonRx_count : Fld := ⟨R.hstCntPoisonRx, 31, 0⟩
/-- hst.cnt_bme_denied (R380). -/
def R.hstCntBmeDenied : Nat := 0x280114
@[inherit_doc R.hstCntBmeDenied] def F.hstCntBmeDenied_count : Fld := ⟨R.hstCntBmeDenied, 31, 0⟩
/-- hst.cnt_late_fabric (R380). -/
def R.hstCntLateFabric : Nat := 0x280118
@[inherit_doc R.hstCntLateFabric] def F.hstCntLateFabric_count : Fld := ⟨R.hstCntLateFabric, 31, 0⟩
/-- hst.cnt_lost_posted (R380). -/
def R.hstCntLostPosted : Nat := 0x28011c
@[inherit_doc R.hstCntLostPosted] def F.hstCntLostPosted_count : Fld := ⟨R.hstCntLostPosted, 31, 0⟩
/-- win.stage[8] (R414). -/
def R.winStage (i : Nat) : Nat := 0x300000 + 8 * i
@[inherit_doc R.winStage] def F.winStage_bytes (i : Nat) : Fld := ⟨R.winStage i, 63, 0⟩
/-- win.cmd (R414). -/
def R.winCmd : Nat := 0x300040
@[inherit_doc R.winCmd] def F.winCmd_index : Fld := ⟨R.winCmd, 15, 0⟩
@[inherit_doc R.winCmd] def F.winCmd_op : Fld := ⟨R.winCmd, 17, 16⟩
/-- win.cmd_status (R414). -/
def R.winCmdStatus : Nat := 0x300044
@[inherit_doc R.winCmdStatus] def F.winCmdStatus_busy : Fld := ⟨R.winCmdStatus, 0, 0⟩
@[inherit_doc R.winCmdStatus] def F.winCmdStatus_result : Fld := ⟨R.winCmdStatus, 3, 1⟩
@[inherit_doc R.winCmdStatus] def F.winCmdStatus_index : Fld := ⟨R.winCmdStatus, 31, 16⟩
/-- win.wc_cfg (R414). -/
def R.winWcCfg : Nat := 0x300080
@[inherit_doc R.winWcCfg] def F.winWcCfg_timeout : Fld := ⟨R.winWcCfg, 7, 0⟩
/-- win.wc_status (R414). -/
def R.winWcStatus : Nat := 0x300084
@[inherit_doc R.winWcStatus] def F.winWcStatus_open : Fld := ⟨R.winWcStatus, 8, 0⟩
@[inherit_doc R.winWcStatus] def F.winWcStatus_sending : Fld := ⟨R.winWcStatus, 24, 16⟩
/-- win.lp_status[4] (R414). -/
def R.winLpStatus (i : Nat) : Nat := 0x300200 + 0x10 * i
@[inherit_doc R.winLpStatus] def F.winLpStatus_tags (i : Nat) : Fld := ⟨R.winLpStatus i, 12, 0⟩
@[inherit_doc R.winLpStatus] def F.winLpStatus_streams (i : Nat) : Fld := ⟨R.winLpStatus i, 26, 16⟩
/-- win.lp_adm[4] (R414). -/
def R.winLpAdm (i : Nat) : Nat := 0x300204 + 0x10 * i
@[inherit_doc R.winLpAdm] def F.winLpAdm_adm_streams (i : Nat) : Fld := ⟨R.winLpAdm i, 10, 0⟩
@[inherit_doc R.winLpAdm] def F.winLpAdm_parked (i : Nat) : Fld := ⟨R.winLpAdm i, 20, 16⟩
/-- win.lp_order[4] (R414). -/
def R.winLpOrder (i : Nat) : Nat := 0x300208 + 0x10 * i
@[inherit_doc R.winLpOrder] def F.winLpOrder_order_break (i : Nat) : Fld := ⟨R.winLpOrder i, 15, 0⟩
@[inherit_doc R.winLpOrder] def F.winLpOrder_bad_ctl (i : Nat) : Fld := ⟨R.winLpOrder i, 31, 16⟩
/-- win.lp_req[4] (R414). -/
def R.winLpReq (i : Nat) : Nat := 0x30020c + 0x10 * i
@[inherit_doc R.winLpReq] def F.winLpReq_bad_req (i : Nat) : Fld := ⟨R.winLpReq i, 15, 0⟩
/-- win.cnt_miss (R414). -/
def R.winCntMiss : Nat := 0x300100
@[inherit_doc R.winCntMiss] def F.winCntMiss_count : Fld := ⟨R.winCntMiss, 31, 0⟩
/-- win.cnt_miss_posted (R414). -/
def R.winCntMissPosted : Nat := 0x300104
@[inherit_doc R.winCntMissPosted] def F.winCntMissPosted_count : Fld := ⟨R.winCntMissPosted, 31, 0⟩
/-- win.cnt_perm (R414). -/
def R.winCntPerm : Nat := 0x300108
@[inherit_doc R.winCntPerm] def F.winCntPerm_count : Fld := ⟨R.winCntPerm, 31, 0⟩
/-- win.cnt_perm_posted (R414). -/
def R.winCntPermPosted : Nat := 0x30010c
@[inherit_doc R.winCntPermPosted] def F.winCntPermPosted_count : Fld := ⟨R.winCntPermPosted, 31, 0⟩
/-- win.cnt_in_denied (R414). -/
def R.winCntInDenied : Nat := 0x300110
@[inherit_doc R.winCntInDenied] def F.winCntInDenied_count : Fld := ⟨R.winCntInDenied, 31, 0⟩
/-- win.cnt_in_nolocal (R414). -/
def R.winCntInNolocal : Nat := 0x300114
@[inherit_doc R.winCntInNolocal] def F.winCntInNolocal_count : Fld := ⟨R.winCntInNolocal, 31, 0⟩
/-- win.cnt_wc_lines (R414). -/
def R.winCntWcLines : Nat := 0x300118
@[inherit_doc R.winCntWcLines] def F.winCntWcLines_count : Fld := ⟨R.winCntWcLines, 31, 0⟩
/-- win.cnt_wc_np_flush (R414). -/
def R.winCntWcNpFlush : Nat := 0x30011c
@[inherit_doc R.winCntWcNpFlush] def F.winCntWcNpFlush_count : Fld := ⟨R.winCntWcNpFlush, 31, 0⟩
/-- ins.stage[16] (R444). -/
def R.insStage (i : Nat) : Nat := 0x400000 + 8 * i
@[inherit_doc R.insStage] def F.insStage_bytes (i : Nat) : Fld := ⟨R.insStage i, 63, 0⟩
/-- ins.cmd (R444). -/
def R.insCmd : Nat := 0x400080
@[inherit_doc R.insCmd] def F.insCmd_index : Fld := ⟨R.insCmd, 11, 0⟩
@[inherit_doc R.insCmd] def F.insCmd_op : Fld := ⟨R.insCmd, 18, 16⟩
/-- ins.cmd_status (R444). -/
def R.insCmdStatus : Nat := 0x400084
@[inherit_doc R.insCmdStatus] def F.insCmdStatus_busy : Fld := ⟨R.insCmdStatus, 0, 0⟩
@[inherit_doc R.insCmdStatus] def F.insCmdStatus_result : Fld := ⟨R.insCmdStatus, 7, 4⟩
@[inherit_doc R.insCmdStatus] def F.insCmdStatus_index : Fld := ⟨R.insCmdStatus, 27, 16⟩
/-- ins.pool (R444). -/
def R.insPool : Nat := 0x400088
@[inherit_doc R.insPool] def F.insPool_active : Fld := ⟨R.insPool, 12, 0⟩
@[inherit_doc R.insPool] def F.insPool_windows : Fld := ⟨R.insPool, 30, 14⟩
/-- ins.mgr_cfg (R444). -/
def R.insMgrCfg : Nat := 0x400090
@[inherit_doc R.insMgrCfg] def F.insMgrCfg_vector : Fld := ⟨R.insMgrCfg, 10, 0⟩
@[inherit_doc R.insMgrCfg] def F.insMgrCfg_rearm : Fld := ⟨R.insMgrCfg, 16, 16⟩
/-- ins.cview (R444). -/
def R.insCview : Nat := 0x400094
@[inherit_doc R.insCview] def F.insCview_group : Fld := ⟨R.insCview, 7, 0⟩
/-- ins.ev_sum[64] (R444). -/
def R.insEvSum (i : Nat) : Nat := 0x400100 + 8 * i
@[inherit_doc R.insEvSum] def F.insEvSum_pending (i : Nat) : Fld := ⟨R.insEvSum i, 63, 0⟩
/-- ins.cnt_cmd_refused (R444). -/
def R.insCntCmdRefused : Nat := 0x400300
@[inherit_doc R.insCntCmdRefused] def F.insCntCmdRefused_count : Fld := ⟨R.insCntCmdRefused, 31, 0⟩
/-- ins.cnt_mbx_ovf (R444). -/
def R.insCntMbxOvf : Nat := 0x400304
@[inherit_doc R.insCntMbxOvf] def F.insCntMbxOvf_count : Fld := ⟨R.insCntMbxOvf, 31, 0⟩
/-- ins.cnt_msg_refused (R444). -/
def R.insCntMsgRefused : Nat := 0x400308
@[inherit_doc R.insCntMsgRefused] def F.insCntMsgRefused_count : Fld := ⟨R.insCntMsgRefused, 31, 0⟩
/-- ins.cnt_flr (R444). -/
def R.insCntFlr : Nat := 0x40030c
@[inherit_doc R.insCntFlr] def F.insCntFlr_count : Fld := ⟨R.insCntFlr, 31, 0⟩
/-- ins.inst[4096] (R444). -/
def R.insInst (i : Nat) : Nat := 0x500000 + 0x100 * i
@[inherit_doc R.insInst] def F.insInst_state (i : Nat) : Fld := ⟨R.insInst i, 7, 0⟩
/-- ins.life[4096] (R444). -/
def R.insLife (i : Nat) : Nat := 0x500004 + 0x100 * i
@[inherit_doc R.insLife] def F.insLife_life (i : Nat) : Fld := ⟨R.insLife i, 31, 0⟩
/-- ins.ev[4096] (R444). -/
def R.insEv (i : Nat) : Nat := 0x500008 + 0x100 * i
@[inherit_doc R.insEv] def F.insEv_obx (i : Nat) : Fld := ⟨R.insEv i, 0, 0⟩
@[inherit_doc R.insEv] def F.insEv_flr (i : Nat) : Fld := ⟨R.insEv i, 1, 1⟩
@[inherit_doc R.insEv] def F.insEv_stopped (i : Nat) : Fld := ⟨R.insEv i, 2, 2⟩
/-- ins.inbox_ring[4096] (R444). -/
def R.insInboxRing (i : Nat) : Nat := 0x500010 + 0x100 * i
@[inherit_doc R.insInboxRing] def F.insInboxRing_mask (i : Nat) : Fld := ⟨R.insInboxRing i, 7, 0⟩
/-- ins.inbox_status[4096] (R444). -/
def R.insInboxStatus (i : Nat) : Nat := 0x500014 + 0x100 * i
@[inherit_doc R.insInboxStatus] def F.insInboxStatus_full (i : Nat) : Fld := ⟨R.insInboxStatus i, 7, 0⟩
@[inherit_doc R.insInboxStatus] def F.insInboxStatus_ovf (i : Nat) : Fld := ⟨R.insInboxStatus i, 15, 8⟩
@[inherit_doc R.insInboxStatus] def F.insInboxStatus_err (i : Nat) : Fld := ⟨R.insInboxStatus i, 23, 16⟩
/-- ins.outbox_status[4096] (R444). -/
def R.insOutboxStatus (i : Nat) : Nat := 0x500018 + 0x100 * i
@[inherit_doc R.insOutboxStatus] def F.insOutboxStatus_full (i : Nat) : Fld := ⟨R.insOutboxStatus i, 7, 0⟩
@[inherit_doc R.insOutboxStatus] def F.insOutboxStatus_ovf (i : Nat) : Fld := ⟨R.insOutboxStatus i, 15, 8⟩
@[inherit_doc R.insOutboxStatus] def F.insOutboxStatus_err (i : Nat) : Fld := ⟨R.insOutboxStatus i, 23, 16⟩
/-- ins.msg_prod[4096] (R444). -/
def R.insMsgProd (i : Nat) : Nat := 0x500020 + 0x100 * i
@[inherit_doc R.insMsgProd] def F.insMsgProd_prod (i : Nat) : Fld := ⟨R.insMsgProd i, 31, 0⟩
/-- ins.msg_cons[4096] (R444). -/
def R.insMsgCons (i : Nat) : Nat := 0x500024 + 0x100 * i
@[inherit_doc R.insMsgCons] def F.insMsgCons_cons (i : Nat) : Fld := ⟨R.insMsgCons i, 31, 0⟩
/-- ins.msg_lost[4096] (R444). -/
def R.insMsgLost (i : Nat) : Nat := 0x500028 + 0x100 * i
@[inherit_doc R.insMsgLost] def F.insMsgLost_lost (i : Nat) : Fld := ⟨R.insMsgLost i, 31, 0⟩
/-- ins.bucket_limits[4096] (R477). -/
def R.insBucketLimits (i : Nat) : Nat := 0x600000 + 0x20 * i
@[inherit_doc R.insBucketLimits] def F.insBucketLimits_out_brate (i : Nat) : Fld := ⟨R.insBucketLimits i, 19, 0⟩
/-- ins.out_bburst[4096] (R477). -/
def R.insOutBburst (i : Nat) : Nat := 0x600004 + 0x20 * i
@[inherit_doc R.insOutBburst] def F.insOutBburst_burst (i : Nat) : Fld := ⟨R.insOutBburst i, 15, 0⟩
/-- ins.out_orate[4096] (R477). -/
def R.insOutOrate (i : Nat) : Nat := 0x600008 + 0x20 * i
@[inherit_doc R.insOutOrate] def F.insOutOrate_rate (i : Nat) : Fld := ⟨R.insOutOrate i, 19, 0⟩
/-- ins.out_oburst[4096] (R477). -/
def R.insOutOburst (i : Nat) : Nat := 0x60000c + 0x20 * i
@[inherit_doc R.insOutOburst] def F.insOutOburst_burst (i : Nat) : Fld := ⟨R.insOutOburst i, 15, 0⟩
/-- ins.in_brate[4096] (R477). -/
def R.insInBrate (i : Nat) : Nat := 0x600010 + 0x20 * i
@[inherit_doc R.insInBrate] def F.insInBrate_rate (i : Nat) : Fld := ⟨R.insInBrate i, 19, 0⟩
/-- ins.in_bburst[4096] (R477). -/
def R.insInBburst (i : Nat) : Nat := 0x600014 + 0x20 * i
@[inherit_doc R.insInBburst] def F.insInBburst_burst (i : Nat) : Fld := ⟨R.insInBburst i, 15, 0⟩
/-- ins.in_orate[4096] (R477). -/
def R.insInOrate (i : Nat) : Nat := 0x600018 + 0x20 * i
@[inherit_doc R.insInOrate] def F.insInOrate_rate (i : Nat) : Fld := ⟨R.insInOrate i, 19, 0⟩
/-- ins.in_oburst[4096] (R477). -/
def R.insInOburst (i : Nat) : Nat := 0x60001c + 0x20 * i
@[inherit_doc R.insInOburst] def F.insInOburst_burst (i : Nat) : Fld := ⟨R.insInOburst i, 15, 0⟩
/-- ins.bucket_level[16384] (R477). -/
def R.insBucketLevel (i : Nat) : Nat := 0x620000 + 4 * i
@[inherit_doc R.insBucketLevel] def F.insBucketLevel_level (i : Nat) : Fld := ⟨R.insBucketLevel i, 31, 0⟩
/-- ins.egress_cfg[13] (R477). -/
def R.insEgressCfg (i : Nat) : Nat := 0x640000 + 4 * i
@[inherit_doc R.insEgressCfg] def F.insEgressCfg_transit_weight (i : Nat) : Fld := ⟨R.insEgressCfg i, 7, 0⟩
/-- ins.spoof_np[5] (R477). -/
def R.insSpoofNp (i : Nat) : Nat := 0x640100 + 0x10 * i
@[inherit_doc R.insSpoofNp] def F.insSpoofNp_np (i : Nat) : Fld := ⟨R.insSpoofNp i, 31, 0⟩
/-- ins.spoof_posted[5] (R477). -/
def R.insSpoofPosted (i : Nat) : Nat := 0x640104 + 0x10 * i
@[inherit_doc R.insSpoofPosted] def F.insSpoofPosted_posted (i : Nat) : Fld := ⟨R.insSpoofPosted i, 31, 0⟩
/-- ins.spoof_last[5] (R477). -/
def R.insSpoofLast (i : Nat) : Nat := 0x640108 + 0x10 * i
@[inherit_doc R.insSpoofLast] def F.insSpoofLast_last_check (i : Nat) : Fld := ⟨R.insSpoofLast i, 3, 0⟩
@[inherit_doc R.insSpoofLast] def F.insSpoofLast_last_inst (i : Nat) : Fld := ⟨R.insSpoofLast i, 27, 16⟩
/-- ins.dl_stage[6] (R477). -/
def R.insDlStage (i : Nat) : Nat := 0x650000 + 8 * i
@[inherit_doc R.insDlStage] def F.insDlStage_bytes (i : Nat) : Fld := ⟨R.insDlStage i, 63, 0⟩
/-- ins.dl_cmd (R477). -/
def R.insDlCmd : Nat := 0x650040
@[inherit_doc R.insDlCmd] def F.insDlCmd_tracker : Fld := ⟨R.insDlCmd, 9, 0⟩
@[inherit_doc R.insDlCmd] def F.insDlCmd_op : Fld := ⟨R.insDlCmd, 17, 16⟩
/-- ins.dl_cmd_status (R477). -/
def R.insDlCmdStatus : Nat := 0x650044
@[inherit_doc R.insDlCmdStatus] def F.insDlCmdStatus_busy : Fld := ⟨R.insDlCmdStatus, 0, 0⟩
@[inherit_doc R.insDlCmdStatus] def F.insDlCmdStatus_result : Fld := ⟨R.insDlCmdStatus, 3, 1⟩
@[inherit_doc R.insDlCmdStatus] def F.insDlCmdStatus_tracker : Fld := ⟨R.insDlCmdStatus, 25, 16⟩
/-- ins.dl_status[1024] (R477). -/
def R.insDlStatus (i : Nat) : Nat := 0x660000 + 0x20 * i
@[inherit_doc R.insDlStatus] def F.insDlStatus_state (i : Nat) : Fld := ⟨R.insDlStatus i, 1, 0⟩
@[inherit_doc R.insDlStatus] def F.insDlStatus_half (i : Nat) : Fld := ⟨R.insDlStatus i, 2, 2⟩
/-- ins.dl_epoch[1024] (R477). -/
def R.insDlEpoch (i : Nat) : Nat := 0x660004 + 0x20 * i
@[inherit_doc R.insDlEpoch] def F.insDlEpoch_epoch (i : Nat) : Fld := ⟨R.insDlEpoch i, 31, 0⟩
/-- ins.dl_marked[1024] (R477). -/
def R.insDlMarked (i : Nat) : Nat := 0x660008 + 0x20 * i
@[inherit_doc R.insDlMarked] def F.insDlMarked_marked (i : Nat) : Fld := ⟨R.insDlMarked i, 31, 0⟩
/-- ins.dl_outside[1024] (R477). -/
def R.insDlOutside (i : Nat) : Nat := 0x66000c + 0x20 * i
@[inherit_doc R.insDlOutside] def F.insDlOutside_outside (i : Nat) : Fld := ⟨R.insDlOutside i, 31, 0⟩
/-- crl.lane_cfg[12][8] (R218). -/
def R.crlLaneCfg (i : Nat) (j : Nat) : Nat := 0x100040 + 0x10000 * i + 4 * j
@[inherit_doc R.crlLaneCfg] def F.crlLaneCfg_tx_preset (i : Nat) (j : Nat) : Fld := ⟨R.crlLaneCfg i j, 2, 0⟩
@[inherit_doc R.crlLaneCfg] def F.crlLaneCfg_disable (i : Nat) (j : Nat) : Fld := ⟨R.crlLaneCfg i j, 8, 8⟩
/-- crl.lane_status[12][8] (R218). -/
def R.crlLaneStatus (i : Nat) (j : Nat) : Nat := 0x100060 + 0x10000 * i + 4 * j
@[inherit_doc R.crlLaneStatus] def F.crlLaneStatus_synced (i : Nat) (j : Nat) : Fld := ⟨R.crlLaneStatus i j, 0, 0⟩
@[inherit_doc R.crlLaneStatus] def F.crlLaneStatus_locked (i : Nat) (j : Nat) : Fld := ⟨R.crlLaneStatus i j, 1, 1⟩
@[inherit_doc R.crlLaneStatus] def F.crlLaneStatus_inverted (i : Nat) (j : Nat) : Fld := ⟨R.crlLaneStatus i j, 2, 2⟩
@[inherit_doc R.crlLaneStatus] def F.crlLaneStatus_excluded (i : Nat) (j : Nat) : Fld := ⟨R.crlLaneStatus i j, 3, 3⟩
@[inherit_doc R.crlLaneStatus] def F.crlLaneStatus_logical (i : Nat) (j : Nat) : Fld := ⟨R.crlLaneStatus i j, 7, 4⟩
@[inherit_doc R.crlLaneStatus] def F.crlLaneStatus_pre (i : Nat) (j : Nat) : Fld := ⟨R.crlLaneStatus i j, 11, 8⟩
@[inherit_doc R.crlLaneStatus] def F.crlLaneStatus_post (i : Nat) (j : Nat) : Fld := ⟨R.crlLaneStatus i j, 20, 16⟩
/-- crl.corr_sym[12][8] (R218). -/
def R.crlCorrSym (i : Nat) (j : Nat) : Nat := 0x100100 + 0x10000 * i + 0x20 * j
@[inherit_doc R.crlCorrSym] def F.crlCorrSym_count (i : Nat) (j : Nat) : Fld := ⟨R.crlCorrSym i j, 31, 0⟩
/-- crl.corr_cw[12][8] (R218). -/
def R.crlCorrCw (i : Nat) (j : Nat) : Nat := 0x100104 + 0x10000 * i + 0x20 * j
@[inherit_doc R.crlCorrCw] def F.crlCorrCw_count (i : Nat) (j : Nat) : Fld := ⟨R.crlCorrCw i j, 31, 0⟩
/-- crl.uncorr_cw[12][8] (R218). -/
def R.crlUncorrCw (i : Nat) (j : Nat) : Nat := 0x100108 + 0x10000 * i + 0x20 * j
@[inherit_doc R.crlUncorrCw] def F.crlUncorrCw_count (i : Nat) (j : Nat) : Fld := ⟨R.crlUncorrCw i j, 31, 0⟩
/-- crl.hdr_err[12][8] (R218). -/
def R.crlHdrErr (i : Nat) (j : Nat) : Nat := 0x10010c + 0x10000 * i + 0x20 * j
@[inherit_doc R.crlHdrErr] def F.crlHdrErr_count (i : Nat) (j : Nat) : Fld := ⟨R.crlHdrErr i j, 31, 0⟩
/-- crl.lock_loss[12][8] (R218). -/
def R.crlLockLoss (i : Nat) (j : Nat) : Nat := 0x100110 + 0x10000 * i + 0x20 * j
@[inherit_doc R.crlLockLoss] def F.crlLockLoss_count (i : Nat) (j : Nat) : Fld := ⟨R.crlLockLoss i j, 31, 0⟩
/-- crl.tx_ded[12][8] (R259). -/
def R.crlTxDed (i : Nat) (j : Nat) : Nat := 0x101020 + 0x10000 * i + 4 * j
@[inherit_doc R.crlTxDed] def F.crlTxDed_ded (i : Nat) (j : Nat) : Fld := ⟨R.crlTxDed i j, 15, 0⟩
/-- crl.rx_occ[12][8] (R259). -/
def R.crlRxOcc (i : Nat) (j : Nat) : Nat := 0x101040 + 0x10000 * i + 4 * j
@[inherit_doc R.crlRxOcc] def F.crlRxOcc_ondie (i : Nat) (j : Nat) : Fld := ⟨R.crlRxOcc i j, 15, 0⟩
@[inherit_doc R.crlRxOcc] def F.crlRxOcc_landed (i : Nat) (j : Nat) : Fld := ⟨R.crlRxOcc i j, 31, 16⟩
/-- crl.cnt[12][14] (R259). -/
def R.crlCnt (i : Nat) (j : Nat) : Nat := 0x101100 + 0x10000 * i + 4 * j
@[inherit_doc R.crlCnt] def F.crlCnt_count (i : Nat) (j : Nat) : Fld := ⟨R.crlCnt i j, 31, 0⟩
/-- lic.psrc_cfg[16][32] (R516). -/
def R.licPsrcCfg (i : Nat) (j : Nat) : Nat := 0x84040 + 0x100 * i + 4 * j
@[inherit_doc R.licPsrcCfg] def F.licPsrcCfg_priority (i : Nat) (j : Nat) : Fld := ⟨R.licPsrcCfg i j, 3, 0⟩
@[inherit_doc R.licPsrcCfg] def F.licPsrcCfg_mode (i : Nat) (j : Nat) : Fld := ⟨R.licPsrcCfg i j, 4, 4⟩
/-- ins.inbox[4096][8] (R444). -/
def R.insInbox (i : Nat) (j : Nat) : Nat := 0x500040 + 0x100 * i + 8 * j
@[inherit_doc R.insInbox] def F.insInbox_data (i : Nat) (j : Nat) : Fld := ⟨R.insInbox i j, 63, 0⟩
/-- ins.outbox[4096][8] (R444). -/
def R.insOutbox (i : Nat) (j : Nat) : Nat := 0x500080 + 0x100 * i + 8 * j
@[inherit_doc R.insOutbox] def F.insOutbox_data (i : Nat) (j : Nat) : Fld := ⟨R.insOutbox i j, 63, 0⟩

end Sys2Proof.Machine
end

