-- ==== Sys2Proof/Machine/RegTable.lean ====
section
/-! DEFINITION. The Reference tables of control space as data: one row per register or register array, with its reset value and codes and the access of every field (R19, R20, R53). -/
namespace Sys2Proof.Machine

/-- The registers of block gen. -/
def regTableGen : List RegDef := [
  ⟨0, 0, 1, 0, 1, false, 0x74001d9f, ⟨true, false, false, false, false, false⟩, [⟨15, 0, .ro, .none, .any⟩, ⟨31, 16, .ro, .none, .any⟩]⟩,
  ⟨4, 0, 1, 0, 1, false, 0xfff4487, ⟨true, false, false, false, false, false⟩, [⟨3, 0, .ro, .none, .any⟩, ⟨7, 4, .ro, .none, .any⟩, ⟨11, 8, .ro, .none, .any⟩, ⟨15, 12, .ro, .none, .any⟩, ⟨27, 16, .ro, .none, .any⟩]⟩,
  ⟨8, 0, 1, 0, 1, false, 0x1000, ⟨true, false, false, false, false, false⟩, [⟨7, 0, .ro, .none, .any⟩, ⟨15, 8, .ro, .none, .any⟩]⟩,
  ⟨0x10, 0, 1, 0, 1, true, 0, ⟨true, false, false, false, false, false⟩, [⟨63, 0, .ro, .none, .any⟩]⟩,
  ⟨0x100, 0, 1, 0, 1, false, 0, ⟨false, false, false, false, false, true⟩, [⟨23, 0, .sf, .none, .any⟩]⟩,
  ⟨0x104, 0, 1, 0, 1, false, 0, ⟨true, false, false, false, false, false⟩, [⟨23, 0, .ro, .none, .any⟩, ⟨24, 24, .ro, .none, .any⟩]⟩,
  ⟨0x108, 0, 1, 0, 1, false, 0, ⟨false, false, false, false, false, true⟩, [⟨23, 0, .sf, .none, .any⟩, ⟨24, 24, .sf, .none, .any⟩]⟩,
  ⟨0x110, 0, 1, 0, 1, false, 0, ⟨false, false, false, false, false, true⟩, [⟨31, 0, .sf, .none, .any⟩]⟩,
  ⟨0x114, 0, 1, 0, 1, false, 0, ⟨false, false, false, false, false, true⟩, [⟨31, 0, .sf, .none, .any⟩]⟩,
  ⟨0x118, 0, 1, 0, 1, false, 0, ⟨true, false, false, false, false, false⟩, [⟨31, 0, .ro, .none, .any⟩]⟩,
  ⟨0x11c, 0, 1, 0, 1, false, 0, ⟨true, false, false, false, false, false⟩, [⟨31, 0, .ro, .none, .any⟩]⟩,
  ⟨0x120, 0, 1, 0, 1, false, 0, ⟨false, false, false, false, false, true⟩, [⟨15, 0, .sf, .none, .any⟩, ⟨31, 16, .sf, .none, .any⟩]⟩,
  ⟨0x124, 0, 1, 0, 1, false, 0, ⟨true, false, false, false, false, false⟩, [⟨15, 0, .ro, .none, .any⟩, ⟨16, 16, .ro, .none, .any⟩]⟩,
  ⟨0x128, 0, 1, 0, 1, false, 0, ⟨true, false, false, false, false, false⟩, [⟨15, 0, .ro, .none, .any⟩]⟩,
  ⟨0x12c, 0, 1, 0, 1, false, 0, ⟨false, false, false, false, false, true⟩, [⟨9, 0, .sf, .none, .any⟩]⟩,
  ⟨0x130, 0, 1, 0, 1, false, 0, ⟨false, false, false, false, false, true⟩, [⟨5, 0, .sf, .none, .any⟩, ⟨11, 6, .sf, .none, .any⟩, ⟨12, 12, .sf, .none, .any⟩, ⟨14, 13, .sf, .none, .any⟩, ⟨15, 15, .sf, .none, .any⟩, ⟨19, 16, .sf, .none, .any⟩, ⟨20, 20, .sf, .none, .any⟩, ⟨21, 21, .sf, .none, .any⟩, ⟨22, 22, .sf, .none, .any⟩, ⟨23, 23, .sf, .none, .any⟩, ⟨24, 24, .sf, .none, .any⟩, ⟨25, 25, .sf, .none, .any⟩]⟩,
  ⟨0x134, 0, 1, 0, 1, false, 0, ⟨false, false, false, false, false, true⟩, [⟨2, 0, .sf, .none, .any⟩, ⟨6, 4, .sf, .none, .any⟩, ⟨8, 8, .sf, .none, .any⟩, ⟨27, 16, .sf, .none, .any⟩]⟩,
  ⟨0x138, 0, 1, 0, 1, false, 0, ⟨false, false, false, false, false, true⟩, [⟨23, 0, .sf, .none, .any⟩, ⟨29, 24, .sf, .none, .any⟩]⟩,
  ⟨0x13c, 0, 1, 0, 1, false, 0, ⟨false, false, false, false, false, true⟩, [⟨31, 0, .sf, .none, .any⟩]⟩,
  ⟨0x140, 4, 16, 0, 1, false, 0, ⟨true, false, false, false, false, false⟩, [⟨15, 0, .ro, .none, .any⟩, ⟨19, 16, .ro, .none, .any⟩, ⟨20, 20, .ro, .none, .any⟩]⟩,
  ⟨0x200, 4, 8, 0, 1, false, 0, ⟨true, false, false, false, false, false⟩, [⟨11, 0, .ro, .none, .any⟩, ⟨16, 16, .ro, .none, .any⟩, ⟨17, 17, .ro, .none, .any⟩]⟩,
  ⟨0x220, 0, 1, 0, 1, false, 0, ⟨true, false, false, false, false, false⟩, [⟨11, 0, .ro, .none, .any⟩]⟩,
  ⟨0x240, 4, 8, 0, 1, false, 0, ⟨true, false, false, false, false, false⟩, [⟨12, 0, .ro, .none, .any⟩, ⟨16, 16, .ro, .none, .any⟩]⟩]

/-- The registers of block pit. -/
def regTablePit : List RegDef := [
  ⟨0x10000, 0, 1, 0, 1, false, 0, ⟨true, false, false, false, false, false⟩, [⟨3, 0, .ro, .none, .any⟩, ⟨4, 4, .ro, .none, .any⟩, ⟨6, 5, .ro, .none, .any⟩, ⟨7, 7, .ro, .none, .any⟩, ⟨11, 8, .ro, .none, .any⟩, ⟨12, 12, .ro, .none, .any⟩, ⟨13, 13, .ro, .none, .any⟩, ⟨14, 14, .ro, .none, .any⟩, ⟨15, 15, .ro, .none, .any⟩, ⟨16, 16, .ro, .none, .any⟩, ⟨18, 17, .ro, .none, .any⟩, ⟨19, 19, .ro, .none, .any⟩]⟩,
  ⟨0x10004, 0, 1, 0, 1, false, 0, ⟨true, false, false, false, false, false⟩, [⟨31, 0, .ro, .none, .any⟩]⟩,
  ⟨0x10008, 0, 1, 0, 1, true, 0, ⟨true, false, false, false, false, false⟩, [⟨63, 0, .ro, .none, .any⟩]⟩,
  ⟨0x10010, 8, 13, 0, 1, true, 0, ⟨true, false, false, false, false, false⟩, [⟨63, 0, .ro, .none, .any⟩]⟩,
  ⟨0x10080, 0, 1, 0, 1, false, 0, ⟨true, false, false, false, false, false⟩, [⟨15, 0, .ro, .none, .any⟩, ⟨31, 16, .ro, .none, .any⟩]⟩,
  ⟨0x10084, 0, 1, 0, 1, false, 0, ⟨true, false, false, false, false, false⟩, [⟨15, 0, .ro, .none, .any⟩]⟩,
  ⟨0x10090, 0, 1, 0, 1, false, 0, ⟨false, false, false, false, false, false⟩, [⟨7, 0, .wo, .none, .any⟩]⟩,
  ⟨0x10094, 0, 1, 0, 1, false, 0, ⟨true, false, false, false, false, false⟩, [⟨0, 0, .ro, .none, .any⟩, ⟨15, 8, .ro, .none, .any⟩, ⟨18, 16, .ro, .none, .any⟩]⟩,
  ⟨0x10100, 0, 1, 0, 1, false, 0, ⟨false, false, false, false, false, false⟩, [⟨5, 0, .wo, .none, .any⟩, ⟨9, 8, .wo, .none, .any⟩]⟩,
  ⟨0x10104, 0, 1, 0, 1, false, 0, ⟨true, false, false, false, false, false⟩, [⟨0, 0, .ro, .none, .any⟩, ⟨3, 1, .ro, .none, .any⟩, ⟨7, 4, .ro, .none, .any⟩, ⟨13, 8, .ro, .none, .any⟩]⟩,
  ⟨0x10110, 0, 1, 0, 1, true, 0, ⟨true, false, false, false, false, false⟩, [⟨63, 0, .ro, .none, .any⟩]⟩,
  ⟨0x10118, 0, 1, 0, 1, true, 0, ⟨true, false, false, false, false, false⟩, [⟨63, 0, .ro, .none, .any⟩]⟩,
  ⟨0x10120, 0, 1, 0, 1, true, 0, ⟨true, false, false, false, false, false⟩, [⟨63, 0, .ro, .none, .any⟩]⟩,
  ⟨0x10128, 0, 1, 0, 1, true, 0x3fe3fbfc00000000, ⟨true, false, false, false, false, false⟩, [⟨41, 34, .rw, .none, .any⟩, ⟨49, 43, .rw, .none, .any⟩, ⟨61, 53, .rw, .none, .any⟩]⟩,
  ⟨0x10130, 0, 1, 0, 1, false, 0x10, ⟨true, false, false, false, false, false⟩, [⟨7, 0, .rw, .none, .range 1 255⟩]⟩,
  ⟨0x10200, 4, 64, 0, 1, false, 0, ⟨true, false, false, false, false, false⟩, [⟨31, 0, .ro, .none, .any⟩]⟩,
  ⟨0x10300, 4, 64, 0, 1, false, 0, ⟨true, false, false, false, false, false⟩, [⟨31, 0, .ro, .none, .any⟩]⟩,
  ⟨0x10400, 0, 1, 0, 1, false, 0, ⟨true, false, false, false, false, false⟩, [⟨1, 0, .ro, .none, .any⟩, ⟨2, 2, .ro, .none, .any⟩, ⟨3, 3, .ro, .none, .any⟩, ⟨4, 4, .ro, .none, .any⟩]⟩,
  ⟨0x10404, 0, 1, 0, 1, false, 0, ⟨true, false, false, false, false, false⟩, [⟨31, 0, .ro, .none, .any⟩]⟩,
  ⟨0x10408, 0, 1, 0, 1, true, 0, ⟨true, false, false, false, false, false⟩, [⟨63, 0, .ro, .none, .any⟩]⟩,
  ⟨0x10410, 0, 1, 0, 1, true, 0, ⟨false, true, false, false, false, false⟩, [⟨63, 0, .wo, .none, .any⟩]⟩,
  ⟨0x10418, 0, 1, 0, 1, true, 0, ⟨false, false, false, false, false, false⟩, [⟨63, 0, .wo, .none, .any⟩]⟩,
  ⟨0x10420, 0, 1, 0, 1, false, 0, ⟨false, false, false, false, false, false⟩, [⟨0, 0, .wo, .none, .any⟩]⟩,
  ⟨0x10424, 0, 1, 0, 1, false, 0, ⟨true, true, false, false, false, false⟩, [⟨2, 0, .ro, .none, .any⟩, ⟨3, 3, .ro, .none, .any⟩, ⟨4, 4, .ro, .none, .any⟩, ⟨11, 8, .ro, .none, .any⟩, ⟨28, 16, .ro, .none, .any⟩]⟩,
  ⟨0x10500, 0, 1, 0, 1, false, 0x640a14, ⟨false, true, false, false, false, false⟩, [⟨7, 0, .rw, .none, .range 4 255⟩, ⟨15, 8, .rw, .none, .range 1 255⟩, ⟨31, 16, .rw, .none, .range 10 10000⟩]⟩,
  ⟨0x10504, 0, 1, 0, 1, false, 0, ⟨false, true, false, false, false, false⟩, [⟨11, 0, .rw, .none, .any⟩, ⟨12, 12, .rw, .none, .any⟩]⟩,
  ⟨0x10508, 0, 1, 0, 1, false, 0, ⟨true, true, false, false, false, false⟩, [⟨2, 0, .ro, .none, .any⟩, ⟨3, 3, .ro, .none, .any⟩, ⟨4, 4, .ro, .none, .any⟩, ⟨5, 5, .ro, .none, .any⟩]⟩,
  ⟨0x10510, 0, 1, 0, 1, true, 0, ⟨false, true, false, false, false, false⟩, [⟨63, 0, .ro, .none, .any⟩]⟩,
  ⟨0x10518, 0, 1, 0, 1, true, 0, ⟨false, true, false, false, false, false⟩, [⟨63, 0, .ro, .none, .any⟩]⟩,
  ⟨0x10520, 0, 1, 0, 1, true, 0, ⟨false, true, false, false, false, false⟩, [⟨63, 0, .ro, .none, .any⟩]⟩,
  ⟨0x10528, 0, 1, 0, 1, false, 0, ⟨false, false, false, false, false, false⟩, [⟨1, 0, .wo, .none, .any⟩]⟩,
  ⟨0x1052c, 0, 1, 0, 1, false, 0, ⟨true, false, false, false, false, false⟩, [⟨0, 0, .ro, .none, .any⟩, ⟨3, 1, .ro, .none, .any⟩]⟩,
  ⟨0x10530, 0, 1, 0, 1, false, 0, ⟨true, false, false, false, false, false⟩, [⟨31, 0, .ro, .none, .any⟩]⟩,
  ⟨0x10540, 0, 1, 0, 1, true, 0, ⟨false, true, false, false, false, false⟩, [⟨63, 0, .ro, .none, .any⟩]⟩,
  ⟨0x10548, 0, 1, 0, 1, true, 0, ⟨false, true, false, false, false, false⟩, [⟨63, 0, .ro, .none, .any⟩]⟩,
  ⟨0x10550, 0, 1, 0, 1, true, 0, ⟨true, false, false, false, false, false⟩, [⟨63, 0, .rw, .none, .any⟩]⟩,
  ⟨0x10558, 0, 1, 0, 1, false, 0, ⟨true, false, false, false, false, false⟩, [⟨1, 0, .ro, .none, .any⟩]⟩,
  ⟨0x10580, 8, 8, 0, 1, true, 0, ⟨true, false, false, false, false, false⟩, [⟨63, 0, .ro, .none, .any⟩]⟩,
  ⟨0x10600, 0, 1, 0, 1, false, 0, ⟨true, false, false, false, false, false⟩, [⟨31, 0, .ro, .none, .any⟩]⟩,
  ⟨0x10604, 0, 1, 0, 1, false, 0, ⟨true, false, false, false, false, false⟩, [⟨31, 0, .ro, .none, .any⟩]⟩,
  ⟨0x10608, 0, 1, 0, 1, false, 0, ⟨true, false, false, false, false, false⟩, [⟨31, 0, .ro, .none, .any⟩]⟩,
  ⟨0x1060c, 0, 1, 0, 1, false, 0, ⟨true, false, false, false, false, false⟩, [⟨31, 0, .ro, .none, .any⟩]⟩,
  ⟨0x10610, 0, 1, 0, 1, false, 0, ⟨true, false, false, false, false, false⟩, [⟨31, 0, .ro, .none, .any⟩]⟩]

/-- The registers of block emb. -/
def regTableEmb : List RegDef := [
  ⟨0x20000, 0, 1, 0, 1, false, 0, ⟨false, false, false, false, true, false⟩, [⟨15, 0, .ro, .none, .any⟩, ⟨31, 16, .ro, .none, .any⟩]⟩,
  ⟨0x20004, 0, 1, 0, 1, false, 0, ⟨false, false, false, false, true, false⟩, [⟨31, 0, .ro, .none, .any⟩]⟩,
  ⟨0x20008, 0, 1, 0, 1, true, 0, ⟨false, false, false, false, true, false⟩, [⟨47, 0, .rw, .none, .any⟩]⟩,
  ⟨0x20010, 0, 1, 0, 1, false, 0, ⟨false, false, false, false, true, false⟩, [⟨15, 0, .ro, .none, .any⟩]⟩,
  ⟨0x20014, 0, 1, 0, 1, false, 0x6000000, ⟨false, false, false, false, true, false⟩, [⟨5, 0, .rw, .none, .range 0 59⟩, ⟨13, 8, .rw, .none, .range 0 59⟩, ⟨20, 16, .rw, .none, .range 0 23⟩, ⟨26, 24, .rw, .none, .range 1 7⟩]⟩,
  ⟨0x20018, 0, 1, 0, 1, false, 0x101, ⟨false, false, false, false, true, false⟩, [⟨4, 0, .rw, .none, .range 1 31⟩, ⟨11, 8, .rw, .none, .range 1 12⟩, ⟨23, 16, .rw, .none, .range 0 199⟩]⟩,
  ⟨0x2001c, 0, 1, 0, 1, false, 0, ⟨true, false, false, false, true, true⟩, [⟨0, 0, .ro, .none, .any⟩, ⟨1, 1, .ro, .none, .any⟩, ⟨2, 2, .ro, .none, .any⟩, ⟨3, 3, .ro, .none, .any⟩]⟩,
  ⟨0x20040, 0, 1, 0, 1, false, 0, ⟨false, false, false, false, true, true⟩, [⟨0, 0, .rw, .none, .any⟩, ⟨1, 1, .rw, .none, .any⟩, ⟨2, 2, .sf, .none, .any⟩]⟩,
  ⟨0x20044, 0, 1, 0, 1, false, 0, ⟨true, false, false, false, true, false⟩, [⟨1, 0, .wo, .none, .range 0 2⟩, ⟨8, 8, .ro, .none, .any⟩, ⟨9, 9, .ro, .none, .any⟩]⟩,
  ⟨0x20048, 0, 1, 0, 1, false, 0, ⟨false, false, false, false, true, false⟩, [⟨9, 0, .rw, .none, .trim⟩]⟩,
  ⟨0x2004c, 0, 1, 0, 1, false, 0, ⟨true, false, false, false, false, false⟩, [⟨15, 0, .ro, .none, .any⟩, ⟨16, 16, .ro, .none, .any⟩]⟩,
  ⟨0x20050, 0, 1, 0, 1, false, 1, ⟨true, false, false, false, true, false⟩, [⟨0, 0, .w1c, .none, .any⟩, ⟨1, 1, .w1c, .none, .any⟩, ⟨2, 2, .ro, .none, .any⟩, ⟨3, 3, .ro, .none, .any⟩, ⟨4, 4, .w1c, .none, .any⟩, ⟨5, 5, .w1c, .none, .any⟩, ⟨6, 6, .ro, .none, .any⟩, ⟨7, 7, .ro, .none, .any⟩, ⟨8, 8, .ro, .none, .any⟩]⟩,
  ⟨0x20058, 0, 1, 0, 1, true, 0, ⟨true, false, false, false, true, false⟩, [⟨63, 0, .ro, .none, .any⟩]⟩,
  ⟨0x20060, 0, 1, 0, 1, true, 0, ⟨true, false, false, false, true, false⟩, [⟨63, 0, .ro, .none, .any⟩]⟩,
  ⟨0x20068, 0, 1, 0, 1, false, 0, ⟨true, false, false, false, true, false⟩, [⟨15, 0, .ro, .none, .any⟩]⟩,
  ⟨0x20070, 0, 1, 0, 1, false, 0, ⟨false, false, false, false, true, false⟩, [⟨2, 0, .rw, .none, .range 0 5⟩, ⟨3, 3, .rw, .none, .any⟩, ⟨27, 16, .rw, .none, .any⟩]⟩,
  ⟨0x20074, 0, 1, 0, 1, false, 0, ⟨true, false, false, false, false, false⟩, [⟨7, 0, .ro, .none, .any⟩]⟩,
  ⟨0x20078, 0, 1, 0, 1, false, 0, ⟨false, false, false, false, true, true⟩, [⟨0, 0, .sf, .none, .any⟩, ⟨1, 1, .ro, .none, .any⟩, ⟨15, 8, .ro, .none, .any⟩]⟩,
  ⟨0x20100, 4, 12, 0, 1, false, 0, ⟨false, false, false, false, true, false⟩, [⟨31, 0, .rw, .none, .any⟩]⟩,
  ⟨0x20130, 4, 4, 0, 1, false, 0, ⟨false, false, false, false, true, false⟩, [⟨31, 0, .ro, .none, .any⟩]⟩]

/-- The registers of block clg. -/
def regTableClg : List RegDef := [
  ⟨0x30000, 0, 1, 0, 1, false, 0, ⟨true, false, false, false, false, true⟩, [⟨0, 0, .ro, .none, .any⟩, ⟨1, 1, .ro, .none, .any⟩, ⟨2, 2, .ro, .none, .any⟩, ⟨3, 3, .ro, .none, .any⟩, ⟨4, 4, .ro, .none, .any⟩, ⟨5, 5, .w1c, .none, .any⟩, ⟨6, 6, .ro, .none, .any⟩, ⟨11, 8, .ro, .none, .any⟩]⟩,
  ⟨0x30008, 0, 1, 0, 1, true, 0, ⟨false, true, false, false, false, false⟩, [⟨63, 0, .ro, .none, .any⟩]⟩,
  ⟨0x30010, 0, 1, 0, 1, true, 0, ⟨false, true, false, false, false, false⟩, [⟨63, 0, .ro, .none, .any⟩]⟩,
  ⟨0x30018, 0, 1, 0, 1, true, 0, ⟨false, true, false, false, false, false⟩, [⟨63, 0, .ro, .none, .any⟩]⟩,
  ⟨0x30020, 0, 1, 0, 1, true, 0, ⟨false, false, false, false, false, false⟩, [⟨63, 0, .wo, .none, .any⟩]⟩,
  ⟨0x30028, 0, 1, 0, 1, false, 0, ⟨false, false, false, false, false, true⟩, [⟨24, 0, .ro, .none, .any⟩]⟩,
  ⟨0x30030, 0, 1, 0, 1, false, 0, ⟨true, false, false, false, false, false⟩, [⟨24, 0, .rw, .none, .logLevel⟩, ⟨31, 31, .rw, .none, .any⟩]⟩,
  ⟨0x30034, 0, 1, 0, 1, false, 0, ⟨true, false, false, false, false, false⟩, [⟨10, 0, .rw, .none, .pvec⟩]⟩,
  ⟨0x30040, 0, 1, 0, 1, true, 0, ⟨true, false, false, false, false, false⟩, [⟨63, 0, .rw, .none, .any⟩]⟩,
  ⟨0x30048, 0, 1, 0, 1, false, 0, ⟨true, false, false, false, false, false⟩, [⟨1, 0, .ro, .none, .any⟩, ⟨2, 2, .ro, .none, .any⟩]⟩,
  ⟨0x30080, 8, 8, 0, 1, true, 0, ⟨true, false, false, false, false, false⟩, [⟨63, 0, .ro, .none, .any⟩]⟩,
  ⟨0x30100, 0, 1, 0, 1, false, 0, ⟨true, false, false, false, false, false⟩, [⟨31, 0, .ro, .none, .any⟩]⟩,
  ⟨0x30104, 0, 1, 0, 1, false, 0, ⟨true, false, false, false, false, false⟩, [⟨31, 0, .ro, .none, .any⟩]⟩,
  ⟨0x30108, 0, 1, 0, 1, false, 0, ⟨true, false, false, false, false, false⟩, [⟨31, 0, .ro, .none, .any⟩]⟩,
  ⟨0x3010c, 0, 1, 0, 1, false, 0, ⟨true, false, false, false, false, false⟩, [⟨31, 0, .ro, .none, .any⟩]⟩,
  ⟨0x30110, 0, 1, 0, 1, false, 0, ⟨true, false, false, false, false, false⟩, [⟨31, 0, .ro, .none, .any⟩]⟩,
  ⟨0x30200, 0, 1, 0, 1, false, 0x600, ⟨true, false, true, false, false, false⟩, [⟨0, 0, .rw, .none, .any⟩, ⟨1, 1, .rw, .none, .any⟩, ⟨12, 8, .rw, .none, .range 6 20⟩]⟩,
  ⟨0x30208, 0, 1, 0, 1, true, 0, ⟨true, false, true, false, false, false⟩, [⟨63, 12, .rw, .none, .any⟩]⟩,
  ⟨0x30210, 0, 1, 0, 1, true, 0, ⟨true, false, true, false, false, false⟩, [⟨63, 3, .rw, .none, .any⟩]⟩,
  ⟨0x30218, 0, 1, 0, 1, true, 0, ⟨true, false, true, false, false, false⟩, [⟨63, 0, .rw, .none, .any⟩]⟩,
  ⟨0x30220, 0, 1, 0, 1, true, 0, ⟨true, false, true, false, false, false⟩, [⟨63, 0, .ro, .none, .any⟩]⟩]

/-- The registers of block fwt. -/
def regTableFwt : List RegDef := [
  ⟨0x40000, 0, 1, 0, 1, false, 0, ⟨true, false, false, false, false, true⟩, [⟨0, 0, .ro, .none, .any⟩, ⟨3, 1, .ro, .none, .any⟩, ⟨4, 4, .ro, .none, .any⟩, ⟨5, 5, .ro, .none, .any⟩, ⟨6, 6, .ro, .none, .any⟩, ⟨11, 8, .ro, .none, .any⟩, ⟨12, 12, .ro, .none, .any⟩]⟩,
  ⟨0x40004, 0, 1, 0, 1, false, 0, ⟨true, false, false, false, false, false⟩, [⟨15, 0, .ro, .none, .any⟩, ⟨31, 16, .ro, .none, .any⟩]⟩,
  ⟨0x40008, 0, 1, 0, 1, false, 0, ⟨true, false, false, false, false, false⟩, [⟨8, 0, .ro, .none, .any⟩, ⟨24, 16, .ro, .none, .any⟩]⟩,
  ⟨0x4000c, 0, 1, 0, 1, false, 0xffffffff, ⟨true, false, false, false, false, false⟩, [⟨31, 0, .ro, .none, .any⟩]⟩,
  ⟨0x40010, 0, 1, 0, 1, false, 0, ⟨false, false, false, false, false, false⟩, [⟨15, 0, .wo, .none, .any⟩, ⟨31, 16, .wo, .none, .any⟩]⟩,
  ⟨0x40014, 0, 1, 0, 1, false, 0, ⟨true, false, false, false, false, false⟩, [⟨2, 0, .ro, .none, .any⟩]⟩,
  ⟨0x40018, 0, 1, 0, 1, false, 0, ⟨true, false, false, false, false, false⟩, [⟨0, 0, .ro, .none, .any⟩, ⟨31, 16, .ro, .none, .any⟩]⟩,
  ⟨0x40020, 4, 4, 0, 1, false, 0, ⟨true, false, false, false, false, false⟩, [⟨31, 0, .wm, .timer, .range 1 4294967295⟩]⟩,
  ⟨0x40030, 0, 1, 0, 1, false, 0, ⟨true, false, false, false, false, false⟩, [⟨10, 0, .rw, .none, .pvec⟩]⟩,
  ⟨0x40034, 0, 1, 0, 1, false, 0, ⟨true, false, false, false, false, false⟩, [⟨31, 0, .ro, .none, .any⟩]⟩,
  ⟨0x40038, 0, 1, 0, 1, false, 0, ⟨true, false, false, false, false, false⟩, [⟨31, 0, .ro, .none, .any⟩]⟩,
  ⟨0x40040, 0, 1, 0, 1, false, 0x1f4, ⟨true, false, false, false, false, false⟩, [⟨15, 0, .wm, .threshold, .any⟩]⟩,
  ⟨0x40100, 0, 1, 0, 1, false, 0, ⟨true, false, false, false, false, false⟩, [⟨3, 0, .ro, .none, .any⟩, ⟨8, 4, .ro, .none, .any⟩]⟩,
  ⟨0x40200, 8, 64, 0, 1, true, 0, ⟨true, false, false, false, false, false⟩, [⟨63, 0, .ro, .none, .any⟩]⟩,
  ⟨0x40400, 4, 16, 0, 1, false, 0, ⟨true, false, false, false, false, false⟩, [⟨31, 0, .set, .none, .any⟩]⟩,
  ⟨0x40440, 4, 16, 0, 1, false, 0, ⟨true, false, false, false, false, false⟩, [⟨31, 0, .clr, .none, .any⟩]⟩,
  ⟨0x40480, 4, 16, 0, 1, false, 0, ⟨true, false, false, false, false, false⟩, [⟨31, 0, .ro, .none, .any⟩]⟩,
  ⟨0x404c0, 4, 16, 0, 1, false, 0, ⟨true, false, false, false, false, false⟩, [⟨31, 0, .ro, .none, .any⟩]⟩,
  ⟨0x40500, 4, 16, 0, 1, false, 0, ⟨true, false, false, false, false, false⟩, [⟨31, 0, .w1c, .none, .any⟩]⟩,
  ⟨0x40600, 4, 16, 0, 1, false, 0, ⟨true, false, false, false, false, false⟩, [⟨15, 0, .ro, .none, .any⟩, ⟨16, 16, .ro, .none, .any⟩]⟩,
  ⟨0x41000, 4, 512, 0, 1, false, 0, ⟨true, false, false, false, false, false⟩, [⟨5, 0, .wm, .set, .any⟩, ⟨10, 8, .wm, .cls, .range 0 5⟩]⟩,
  ⟨0x42000, 4, 512, 0, 1, false, 0, ⟨true, false, false, false, false, false⟩, [⟨2, 0, .ro, .none, .any⟩, ⟨15, 8, .ro, .none, .any⟩, ⟨16, 16, .ro, .none, .any⟩, ⟨17, 17, .ro, .none, .any⟩]⟩,
  ⟨0x43000, 4, 512, 0, 1, false, 0, ⟨true, false, false, false, false, false⟩, [⟨15, 0, .ro, .none, .any⟩]⟩]

/-- The registers of block lic. -/
def regTableLic : List RegDef := [
  ⟨0x80010, 0, 1, 0, 1, false, 0, ⟨false, false, false, false, false, false⟩, [⟨4, 0, .wo, .none, .any⟩, ⟨31, 16, .wo, .none, .any⟩]⟩,
  ⟨0x80020, 0, 1, 0, 1, false, 1, ⟨true, false, false, false, false, false⟩, [⟨15, 0, .wm, .set, .any⟩]⟩,
  ⟨0x80030, 0, 1, 0, 1, false, 0x1001, ⟨true, false, false, true, false, false⟩, [⟨0, 0, .rw, .none, .any⟩, ⟨15, 8, .rw, .none, .range 1 255⟩]⟩,
  ⟨0x80100, 4, 16, 0, 1, false, 0, ⟨true, false, false, true, false, false⟩, [⟨1, 0, .rw, .none, .any⟩, ⟨4, 4, .rw, .none, .any⟩]⟩,
  ⟨0x80200, 4, 16, 0, 1, false, 0x10, ⟨true, false, false, true, false, false⟩, [⟨4, 0, .rw, .none, .range 0 16⟩]⟩,
  ⟨0x80300, 4, 16, 0, 1, false, 0x3ff0010, ⟨true, false, false, true, false, false⟩, [⟨4, 0, .ro, .none, .any⟩, ⟨5, 5, .ro, .none, .any⟩, ⟨25, 16, .ro, .none, .any⟩]⟩,
  ⟨0x80400, 8, 16, 0, 1, false, 0x3ff, ⟨true, false, false, true, false, false⟩, [⟨9, 0, .ro, .none, .any⟩, ⟨19, 16, .ro, .none, .any⟩]⟩,
  ⟨0x80600, 8, 16, 0, 1, false, 0, ⟨true, false, false, true, false, false⟩, [⟨9, 0, .wo, .none, .any⟩]⟩,
  ⟨0x80800, 8, 16, 0, 1, true, 0, ⟨true, false, false, true, false, false⟩, [⟨63, 14, .rw, .none, .any⟩]⟩,
  ⟨0x81004, 4, 24, 0, 1, false, 0xffffffff, ⟨true, false, false, true, false, false⟩, [⟨31, 0, .set, .none, .any⟩]⟩,
  ⟨0x81084, 4, 24, 0, 1, false, 0xffffffff, ⟨true, false, false, true, false, false⟩, [⟨31, 0, .clr, .none, .any⟩]⟩,
  ⟨0x81104, 4, 24, 0, 1, false, 0, ⟨true, false, false, true, false, false⟩, [⟨31, 0, .set, .none, .any⟩]⟩,
  ⟨0x81184, 4, 24, 0, 1, false, 0, ⟨true, false, false, true, false, false⟩, [⟨31, 0, .clr, .none, .any⟩]⟩,
  ⟨0x81204, 4, 31, 0, 1, false, 0, ⟨true, false, false, true, false, false⟩, [⟨31, 0, .ro, .none, .any⟩]⟩,
  ⟨0x81284, 4, 31, 0, 1, false, 0, ⟨true, false, false, true, false, false⟩, [⟨31, 0, .ro, .none, .any⟩]⟩,
  ⟨0x82080, 4, 768, 0, 1, false, 0xf, ⟨true, false, false, true, false, false⟩, [⟨3, 0, .rw, .none, .any⟩, ⟨4, 4, .rw, .none, .any⟩, ⟨11, 8, .rw, .none, .any⟩, ⟨15, 12, .ro, .none, .any⟩, ⟨31, 16, .rw, .none, .any⟩]⟩,
  ⟨0x84000, 0x100, 16, 0, 1, false, 0xffffffff, ⟨true, false, false, true, false, false⟩, [⟨31, 0, .set, .none, .any⟩]⟩,
  ⟨0x84004, 0x100, 16, 0, 1, false, 0xffffffff, ⟨true, false, false, true, false, false⟩, [⟨31, 0, .clr, .none, .any⟩]⟩,
  ⟨0x84008, 0x100, 16, 0, 1, false, 0, ⟨true, false, false, true, false, false⟩, [⟨31, 0, .set, .none, .any⟩]⟩,
  ⟨0x8400c, 0x100, 16, 0, 1, false, 0, ⟨true, false, false, true, false, false⟩, [⟨31, 0, .clr, .none, .any⟩]⟩,
  ⟨0x84010, 0x100, 16, 0, 1, false, 0, ⟨true, false, false, true, false, false⟩, [⟨31, 0, .ro, .none, .any⟩]⟩,
  ⟨0x84014, 0x100, 16, 0, 1, false, 0, ⟨true, false, false, true, false, false⟩, [⟨3, 0, .ro, .none, .any⟩, ⟨11, 8, .ro, .none, .any⟩]⟩,
  ⟨0x85000, 0, 1, 0, 1, false, 0, ⟨true, false, false, true, false, false⟩, [⟨31, 0, .ro, .none, .any⟩]⟩,
  ⟨0x85004, 0, 1, 0, 1, false, 0, ⟨true, false, false, true, false, false⟩, [⟨31, 0, .ro, .none, .any⟩]⟩,
  ⟨0x85008, 0, 1, 0, 1, false, 0, ⟨true, false, false, true, false, false⟩, [⟨31, 0, .ro, .none, .any⟩]⟩,
  ⟨0x8500c, 0, 1, 0, 1, false, 0, ⟨true, false, false, true, false, false⟩, [⟨31, 0, .ro, .none, .any⟩]⟩,
  ⟨0x85010, 0, 1, 0, 1, false, 0, ⟨true, false, false, true, false, false⟩, [⟨31, 0, .ro, .none, .any⟩]⟩,
  ⟨0x85014, 0, 1, 0, 1, false, 0, ⟨true, false, false, true, false, false⟩, [⟨31, 0, .ro, .none, .any⟩]⟩,
  ⟨0x85018, 0, 1, 0, 1, false, 0, ⟨true, false, false, false, false, false⟩, [⟨31, 0, .ro, .none, .any⟩]⟩,
  ⟨0x8501c, 0, 1, 0, 1, false, 0, ⟨true, false, false, true, false, false⟩, [⟨23, 0, .ro, .none, .any⟩, ⟨31, 24, .ro, .none, .any⟩]⟩,
  ⟨0x84040, 0x100, 16, 4, 32, false, 0xf, ⟨true, false, false, true, false, false⟩, [⟨3, 0, .rw, .none, .any⟩, ⟨4, 4, .rw, .none, .any⟩]⟩]

/-- The registers of block sto. -/
def regTableSto : List RegDef := [
  ⟨0xc0000, 0, 1, 0, 1, false, 0, ⟨true, false, false, false, false, false⟩, [⟨0, 0, .ro, .none, .any⟩, ⟨1, 1, .ro, .none, .any⟩, ⟨2, 2, .ro, .none, .any⟩, ⟨3, 3, .ro, .none, .any⟩]⟩,
  ⟨0xc0100, 0x10, 23, 0, 1, true, 0, ⟨true, false, false, false, false, false⟩, [⟨63, 0, .ro, .none, .any⟩]⟩,
  ⟨0xc0108, 0x10, 23, 0, 1, true, 0, ⟨true, false, false, false, false, false⟩, [⟨63, 0, .ro, .none, .any⟩]⟩,
  ⟨0xc0280, 0x10, 8, 0, 1, true, 0, ⟨true, false, false, false, false, false⟩, [⟨63, 0, .ro, .none, .any⟩]⟩,
  ⟨0xc0288, 0x10, 8, 0, 1, true, 0, ⟨true, false, false, false, false, false⟩, [⟨63, 0, .ro, .none, .any⟩]⟩,
  ⟨0xc0300, 0, 1, 0, 1, false, 0, ⟨true, false, false, false, false, false⟩, [⟨31, 0, .ro, .none, .any⟩]⟩,
  ⟨0xc0304, 0, 1, 0, 1, false, 0, ⟨true, false, false, false, false, false⟩, [⟨31, 0, .ro, .none, .any⟩]⟩,
  ⟨0xc0308, 0, 1, 0, 1, false, 0, ⟨true, false, false, false, false, false⟩, [⟨31, 0, .ro, .none, .any⟩]⟩,
  ⟨0xc030c, 0, 1, 0, 1, false, 0, ⟨true, false, false, false, false, false⟩, [⟨31, 0, .ro, .none, .any⟩]⟩,
  ⟨0xc0310, 0, 1, 0, 1, false, 0, ⟨true, false, false, false, false, false⟩, [⟨31, 0, .ro, .none, .any⟩]⟩,
  ⟨0xc0320, 0, 1, 0, 1, true, 0, ⟨true, false, false, false, false, false⟩, [⟨33, 0, .ro, .none, .any⟩]⟩,
  ⟨0xc0328, 0, 1, 0, 1, false, 0, ⟨true, false, false, false, false, false⟩, [⟨4, 0, .ro, .none, .any⟩, ⟨5, 5, .ro, .none, .any⟩, ⟨6, 6, .ro, .none, .any⟩, ⟨11, 8, .ro, .none, .any⟩, ⟨31, 31, .w1c, .none, .any⟩]⟩,
  ⟨0xc0400, 0, 1, 0, 1, false, 0, ⟨true, false, false, false, false, false⟩, [⟨2, 0, .wm, .period, .range 0 4⟩]⟩,
  ⟨0xc0404, 0, 1, 0, 1, false, 0, ⟨true, false, false, false, false, false⟩, [⟨15, 0, .ro, .none, .any⟩, ⟨23, 16, .ro, .none, .any⟩]⟩,
  ⟨0xc0500, 0, 1, 0, 1, true, 0, ⟨true, false, false, false, false, false⟩, [⟨33, 6, .rw, .none, .any⟩]⟩,
  ⟨0xc0508, 0, 1, 0, 1, false, 0, ⟨true, false, false, false, false, false⟩, [⟨0, 0, .w1s, .none, .any⟩, ⟨1, 1, .ro, .none, .any⟩, ⟨2, 2, .ro, .none, .any⟩]⟩,
  ⟨0xc0540, 8, 8, 0, 1, true, 0, ⟨true, false, false, false, false, false⟩, [⟨63, 0, .ro, .none, .any⟩]⟩]

/-- The registers of block crl. -/
def regTableCrl : List RegDef := [
  ⟨0x100000, 0x10000, 12, 0, 1, false, 0, ⟨true, false, false, true, false, true⟩, [⟨2, 0, .ro, .none, .any⟩, ⟨3, 3, .ro, .none, .any⟩, ⟨7, 4, .ro, .none, .any⟩, ⟨8, 8, .ro, .none, .any⟩, ⟨9, 9, .ro, .none, .any⟩, ⟨11, 10, .ro, .none, .any⟩, ⟨15, 12, .ro, .none, .any⟩, ⟨16, 16, .ro, .none, .any⟩]⟩,
  ⟨0x100004, 0x10000, 12, 0, 1, false, 0, ⟨true, false, false, true, false, false⟩, [⟨0, 0, .rw, .none, .any⟩, ⟨1, 1, .w1s, .none, .any⟩]⟩,
  ⟨0x100008, 0x10000, 12, 0, 1, false, 0x100000, ⟨true, false, false, false, false, false⟩, [⟨23, 0, .wm, .threshold, .any⟩]⟩,
  ⟨0x10000c, 0x10000, 12, 0, 1, false, 0, ⟨true, false, false, false, false, false⟩, [⟨15, 0, .ro, .none, .any⟩, ⟨31, 16, .ro, .none, .any⟩]⟩,
  ⟨0x100010, 0x10000, 12, 0, 1, false, 0, ⟨true, false, false, false, false, false⟩, [⟨15, 0, .ro, .none, .any⟩, ⟨31, 16, .ro, .none, .any⟩]⟩,
  ⟨0x100020, 0x10000, 12, 0, 1, false, 0, ⟨true, false, false, false, false, false⟩, [⟨11, 0, .ro, .none, .any⟩, ⟨12, 12, .ro, .none, .any⟩]⟩,
  ⟨0x100200, 0x10000, 12, 0, 1, false, 0, ⟨true, false, false, false, false, false⟩, [⟨2, 0, .rw, .none, .any⟩, ⟨5, 4, .rw, .none, .range 0 2⟩, ⟨8, 8, .w1s, .none, .any⟩]⟩,
  ⟨0x100204, 0x10000, 12, 0, 1, false, 0, ⟨true, false, false, false, false, false⟩, [⟨7, 0, .ro, .none, .any⟩, ⟨15, 8, .ro, .none, .any⟩, ⟨16, 16, .ro, .none, .any⟩]⟩,
  ⟨0x101000, 0x10000, 12, 0, 1, false, 0, ⟨true, false, false, true, false, false⟩, [⟨1, 0, .ro, .none, .any⟩, ⟨3, 2, .ro, .none, .any⟩, ⟨4, 4, .ro, .none, .any⟩, ⟨5, 5, .ro, .none, .any⟩, ⟨6, 6, .ro, .none, .any⟩, ⟨10, 8, .ro, .none, .any⟩]⟩,
  ⟨0x101004, 0x10000, 12, 0, 1, false, 0, ⟨false, false, false, false, false, true⟩, [⟨15, 0, .ro, .none, .any⟩, ⟨31, 16, .ro, .none, .any⟩]⟩,
  ⟨0x101008, 0x10000, 12, 0, 1, false, 0xffff0000, ⟨true, false, false, true, false, false⟩, [⟨15, 0, .ro, .none, .any⟩, ⟨31, 16, .ro, .none, .any⟩]⟩,
  ⟨0x10100c, 0x10000, 12, 0, 1, false, 0, ⟨true, false, false, true, false, false⟩, [⟨15, 0, .ro, .none, .any⟩, ⟨31, 16, .ro, .none, .any⟩]⟩,
  ⟨0x101010, 0x10000, 12, 0, 1, false, 0, ⟨true, false, false, true, false, false⟩, [⟨15, 0, .ro, .none, .any⟩, ⟨31, 16, .ro, .none, .any⟩]⟩,
  ⟨0x101014, 0x10000, 12, 0, 1, false, 0, ⟨true, false, false, true, false, false⟩, [⟨15, 0, .ro, .none, .any⟩, ⟨31, 16, .ro, .none, .any⟩]⟩,
  ⟨0x101080, 0x10000, 12, 0, 1, false, 0, ⟨true, false, false, true, false, false⟩, [⟨15, 0, .ro, .none, .any⟩, ⟨31, 16, .ro, .none, .any⟩]⟩,
  ⟨0x101084, 0x10000, 12, 0, 1, false, 0x1000, ⟨true, false, false, false, false, false⟩, [⟨15, 0, .wm, .threshold, .any⟩]⟩,
  ⟨0x100040, 0x10000, 8, 4, 4, false, 0, ⟨true, false, false, false, false, false⟩, [⟨2, 0, .rw, .none, .any⟩, ⟨8, 8, .rw, .none, .any⟩]⟩,
  ⟨0x180040, 0x10000, 4, 4, 8, false, 0, ⟨true, false, false, false, false, false⟩, [⟨2, 0, .rw, .none, .any⟩, ⟨8, 8, .rw, .none, .any⟩]⟩,
  ⟨0x100060, 0x10000, 8, 4, 4, false, 0, ⟨true, false, false, true, false, false⟩, [⟨0, 0, .ro, .none, .any⟩, ⟨1, 1, .ro, .none, .any⟩, ⟨2, 2, .ro, .none, .any⟩, ⟨3, 3, .ro, .none, .any⟩, ⟨7, 4, .ro, .none, .any⟩, ⟨11, 8, .ro, .none, .any⟩, ⟨20, 16, .ro, .none, .any⟩]⟩,
  ⟨0x180060, 0x10000, 4, 4, 8, false, 0, ⟨true, false, false, true, false, false⟩, [⟨0, 0, .ro, .none, .any⟩, ⟨1, 1, .ro, .none, .any⟩, ⟨2, 2, .ro, .none, .any⟩, ⟨3, 3, .ro, .none, .any⟩, ⟨7, 4, .ro, .none, .any⟩, ⟨11, 8, .ro, .none, .any⟩, ⟨20, 16, .ro, .none, .any⟩]⟩,
  ⟨0x100100, 0x10000, 8, 0x20, 4, false, 0, ⟨true, false, false, true, false, false⟩, [⟨31, 0, .ro, .none, .any⟩]⟩,
  ⟨0x180100, 0x10000, 4, 0x20, 8, false, 0, ⟨true, false, false, true, false, false⟩, [⟨31, 0, .ro, .none, .any⟩]⟩,
  ⟨0x100104, 0x10000, 8, 0x20, 4, false, 0, ⟨true, false, false, true, false, false⟩, [⟨31, 0, .ro, .none, .any⟩]⟩,
  ⟨0x180104, 0x10000, 4, 0x20, 8, false, 0, ⟨true, false, false, true, false, false⟩, [⟨31, 0, .ro, .none, .any⟩]⟩,
  ⟨0x100108, 0x10000, 8, 0x20, 4, false, 0, ⟨true, false, false, true, false, false⟩, [⟨31, 0, .ro, .none, .any⟩]⟩,
  ⟨0x180108, 0x10000, 4, 0x20, 8, false, 0, ⟨true, false, false, true, false, false⟩, [⟨31, 0, .ro, .none, .any⟩]⟩,
  ⟨0x10010c, 0x10000, 8, 0x20, 4, false, 0, ⟨true, false, false, true, false, false⟩, [⟨31, 0, .ro, .none, .any⟩]⟩,
  ⟨0x18010c, 0x10000, 4, 0x20, 8, false, 0, ⟨true, false, false, true, false, false⟩, [⟨31, 0, .ro, .none, .any⟩]⟩,
  ⟨0x100110, 0x10000, 8, 0x20, 4, false, 0, ⟨true, false, false, true, false, false⟩, [⟨31, 0, .ro, .none, .any⟩]⟩,
  ⟨0x180110, 0x10000, 4, 0x20, 8, false, 0, ⟨true, false, false, true, false, false⟩, [⟨31, 0, .ro, .none, .any⟩]⟩,
  ⟨0x101020, 0x10000, 12, 4, 8, false, 0, ⟨true, false, false, true, false, false⟩, [⟨15, 0, .ro, .none, .any⟩]⟩,
  ⟨0x101040, 0x10000, 12, 4, 8, false, 0, ⟨true, false, false, true, false, false⟩, [⟨15, 0, .ro, .none, .any⟩, ⟨31, 16, .ro, .none, .any⟩]⟩,
  ⟨0x101100, 0x10000, 12, 4, 14, false, 0, ⟨true, false, false, true, false, false⟩, [⟨31, 0, .ro, .none, .any⟩]⟩]

/-- The registers of block net. -/
def regTableNet : List RegDef := [
  ⟨0x200000, 0, 1, 0, 1, false, 0, ⟨true, false, false, true, false, false⟩, [⟨0, 0, .ro, .none, .any⟩, ⟨2, 1, .ro, .none, .any⟩, ⟨3, 3, .ro, .none, .any⟩, ⟨28, 16, .ro, .none, .any⟩]⟩,
  ⟨0x200004, 0, 1, 0, 1, false, 0, ⟨true, false, false, false, false, false⟩, [⟨11, 0, .ro, .none, .any⟩, ⟨12, 12, .ro, .none, .any⟩, ⟨20, 16, .ro, .none, .any⟩]⟩,
  ⟨0x200008, 0, 1, 0, 1, false, 0, ⟨true, false, false, true, false, false⟩, [⟨11, 0, .ro, .none, .any⟩, ⟨27, 16, .ro, .none, .any⟩]⟩,
  ⟨0x20000c, 0, 1, 0, 1, false, 4, ⟨true, false, false, false, false, false⟩, [⟨4, 0, .rw, .none, .range 1 31⟩]⟩,
  ⟨0x200010, 0, 1, 0, 1, true, 0, ⟨true, false, false, false, false, false⟩, [⟨63, 0, .ro, .none, .any⟩]⟩,
  ⟨0x200100, 0x20, 8, 0, 1, false, 0, ⟨true, false, false, true, false, false⟩, [⟨2, 0, .ro, .none, .any⟩, ⟨3, 3, .ro, .none, .any⟩, ⟨4, 4, .ro, .none, .any⟩, ⟨27, 16, .ro, .none, .any⟩]⟩,
  ⟨0x200104, 0x20, 8, 0, 1, false, 0, ⟨true, false, false, true, false, false⟩, [⟨31, 0, .ro, .none, .any⟩]⟩,
  ⟨0x200108, 0x20, 8, 0, 1, true, 0, ⟨true, false, false, true, false, false⟩, [⟨63, 0, .ro, .none, .any⟩]⟩,
  ⟨0x200110, 0x20, 8, 0, 1, false, 0, ⟨true, false, false, true, false, false⟩, [⟨7, 0, .ro, .none, .any⟩, ⟨15, 8, .ro, .none, .any⟩]⟩,
  ⟨0x200114, 0x20, 8, 0, 1, false, 0, ⟨true, false, false, false, false, false⟩, [⟨7, 0, .rw, .none, .range 0 200⟩]⟩,
  ⟨0x201000, 4, 64, 0, 1, false, 0, ⟨true, false, false, true, false, false⟩, [⟨11, 0, .ro, .none, .any⟩, ⟨14, 12, .ro, .none, .any⟩, ⟨31, 16, .ro, .none, .any⟩]⟩,
  ⟨0x201200, 4, 64, 0, 1, false, 0, ⟨true, false, false, true, false, false⟩, [⟨11, 0, .ro, .none, .any⟩, ⟨14, 12, .ro, .none, .any⟩, ⟨31, 16, .ro, .none, .any⟩]⟩,
  ⟨0x202000, 0, 1, 0, 1, false, 0, ⟨true, false, false, true, false, false⟩, [⟨11, 0, .rw, .none, .any⟩, ⟨18, 16, .ro, .none, .any⟩, ⟨22, 20, .ro, .none, .any⟩, ⟨23, 23, .ro, .none, .any⟩]⟩,
  ⟨0x203000, 0, 1, 0, 1, false, 0, ⟨true, false, false, true, false, false⟩, [⟨31, 0, .ro, .none, .any⟩]⟩,
  ⟨0x203004, 0, 1, 0, 1, false, 0, ⟨true, false, false, true, false, false⟩, [⟨31, 0, .ro, .none, .any⟩]⟩,
  ⟨0x203008, 0, 1, 0, 1, false, 0, ⟨true, false, false, true, false, false⟩, [⟨31, 0, .ro, .none, .any⟩]⟩,
  ⟨0x20300c, 0, 1, 0, 1, false, 0, ⟨true, false, false, true, false, false⟩, [⟨31, 0, .ro, .none, .any⟩]⟩,
  ⟨0x203010, 0, 1, 0, 1, false, 0, ⟨true, false, false, true, false, false⟩, [⟨31, 0, .ro, .none, .any⟩]⟩,
  ⟨0x203014, 0, 1, 0, 1, false, 0, ⟨true, false, false, true, false, false⟩, [⟨31, 0, .ro, .none, .any⟩]⟩,
  ⟨0x203018, 0, 1, 0, 1, false, 0, ⟨true, false, false, true, false, false⟩, [⟨31, 0, .ro, .none, .any⟩]⟩,
  ⟨0x20301c, 0, 1, 0, 1, false, 0, ⟨true, false, false, true, false, false⟩, [⟨31, 0, .ro, .none, .any⟩]⟩]

/-- The registers of block trn. -/
def regTableTrn : List RegDef := [
  ⟨0x240000, 0, 1, 0, 1, false, 0, ⟨true, false, false, true, false, false⟩, [⟨16, 0, .ro, .none, .any⟩]⟩,
  ⟨0x240004, 0, 1, 0, 1, false, 0, ⟨true, false, false, true, false, false⟩, [⟨14, 0, .ro, .none, .any⟩]⟩,
  ⟨0x240008, 0, 1, 0, 1, false, 6, ⟨true, false, false, false, false, false⟩, [⟨3, 0, .rw, .none, .range 0 12⟩]⟩,
  ⟨0x24000c, 0, 1, 0, 1, false, 0x2710, ⟨true, false, false, false, false, false⟩, [⟨15, 0, .rw, .none, .range 1 60000⟩]⟩,
  ⟨0x240010, 0, 1, 0, 1, false, 0, ⟨true, false, false, true, false, false⟩, [⟨12, 0, .ro, .none, .any⟩, ⟨28, 16, .ro, .none, .any⟩]⟩,
  ⟨0x240014, 0, 1, 0, 1, false, 0, ⟨true, false, false, true, false, false⟩, [⟨5, 0, .ro, .none, .any⟩]⟩,
  ⟨0x240018, 0, 1, 0, 1, true, 0, ⟨false, true, false, false, false, false⟩, [⟨16, 0, .ro, .none, .any⟩, ⟨48, 32, .ro, .none, .any⟩]⟩,
  ⟨0x240100, 0, 1, 0, 1, false, 0, ⟨true, false, false, false, false, false⟩, [⟨31, 0, .ro, .none, .any⟩]⟩,
  ⟨0x240104, 0, 1, 0, 1, false, 0, ⟨true, false, false, false, false, false⟩, [⟨31, 0, .ro, .none, .any⟩]⟩,
  ⟨0x240108, 0, 1, 0, 1, false, 0, ⟨true, false, false, false, false, false⟩, [⟨31, 0, .ro, .none, .any⟩]⟩,
  ⟨0x24010c, 0, 1, 0, 1, false, 0, ⟨true, false, false, false, false, false⟩, [⟨31, 0, .ro, .none, .any⟩]⟩,
  ⟨0x240110, 0, 1, 0, 1, false, 0, ⟨true, false, false, false, false, false⟩, [⟨31, 0, .ro, .none, .any⟩]⟩,
  ⟨0x240114, 0, 1, 0, 1, false, 0, ⟨true, false, false, false, false, false⟩, [⟨31, 0, .ro, .none, .any⟩]⟩,
  ⟨0x240118, 0, 1, 0, 1, false, 0, ⟨true, false, false, false, false, false⟩, [⟨31, 0, .ro, .none, .any⟩]⟩,
  ⟨0x24011c, 0, 1, 0, 1, false, 0, ⟨true, false, false, false, false, false⟩, [⟨31, 0, .ro, .none, .any⟩]⟩,
  ⟨0x240120, 0, 1, 0, 1, false, 0, ⟨true, false, false, false, false, false⟩, [⟨31, 0, .ro, .none, .any⟩]⟩,
  ⟨0x240124, 0, 1, 0, 1, false, 0, ⟨true, false, false, false, false, false⟩, [⟨31, 0, .ro, .none, .any⟩]⟩,
  ⟨0x240128, 0, 1, 0, 1, false, 0, ⟨true, false, false, false, false, false⟩, [⟨31, 0, .ro, .none, .any⟩]⟩,
  ⟨0x24012c, 0, 1, 0, 1, false, 0, ⟨true, false, false, false, false, false⟩, [⟨31, 0, .ro, .none, .any⟩]⟩,
  ⟨0x240130, 0, 1, 0, 1, false, 0, ⟨true, false, false, false, false, false⟩, [⟨31, 0, .ro, .none, .any⟩]⟩]

/-- The registers of block hst. -/
def regTableHst : List RegDef := [
  ⟨0x280000, 0, 1, 0, 1, false, 0, ⟨true, false, false, true, false, false⟩, [⟨3, 0, .ro, .none, .any⟩, ⟨6, 4, .ro, .none, .any⟩, ⟨10, 8, .ro, .none, .any⟩, ⟨11, 11, .ro, .none, .any⟩, ⟨12, 12, .ro, .none, .any⟩, ⟨14, 13, .ro, .none, .any⟩, ⟨16, 16, .ro, .none, .any⟩, ⟨17, 17, .ro, .none, .any⟩, ⟨29, 18, .ro, .none, .any⟩]⟩,
  ⟨0x280004, 0, 1, 0, 1, false, 8, ⟨true, false, false, false, false, false⟩, [⟨7, 0, .rw, .none, .range 1 255⟩]⟩,
  ⟨0x280008, 0, 1, 0, 1, false, 0xff, ⟨false, true, false, false, false, false⟩, [⟨10, 0, .rw, .none, .any⟩]⟩,
  ⟨0x28000c, 0, 1, 0, 1, false, 0, ⟨false, true, false, false, false, false⟩, [⟨15, 0, .ro, .none, .any⟩, ⟨31, 16, .ro, .none, .any⟩]⟩,
  ⟨0x280010, 0, 1, 0, 1, false, 0, ⟨true, false, false, false, false, false⟩, [⟨8, 0, .ro, .none, .any⟩, ⟨11, 9, .ro, .none, .any⟩, ⟨12, 12, .w1c, .none, .any⟩]⟩,
  ⟨0x280014, 0, 1, 0, 1, false, 0x400, ⟨true, false, false, false, false, false⟩, [⟨15, 0, .wm, .threshold, .any⟩]⟩,
  ⟨0x280100, 0, 1, 0, 1, false, 0, ⟨true, false, false, true, false, false⟩, [⟨31, 0, .ro, .none, .any⟩]⟩,
  ⟨0x280104, 0, 1, 0, 1, false, 0, ⟨true, false, false, true, false, false⟩, [⟨31, 0, .ro, .none, .any⟩]⟩,
  ⟨0x280108, 0, 1, 0, 1, false, 0, ⟨true, false, false, true, false, false⟩, [⟨31, 0, .ro, .none, .any⟩]⟩,
  ⟨0x28010c, 0, 1, 0, 1, false, 0, ⟨true, false, false, true, false, false⟩, [⟨31, 0, .ro, .none, .any⟩]⟩,
  ⟨0x280110, 0, 1, 0, 1, false, 0, ⟨true, false, false, true, false, false⟩, [⟨31, 0, .ro, .none, .any⟩]⟩,
  ⟨0x280114, 0, 1, 0, 1, false, 0, ⟨true, false, false, true, false, false⟩, [⟨31, 0, .ro, .none, .any⟩]⟩,
  ⟨0x280118, 0, 1, 0, 1, false, 0, ⟨true, false, false, true, false, false⟩, [⟨31, 0, .ro, .none, .any⟩]⟩,
  ⟨0x28011c, 0, 1, 0, 1, false, 0, ⟨true, false, false, true, false, false⟩, [⟨31, 0, .ro, .none, .any⟩]⟩]

/-- The registers of block win. -/
def regTableWin : List RegDef := [
  ⟨0x300000, 8, 8, 0, 1, true, 0, ⟨true, false, false, false, false, false⟩, [⟨63, 0, .rw, .none, .any⟩]⟩,
  ⟨0x300040, 0, 1, 0, 1, false, 0, ⟨false, false, false, false, false, false⟩, [⟨15, 0, .wo, .none, .any⟩, ⟨17, 16, .wo, .none, .range 0 2⟩]⟩,
  ⟨0x300044, 0, 1, 0, 1, false, 0, ⟨true, false, false, false, false, false⟩, [⟨0, 0, .ro, .none, .any⟩, ⟨3, 1, .ro, .none, .any⟩, ⟨31, 16, .ro, .none, .any⟩]⟩,
  ⟨0x300080, 0, 1, 0, 1, false, 0xa, ⟨true, false, false, false, false, false⟩, [⟨7, 0, .rw, .none, .range 1 255⟩]⟩,
  ⟨0x300084, 0, 1, 0, 1, false, 0, ⟨true, false, false, true, false, false⟩, [⟨8, 0, .ro, .none, .any⟩, ⟨24, 16, .ro, .none, .any⟩]⟩,
  ⟨0x300200, 0x10, 4, 0, 1, false, 0, ⟨true, false, false, true, false, false⟩, [⟨12, 0, .ro, .none, .any⟩, ⟨26, 16, .ro, .none, .any⟩]⟩,
  ⟨0x300204, 0x10, 4, 0, 1, false, 0, ⟨true, false, false, true, false, false⟩, [⟨10, 0, .ro, .none, .any⟩, ⟨20, 16, .ro, .none, .any⟩]⟩,
  ⟨0x300208, 0x10, 4, 0, 1, false, 0, ⟨true, false, false, true, false, false⟩, [⟨15, 0, .ro, .none, .any⟩, ⟨31, 16, .ro, .none, .any⟩]⟩,
  ⟨0x30020c, 0x10, 4, 0, 1, false, 0, ⟨true, false, false, true, false, false⟩, [⟨15, 0, .ro, .none, .any⟩]⟩,
  ⟨0x300100, 0, 1, 0, 1, false, 0, ⟨true, false, false, false, false, false⟩, [⟨31, 0, .ro, .none, .any⟩]⟩,
  ⟨0x300104, 0, 1, 0, 1, false, 0, ⟨true, false, false, false, false, false⟩, [⟨31, 0, .ro, .none, .any⟩]⟩,
  ⟨0x300108, 0, 1, 0, 1, false, 0, ⟨true, false, false, false, false, false⟩, [⟨31, 0, .ro, .none, .any⟩]⟩,
  ⟨0x30010c, 0, 1, 0, 1, false, 0, ⟨true, false, false, false, false, false⟩, [⟨31, 0, .ro, .none, .any⟩]⟩,
  ⟨0x300110, 0, 1, 0, 1, false, 0, ⟨true, false, false, false, false, false⟩, [⟨31, 0, .ro, .none, .any⟩]⟩,
  ⟨0x300114, 0, 1, 0, 1, false, 0, ⟨true, false, false, false, false, false⟩, [⟨31, 0, .ro, .none, .any⟩]⟩,
  ⟨0x300118, 0, 1, 0, 1, false, 0, ⟨true, false, false, false, false, false⟩, [⟨31, 0, .ro, .none, .any⟩]⟩,
  ⟨0x30011c, 0, 1, 0, 1, false, 0, ⟨true, false, false, false, false, false⟩, [⟨31, 0, .ro, .none, .any⟩]⟩]

/-- The registers of block ins. -/
def regTableIns : List RegDef := [
  ⟨0x400000, 8, 16, 0, 1, true, 0, ⟨true, false, false, false, false, false⟩, [⟨63, 0, .rw, .none, .any⟩]⟩,
  ⟨0x400080, 0, 1, 0, 1, false, 0, ⟨false, false, false, false, false, false⟩, [⟨11, 0, .wo, .none, .any⟩, ⟨18, 16, .wo, .none, .range 0 3⟩]⟩,
  ⟨0x400084, 0, 1, 0, 1, false, 0, ⟨true, false, false, false, false, false⟩, [⟨0, 0, .ro, .none, .any⟩, ⟨7, 4, .ro, .none, .any⟩, ⟨27, 16, .ro, .none, .any⟩]⟩,
  ⟨0x400088, 0, 1, 0, 1, false, 0, ⟨false, true, false, false, false, false⟩, [⟨12, 0, .ro, .none, .any⟩, ⟨30, 14, .ro, .none, .any⟩]⟩,
  ⟨0x400090, 0, 1, 0, 1, false, 0, ⟨false, true, false, false, false, false⟩, [⟨10, 0, .rw, .none, .pvec⟩, ⟨16, 16, .rw, .none, .any⟩]⟩,
  ⟨0x400094, 0, 1, 0, 1, false, 0, ⟨true, false, false, false, false, false⟩, [⟨7, 0, .rw, .none, .any⟩]⟩,
  ⟨0x400100, 8, 64, 0, 1, true, 0, ⟨true, false, false, false, false, false⟩, [⟨63, 0, .ro, .none, .any⟩]⟩,
  ⟨0x400300, 0, 1, 0, 1, false, 0, ⟨true, false, false, false, false, false⟩, [⟨31, 0, .ro, .none, .any⟩]⟩,
  ⟨0x400304, 0, 1, 0, 1, false, 0, ⟨true, false, false, false, false, false⟩, [⟨31, 0, .ro, .none, .any⟩]⟩,
  ⟨0x400308, 0, 1, 0, 1, false, 0, ⟨true, false, false, false, false, false⟩, [⟨31, 0, .ro, .none, .any⟩]⟩,
  ⟨0x40030c, 0, 1, 0, 1, false, 0, ⟨true, false, false, false, false, false⟩, [⟨31, 0, .ro, .none, .any⟩]⟩,
  ⟨0x500000, 0x100, 4096, 0, 1, false, 0, ⟨false, true, false, false, false, false⟩, [⟨7, 0, .ro, .none, .any⟩]⟩,
  ⟨0x500004, 0x100, 4096, 0, 1, false, 0, ⟨false, true, false, false, false, false⟩, [⟨31, 0, .ro, .none, .any⟩]⟩,
  ⟨0x500008, 0x100, 4096, 0, 1, false, 0, ⟨false, true, false, false, false, false⟩, [⟨0, 0, .w1c, .none, .any⟩, ⟨1, 1, .w1c, .none, .any⟩, ⟨2, 2, .w1c, .none, .any⟩]⟩,
  ⟨0x500010, 0x100, 4096, 0, 1, false, 0, ⟨false, false, false, false, false, false⟩, [⟨7, 0, .wo, .none, .any⟩]⟩,
  ⟨0x500014, 0x100, 4096, 0, 1, false, 0, ⟨false, true, true, false, false, false⟩, [⟨7, 0, .ro, .none, .any⟩, ⟨15, 8, .ro, .none, .any⟩, ⟨23, 16, .ro, .none, .any⟩]⟩,
  ⟨0x500018, 0x100, 4096, 0, 1, false, 0, ⟨false, true, true, false, false, false⟩, [⟨7, 0, .w1c, .none, .any⟩, ⟨15, 8, .w1c, .none, .any⟩, ⟨23, 16, .w1c, .none, .any⟩]⟩,
  ⟨0x500020, 0x100, 4096, 0, 1, false, 0, ⟨false, true, true, false, false, false⟩, [⟨31, 0, .ro, .none, .any⟩]⟩,
  ⟨0x500024, 0x100, 4096, 0, 1, false, 0, ⟨false, true, true, false, false, false⟩, [⟨31, 0, .rw, .none, .any⟩]⟩,
  ⟨0x500028, 0x100, 4096, 0, 1, false, 0, ⟨false, true, true, false, false, false⟩, [⟨31, 0, .ro, .none, .any⟩]⟩,
  ⟨0x600000, 0x20, 4096, 0, 1, false, 0, ⟨false, true, false, false, false, false⟩, [⟨19, 0, .rw, .none, .any⟩]⟩,
  ⟨0x600004, 0x20, 4096, 0, 1, false, 0, ⟨false, true, false, false, false, false⟩, [⟨15, 0, .rw, .none, .any⟩]⟩,
  ⟨0x600008, 0x20, 4096, 0, 1, false, 0, ⟨false, true, false, false, false, false⟩, [⟨19, 0, .rw, .none, .any⟩]⟩,
  ⟨0x60000c, 0x20, 4096, 0, 1, false, 0, ⟨false, true, false, false, false, false⟩, [⟨15, 0, .rw, .none, .any⟩]⟩,
  ⟨0x600010, 0x20, 4096, 0, 1, false, 0, ⟨false, true, false, false, false, false⟩, [⟨19, 0, .rw, .none, .any⟩]⟩,
  ⟨0x600014, 0x20, 4096, 0, 1, false, 0, ⟨false, true, false, false, false, false⟩, [⟨15, 0, .rw, .none, .any⟩]⟩,
  ⟨0x600018, 0x20, 4096, 0, 1, false, 0, ⟨false, true, false, false, false, false⟩, [⟨19, 0, .rw, .none, .any⟩]⟩,
  ⟨0x60001c, 0x20, 4096, 0, 1, false, 0, ⟨false, true, false, false, false, false⟩, [⟨15, 0, .rw, .none, .any⟩]⟩,
  ⟨0x620000, 4, 16384, 0, 1, false, 0, ⟨true, false, false, false, false, false⟩, [⟨31, 0, .ro, .none, .any⟩]⟩,
  ⟨0x640000, 4, 13, 0, 1, false, 0x80, ⟨false, true, false, false, false, false⟩, [⟨7, 0, .rw, .none, .range 1 255⟩]⟩,
  ⟨0x640100, 0x10, 5, 0, 1, false, 0, ⟨true, false, false, false, false, false⟩, [⟨31, 0, .ro, .none, .any⟩]⟩,
  ⟨0x640104, 0x10, 5, 0, 1, false, 0, ⟨true, false, false, false, false, false⟩, [⟨31, 0, .ro, .none, .any⟩]⟩,
  ⟨0x640108, 0x10, 5, 0, 1, false, 0, ⟨true, false, false, false, false, false⟩, [⟨3, 0, .ro, .none, .any⟩, ⟨27, 16, .ro, .none, .any⟩]⟩,
  ⟨0x650000, 8, 6, 0, 1, true, 0, ⟨true, false, false, false, false, false⟩, [⟨63, 0, .rw, .none, .any⟩]⟩,
  ⟨0x650040, 0, 1, 0, 1, false, 0, ⟨false, false, false, false, false, false⟩, [⟨9, 0, .wo, .none, .any⟩, ⟨17, 16, .wo, .none, .any⟩]⟩,
  ⟨0x650044, 0, 1, 0, 1, false, 0, ⟨true, false, false, false, false, false⟩, [⟨0, 0, .ro, .none, .any⟩, ⟨3, 1, .ro, .none, .any⟩, ⟨25, 16, .ro, .none, .any⟩]⟩,
  ⟨0x660000, 0x20, 1024, 0, 1, false, 0, ⟨true, false, false, false, false, false⟩, [⟨1, 0, .ro, .none, .any⟩, ⟨2, 2, .ro, .none, .any⟩]⟩,
  ⟨0x660004, 0x20, 1024, 0, 1, false, 0, ⟨true, false, false, false, false, false⟩, [⟨31, 0, .ro, .none, .any⟩]⟩,
  ⟨0x660008, 0x20, 1024, 0, 1, false, 0, ⟨true, false, false, false, false, false⟩, [⟨31, 0, .ro, .none, .any⟩]⟩,
  ⟨0x66000c, 0x20, 1024, 0, 1, false, 0, ⟨true, false, false, false, false, false⟩, [⟨31, 0, .ro, .none, .any⟩]⟩,
  ⟨0x500040, 0x100, 4096, 8, 8, true, 0, ⟨false, true, true, false, false, false⟩, [⟨63, 0, .rw, .none, .any⟩]⟩,
  ⟨0x500080, 0x100, 4096, 8, 8, true, 0, ⟨false, true, true, false, false, false⟩, [⟨63, 0, .ro, .none, .any⟩]⟩]

end Sys2Proof.Machine
end

