-- ==== Sys2Proof/Machine/Ops.lean ====
section
/-! DEFINITION. The named operations on the device that every family shares: registers and counters, straps, free values, Firewatch sources and raises, interrupts of the LIC and MSI-X, change-log records, lost posted writes. -/
namespace Sys2Proof.Machine

/-! ### Registers -/

/-- The register rows of the block that holds an offset (R53). -/
def regRows (off : Nat) : List RegDef :=
  let b := off / 0x10000
  if b = 0 then regTableGen else if b = 1 then regTablePit else if b = 2 then regTableEmb else if b = 3 then regTableClg
  else if b < 8 then regTableFwt else if b < 0xC then regTableLic else if b < 0x10 then regTableSto
  else if b < 0x1C then regTableCrl else if b < 0x20 then [] else if b < 0x24 then regTableNet
  else if b < 0x28 then regTableTrn else if b < 0x30 then regTableHst else if b < 0x40 then regTableWin
  else if b < 0xF0 then regTableIns else []

/-- Row `r` defines a register at offset `off`. -/
def RegDef.hits (r : RegDef) (off : Nat) : Bool :=
  if off < r.off then false else
  let o := off - r.off
  let i := if r.s1 = 0 then 0 else o / r.s1
  let o1 := if r.s1 = 0 then o else o % r.s1
  let j := if r.s2 = 0 then 0 else o1 / r.s2
  let o2 := if r.s2 = 0 then o1 else o1 % r.s2
  decide (i < r.n1) && decide (j < r.n2) && decide (o2 = 0)

/-- The row of the register at an offset. -/
def regAt (off : Nat) : Option RegDef := (regRows off).find? (fun r => r.hits off)

/-- A field of a register that has its zero reset value until written; it depends on no strap. -/
def Dev.g0 (d : Dev) (f : Fld) : Nat := fieldOf (d.regs.lk 0#64 f.off) f.hi f.lo

/-- The fault policy profile in force: profile 11 until the straps are latched (R109, R699). -/
def Dev.profile (d : Dev) : Nat := if d.pit.sampled then d.g0 F.genSizeCfg_levels / 2 ^ 20 % 16 else 11

/-- The class of a source, none for a reserved one (R517 to R519 and the source tables of the chapters). -/
def srcClass (n : Nat) : Option Nat :=
  let t (l : List Nat) (i : Nat) : Option Nat := match l[i]? with
    | some c => if c = 9 then none else some c
    | none => none
  if n < 28 then t [3, 4, 2, 0, 2, 0, 2, 2, 2, 2, 2, 9, 9, 9, 9, 9, 2, 2, 2, 2, 2, 4, 0, 0, 2, 4, 0, 0] n
  else if n < 40 then none
  else if n < 51 then t [1, 1, 3, 2, 2, 3, 2, 2, 0, 4, 2] (n - 40)
  else if n < 64 then none
  else if n < 92 then some 3
  else if n < 96 then none
  else if n < 144 then t [1, 2, 2, 2] (n % 4)
  else if n < 192 then t [1, 0, 2, 0] (n % 4)
  else if n < 280 then t [3, 0, 0, 0, 0, 3, 2, 2, 1, 1, 0, 0, 2, 0, 0, 0, 2, 0, 0, 2, 0, 2, 1, 0,
    0, 0, 0, 0, 0, 2, 2, 9, 0, 0, 0, 2, 9, 9, 9, 9, 2, 0, 2, 9, 9, 9, 9, 9, 0, 0, 2, 3, 2, 9, 9, 9,
    0, 2, 2, 2, 0, 2, 9, 9, 2, 2, 3, 2, 9, 9, 9, 9, 0, 2, 2, 0, 0, 2, 2, 2, 2, 2, 1, 2, 9, 9, 9, 9] (n - 192)
  else if 480 ≤ n ∧ n < 496 then some 2
  else none

/-- The owning block of a source, 0xFF for none (R519, R520); F042's is the port of its last raise. -/
def srcBlock (d : Dev) (n : Nat) : Nat :=
  if n = 42 then d.fwt.f042
  else if 64 ≤ n ∧ n < 72 then 0x10 + (n - 64)
  else if 73 ≤ n ∧ n < 80 then 0x21 + (n - 73)
  else if 80 ≤ n ∧ n < 84 then 0x38 + (n - 80)
  else if 84 ≤ n ∧ n < 88 then 0x3C + (n - 84)
  else if n = 88 then 0x40
  else if n = 89 then 0x41
  else if n = 90 then 0x31
  else if 96 ≤ n ∧ n < 192 then (n - 96) % 48 / 4
  else if 240 ≤ n ∧ n < 248 then 0x30
  else 0xFF

/-- The sources with an owning block, F042 among them (R520, R526). -/
def srcOwned (n : Nat) : Bool :=
  n = 42 || (64 ≤ n && n < 72) || (73 ≤ n && n < 91) || (96 ≤ n && n < 192) || (240 ≤ n && n < 248)

/-- The default reactions of a class under a profile (R527): bits irq, host, trap, block, chip, err. -/
def classReactions (profile c : Nat) (owned : Bool) : Nat :=
  if c = 0 then 0x01
  else if c = 1 then 0x03
  else if c = 2 then 0x03 + (if bitOf profile 3 then 0 else 0x20)
  else if c = 3 then 0x27 + (if owned then 0x08 else 0)
  else if c = 4 then 0x27
  else 0x37

/-- The reset value of fwt.src_cfg[n] (R527). -/
def srcCfgDflt (profile n : Nat) : Nat :=
  match srcClass n with
  | none => 0
  | some c => classReactions profile c (srcOwned n) + c * 256

/-- The escalation base T of a profile in µs (R109). -/
def profileT (profile : Nat) : Nat := 1000 * 10 ^ (profile % 4)

/-- The escalation time of class k, 1 to 4, under a profile (R109, R530). -/
def timerDflt (profile k : Nat) : Nat :=
  profileT profile * (if k = 1 then 64 else if k = 2 then 16 else if k = 3 then 4 else 1)

/-- The replay limit L, and landing depth, of an SV7 level (R105). -/
def replayLimit (lvl : Nat) : Nat :=
  nth [32, 256, 512, 1024, 1536, 2048, 3072, 4096, 6144, 8192, 12288, 16384, 20480, 24576, 28672, 32768] lvl 32

/-- The landing segment size s of a limit (R234). -/
def segSize (l : Nat) : Nat := max 1 (l / 256)

/-- The shared pool S of a limit (R234). -/
def sharedPool (l : Nat) : Nat := l - 16 * (segSize l - 1)

/-- The lowest-numbered Attached local port (R483). -/
def Dev.lowestLp (d : Dev) : Option Nat := (List.range 4).find? (fun n => !bitOf (d.g0 F.genNodeCfg_lp_absent) n)

/-- The capacity N of the change-log ring (R106, R567). -/
def Dev.clgN (d : Dev) : Nat := 65536 * 2 ^ (d.g0 F.genSizeCfg_levels / 2 ^ 24 % 16)

/-- The base of a Store region (R159). -/
def regionBase (i : Nat) : Nat :=
  nth [0, 0x10000, 0x20000, 0x100000, 0x200000, 0x300000, 0x400000, 0x800000, 0xC00000, 0x1000000, 0x1100000, 0x1200000, 0x1600000,
    0x1A00000, 0x1E00000, 0x2200000, 0x40000000, 0x80000000, 0x90000000, 0x96000000, 0x9C000000, 0xA0000000, 0x1A0000000] i 0x400000000

/-- The used size of a Store region at the straps in force (R159, R161, R162, R190). -/
def Dev.regionUsed (d : Dev) (i : Nat) : Nat :=
  if i = 16 then 64 * d.clgN
  else if i = 18 then (replayLimit (d.g0 F.genSizeCfg_levels / 16 % 16) - 32) * 256
  else if i = 19 then replayLimit (d.g0 F.genSizeCfg_levels / 16 % 16) * 256
  else nth [0x10000, 0x10000, 0x1000, 0x100000, 0x100000, 0x80000, 0x400000, 0x400000, 0x400000, 0x100000, 0x100000, 0x400000, 0x400000,
    0x400000, 0x400000, 0, 0, 0x10000000, 0, 0, 0x4000000, 0x100000000, 0] i 0

/-- The reset value of a register: the table's, or the value the straps give it (R483, R527, R530, R582, R190). -/
def Dev.dflt (d : Dev) (off : Nat) : W64 :=
  if off = R.genSerial then d.serial
  else if R.fwtSrcCfg 0 ≤ off ∧ off < R.fwtSrcCfg 512 then BitVec.ofNat 64 (srcCfgDflt d.profile ((off - R.fwtSrcCfg 0) / 4))
  else if R.fwtTimer 0 ≤ off ∧ off < R.fwtTimer 4 then BitVec.ofNat 64 (timerDflt d.profile ((off - R.fwtTimer 0) / 4 + 1))
  else if off = R.clgAttnCfg then BitVec.ofNat 64 (d.clgN / 2)
  else if R.licCoreBind 0 ≤ off ∧ off < R.licCoreBind 16 then
    match d.lowestLp with
    | some n => BitVec.ofNat 64 (0x10 + n)
    | none => 0#64
  else if R.stoRegionBase 0 ≤ off ∧ off < R.stoRegionBase 23 then
    let o := off - R.stoRegionBase 0
    if o % 16 = 0 then BitVec.ofNat 64 (regionBase (o / 16)) else BitVec.ofNat 64 (d.regionUsed (o / 16))
  else match regAt off with
    | some r => BitVec.ofNat 64 r.reset
    | none => 0#64

/-- The stored value of a register. -/
def Dev.rd (d : Dev) (off : Nat) : W64 := d.regs.lk (d.dflt off) off

/-- The device with a register holding `v`. -/
def Dev.wr (d : Dev) (off : Nat) (v : W64) : Dev := { d with regs := d.regs.ins off v }

/-- The device with a register back at its reset value. -/
def Dev.unset (d : Dev) (off : Nat) : Dev := { d with regs := d.regs.del off }

/-- A field's stored value. -/
def Dev.g (d : Dev) (f : Fld) : Nat := fieldOf (d.rd f.off) f.hi f.lo

/-- A one-bit field's stored value. -/
def Dev.gb (d : Dev) (f : Fld) : Bool := d.g f != 0

/-- The device with a field holding `x`. -/
def Dev.s (d : Dev) (f : Fld) (x : Nat) : Dev := d.wr f.off (setField (d.rd f.off) f.hi f.lo x)

/-- The device with a one-bit field set or cleared. -/
def Dev.sb (d : Dev) (f : Fld) (b : Bool) : Dev := d.s f (b2n b)

/-- A counter advanced by `k`, saturating at its width. -/
def Dev.bumpBy (d : Dev) (f : Fld) (k : Nat) : Dev := d.s f (satAdd (f.hi + 1 - f.lo) (d.g f) k)

/-- A counter advanced by one, saturating. -/
def Dev.bump (d : Dev) (f : Fld) : Dev := d.bumpBy f 1

/-- A free value, and the device having taken it (log entry 4). -/
def Dev.takeFree (d : Dev) : W64 × Dev := (Config.freeValue d.free, { d with free := d.free + 1 })

/-- Something leaves on the host link (log entry 3). -/
def Dev.emit (d : Dev) (o : Out) : Dev := { d with out := d.out ++ [o] }

/-- A change when a condition holds. -/
def Dev.whenD (d : Dev) (c : Bool) (f : Dev → Dev) : Dev := if c then f d else d

/-- A change repeated over a list. -/
def Dev.each {α : Type} (d : Dev) (l : List α) (f : Dev → α → Dev) : Dev := l.foldl f d

/-! ### Time, identity and straps -/

/-- The tally (R60, R61): 48 bits of seconds, 16 bits of sub-second whose bit 0 is 0 (R57). -/
def Dev.tally (d : Dev) : W64 := BitVec.ofNat 64 (d.emb.tallySec * 65536 + d.emb.tallyPre * 2)

/-- The tally in milliseconds, for hold leases (R323). -/
def Dev.tallyMs (d : Dev) : Nat := d.emb.tallySec * 1000 + d.emb.tallyPre * 1000 / 32768

/-- Backup byte i (R81). -/
def Dev.bkp (d : Dev) (i : Nat) : Nat := fieldOf (d.rd (R.embBkp 0 + 4 * (i / 4))) (8 * (i % 4) + 7) (8 * (i % 4))

/-- The device with backup byte i holding `x`. -/
def Dev.setBkp (d : Dev) (i x : Nat) : Dev :=
  let o := R.embBkp 0 + 4 * (i / 4)
  d.wr o (setField (d.rd o) (8 * (i % 4) + 7) (8 * (i % 4)) x)

/-- Backup bytes 4w to 4w+3 as a word. -/
def Dev.bkpW (d : Dev) (w : Nat) : W32 := (d.rd (R.embBkp 0 + 4 * w)).setWidth 32

/-- The device with backup word w holding `x`. -/
def Dev.setBkpW (d : Dev) (w : Nat) (x : W32) : Dev := d.wr (R.embBkp 0 + 4 * w) (x.setWidth 64)

/-- The incarnation in force (R12). -/
def Dev.incarnation (d : Dev) : W32 := d.bkpW 12

/-- A level of gen.size_cfg, by its low bit (R124). -/
def Dev.sizeLvl (d : Dev) (lo : Nat) : Nat := d.g0 F.genSizeCfg_levels / 2 ^ lo % 16

/-- The replay limit L in force on every port (R105). -/
def Dev.limitL (d : Dev) : Nat := replayLimit (d.sizeLvl 4)

/-- The effective twin mode: 0 none, 1 and 2 members, 3 witness (R92, R117). -/
def Dev.twinMode (d : Dev) : Nat := d.g F.genNodeCfg_twin

/-- The node is a twin member. -/
def Dev.twinMember (d : Dev) : Bool := d.twinMode = 1 || d.twinMode = 2

/-- Local port n is strapped Absent (R93). -/
def Dev.lpAbsent (d : Dev) (n : Nat) : Bool := bitOf (d.g F.genNodeCfg_lp_absent) n

/-- The rate group of a crl port (R124). -/
def rateGroup (p : Nat) : Nat := p / 2

/-- Port p is Absent or in a held-down rate group (R93, R117, R216). -/
def Dev.portHeld (d : Dev) (p : Nat) : Bool :=
  bitOf (d.g F.genRateCfg_held_down) (rateGroup p) || (8 ≤ p && d.lpAbsent (p - 8))

/-- The rate code of port p (R104). -/
def Dev.portRate (d : Dev) (p : Nat) : Nat := d.g F.genRateCfg_rate / 4 ^ p % 4

/-- The lanes of port p (R191). -/
def lanesOf (p : Nat) : Nat := if p < 8 then 4 else 8

/-- Test features are enabled (R95). -/
def Dev.testEn (d : Dev) : Bool := d.gb F.genNodeCfg_test_en

/-- The tally at which step n of the pitch ended; ports stamp theirs, entries 10 and 11, until step 13 (R156). -/
def Dev.stamp (d : Dev) (n : Nat) : Dev := if (n = 10 || n = 11) && d.gb F.pitPitchStatus_complete then d else d.wr (R.pitStepEnd (n - 1)) d.tally

/-- The node's address in force (R301). -/
def Dev.addr (d : Dev) : Addr := BitVec.ofNat 12 (d.g F.netAddr_address)

/-- The pitch has reached step 13 (R156). -/
def Dev.complete (d : Dev) : Bool := d.gb F.pitPitchStatus_complete

/-- Transport is admitted: step 12 has been reached, or the pitch completed by its limit (R134, R140, R155). -/
def Dev.joined (d : Dev) : Bool := d.complete || d.gb F.pitPitchStatus_converged

/-- A limited pitch (R152). -/
def Dev.limited (d : Dev) : Bool := d.gb F.pitPitchStatus_limited

/-- The device is in Fence (R535). -/
def Dev.fence (d : Dev) : Bool := d.gb F.fwtStatus_fence

/-- The state of port p's link: 0 Down, 1 Init exchange, 2 Trained, 3 Open (R259). -/
def Dev.linkState (d : Dev) (p : Nat) : Nat := d.g (F.crlLinkStatus_state p)

/-- Port p is Open (R138). -/
def Dev.portOpen (d : Dev) (p : Nat) : Bool := d.linkState p = 3

/-- The power state of a domain (R583). -/
def Dev.pdSt (d : Dev) (k : Nat) : PdSt := d.pd.st.lk .on k

/-- The device with a domain in a power state. -/
def Dev.setPd (d : Dev) (k : Nat) (x : PdSt) : Dev := { d with pd := { d.pd with st := d.pd.st.put .on k x } }

/-- Work for retained domains from `lo` to `hi` returns them to On (R585, log entry 21). -/
def Dev.touch (d : Dev) (lo hi : Nat) : Dev :=
  let hit (e : Nat × PdSt) : Bool := lo ≤ e.1 && e.1 ≤ hi && e.2 = .retain
  if d.pd.st.any hit then { d with pd := { d.pd with st := d.pd.st.filter (fun e => !hit e) } } else d

/-- A domain has power: On, in Retain, closing or drained (R601). -/
def PdSt.powered (x : PdSt) : Bool := match x with
  | .on | .retain | .closing | .drained => true
  | .off | .hwOff | .autoOff | .poweringOff | .powerOn | .bvcOff => false

/-- A domain takes no new work, and will not by itself take it again: its requests are answered GONE 1 (R591, R598). -/
def PdSt.shut (x : PdSt) : Bool := match x with
  | .closing | .drained | .poweringOff | .off | .hwOff | .powerOn | .bvcOff => true
  | .on | .retain | .autoOff => false

/-- The ports that a block's reset takes with it (R25, R144). -/
def blockPorts (blk : Nat) : List Nat := if blk < 12 then [blk] else if 0x3C ≤ blk ∧ blk < 0x40 then [3 * (blk - 0x3C), 3 * (blk - 0x3C) + 1, 3 * (blk - 0x3C) + 2] else []

/-- A block of R144, or the spill engine that takes a port with it, is in Closing or being reset: until it reopens its new work is answered GONE 1 (R144, R145, R319). -/
def Dev.blockClosing (d : Dev) (blk : Nat) : Bool := d.pit.resets.any (fun r => r.block = blk || (blk < 12 && (blockPorts r.block).contains blk))

/-- A block of R144 is in a re-pitch or a Firewatch reset. -/
def Dev.blockBusy (d : Dev) (blk : Nat) : Bool := d.pit.resets.any (fun r => r.block = blk)

/-- The generation of a block (R319). -/
def Dev.generation (d : Dev) (blk : Nat) : BitVec 16 := d.pd.gen.lk 0#16 blk

/-- The power domain of a block code of R144: a port's is its link domain (R53, R583). -/
def blockDomain (blk : Nat) : Nat :=
  if blk < 8 then 15 + blk
  else if blk < 12 then 27 + (blk - 8)
  else if 0x10 ≤ blk ∧ blk < 0x18 then 34 + (blk - 0x10)
  else if 0x20 ≤ blk ∧ blk < 0x28 then 42 + (blk - 0x20)
  else if blk = 0x30 then 50
  else if blk = 0x31 then 52
  else if 0x38 ≤ blk ∧ blk < 0x3C then 53 + (blk - 0x38)
  else if 0x3C ≤ blk ∧ blk < 0x40 then 57 + (blk - 0x3C)
  else if blk = 0x40 then 61
  else 62

/-- A block code that R144 lists. -/
def blockLegal (blk : Nat) : Bool :=
  blk < 12 || (0x10 ≤ blk && blk < 0x18) || (0x21 ≤ blk && blk < 0x28) || blk = 0x30 || blk = 0x31 ||
  (0x38 ≤ blk && blk < 0x42)

/-! ### Instances -/

/-- An instance descriptor as words (R417); an absent one is zero. -/
def Dev.idesc (d : Dev) (n : Nat) : List W64 := d.ins.desc.lk (List.replicate 32 0#64) n

/-- A descriptor field: bytes `off` to `off + len - 1` (R417, R450). -/
def Dev.ig (d : Dev) (n off len : Nat) : Nat := bget (d.idesc n) off len

/-- The state byte of an instance's descriptor: 0 absent, 1 pitched, 2 suspended, 3 stopped (R417, R419). -/
def Dev.stateByte (d : Dev) (n : Nat) : Nat := d.ig n 0 1

/-- A standby, a detached member, or one that forms again around an image, hosts no tenants: what its tables hold is the active's image (R628). -/
def Dev.hostsImage (d : Dev) : Bool :=
  let r := d.g0 F.pitTwinStatus_role
  r = 3 || r = 4 || (r = 1 && !d.twin.active && d.g0 F.pitTwinStatus_image_ok = 1)

/-- The state of an instance as this node serves it (R419, R628). -/
def Dev.istate (d : Dev) (n : Nat) : Nat := if n ≠ 0 && d.hostsImage then 0 else d.stateByte n

/-! ### Store traffic (R163) -/

/-- Bytes moved by a consumer class, in whole 64-byte units (R158, R163, R190, log entry 126). -/
def Dev.stoMove (d : Dev) (c n : Nat) : Dev := d.wr (R.stoBwBytes c) (d.rd (R.stoBwBytes c) + BitVec.ofNat 64 n)

/-- A descriptor written as a whole, its write sequence advanced (R171). -/
def Dev.setIdesc (d : Dev) (n : Nat) (w : List W64) : Dev :=
  ({ d with ins := { d.ins with desc := d.ins.desc.put (List.replicate 32 0#64) n w, wseq := d.ins.wseq.upd 0 n (· + 1) } }).stoMove 1 512

/-- A descriptor field written. -/
def Dev.is (d : Dev) (n off len x : Nat) : Dev := d.setIdesc n (bput (d.idesc n) off len x)

/-- Fields kept in flops by the instance's slice and written back only before a seal (R418): no write of the descriptor. -/
def Dev.isFlop (d : Dev) (n off len x : Nat) : Dev :=
  { d with ins := { d.ins with desc := d.ins.desc.put (List.replicate 32 0#64) n (bput (d.idesc n) off len x) } }

/-- An FLR or destroy of the instance is in progress (R423). -/
def Dev.inFlr (d : Dev) (n : Nat) : Bool := (d.ins.flr.find? n).isSome

/-! ### Configuration space bits (R344 to R350; offsets inside a structure from the Base Specification, log entry 11) -/

/-- The reset value of the writable bits of a configuration dword, by the Base Specification (R346, log entry 11): Device Control with a 512-byte Max Read Request Size and its three other default enables, System Page Size 4 KiB, T_POWER_ON in L1 PM Substates Control 2, the AER masks and severities of R367. -/
def cfgDflt (off : Nat) : W32 :=
  if off = 0x78 then 0x2910#32 else if off = 0x2F0 then 1#32 else if off = 0x2A4 then 0x28#32 else if off = 0x108 then 0x400000#32
  else if off = 0x10C then 0x62030#32 else if off = 0x114 then 0xE000#32 else 0#32

/-- Offset of Link Control 2: its Target Link Speed resets to the highest supported speed. -/
def cfgLinkCtl2 : Nat := 0xA0

/-- The reset value of the writable bits of a configuration dword, Link Control 2's by the strapped speed (R108). -/
def Dev.cfgDflt (d : Dev) (off : Nat) : W32 := if off = cfgLinkCtl2 then BitVec.ofNat 32 (d.g F.genHostCfg_speed + 1) else Machine.cfgDflt off

/-- The writable bits of a configuration dword. -/
def Dev.cfgW (d : Dev) (fn off : Nat) : W32 := d.hst.cfg.lk (d.cfgDflt off) (fn * 4096 + off)

/-- One writable bit of configuration space. -/
def Dev.cfgBit (d : Dev) (fn off i : Nat) : Bool := (d.cfgW fn off).getLsbD i

/-- The device with a configuration dword holding `v`. -/
def Dev.setCfg (d : Dev) (fn off : Nat) (v : W32) : Dev :=
  { d with hst := { d.hst with cfg := d.hst.cfg.put (d.cfgDflt off) (fn * 4096 + off) v } }

/-- A bit of configuration space set or cleared. -/
def Dev.setCfgBit (d : Dev) (fn off i : Nat) (b : Bool) : Dev :=
  d.setCfg fn off (BitVec.ofNat 32 (setBit (d.cfgW fn off).toNat i b))

/-- Offset of the Power Management Control/Status register. -/
def cfgPmcsr : Nat := 0x44
/-- Offset of the MSI-X capability's first dword: Message Control in bits 31:16. -/
def cfgMsix : Nat := 0x50
/-- Offset of Device Control and Device Status. -/
def cfgDevCtl : Nat := 0x78
/-- Offset of Link Control and Link Status. -/
def cfgLinkCtl : Nat := 0x80
/-- Offset of Device Control 2. -/
def cfgDevCtl2 : Nat := 0x98
/-- Offset of Device Control 3. -/
def cfgDevCtl3 : Nat := 0x2C8
/-- Offset of SR-IOV Control. -/
def cfgSriovCtl : Nat := 0x2D8
/-- Offset of NumVFs. -/
def cfgNumVfs : Nat := 0x2E0
/-- Offset of System Page Size. -/
def cfgPageSize : Nat := 0x2F0
/-- Offset of L1 PM Substates Control 1. -/
def cfgL1ss : Nat := 0x2A0

/-- A VF reaches its MSI-X capability at 0x50, as the PF (R345). The function has MSI-X Enable set. -/
def Dev.msixEnabled (d : Dev) (fn : Nat) : Bool := d.cfgBit fn cfgMsix 31

/-- The function is in D3hot (R362). -/
def Dev.d3hot (d : Dev) (fn : Nat) : Bool := (d.cfgW fn cfgPmcsr).toNat % 4 = 3

/-- VF Enable (R351). -/
def Dev.vfEnable (d : Dev) : Bool := d.cfgBit 0 cfgSriovCtl 0

/-- NumVFs (R349). -/
def Dev.numVfs (d : Dev) : Nat := (d.cfgW 0 cfgNumVfs).toNat % 65536

/-- The function exists for the host: the PF, or an enabled VF (R351). -/
def Dev.fnEnabled (d : Dev) (fn : Nat) : Bool := fn = 0 || (d.vfEnable && fn ≤ d.numVfs)

/-- The PF's vector count (R359). -/
def Dev.pfVectors (d : Dev) : Nat := d.g F.hstPfVectors_count + 1

/-- The MSI-X vectors of a function: of a VF its instance's vec_count, none while the instance is absent (R359, R374). -/
def Dev.vectors (d : Dev) (fn : Nat) : Nat :=
  if fn = 0 then d.pfVectors else if d.istate fn = 0 then 0 else d.ig fn 12 2

/-! ### Firewatch sources (R523) -/

/-- A source raised: it enters Firewatch's queue and is acted on when the command ends (log entry 10). A pulse leaves the source clear. -/
def Dev.raise (d : Dev) (n : Nat) : Dev :=
  { d with fwt := { d.fwt with queue := d.fwt.queue ++ [⟨n, false, 0, false, false⟩] } }

/-- F042, raised for a port (R520). -/
def Dev.raiseAt (d : Dev) (n p : Nat) : Dev :=
  { d with fwt := { d.fwt with queue := d.fwt.queue ++ [⟨n, false, p, false, false⟩] } }

/-- A source asserted while a condition lasts (R523). -/
def Dev.raiseLvl (d : Dev) (n : Nat) : Dev :=
  { d with fwt := { d.fwt with queue := d.fwt.queue ++ [⟨n, true, 0, false, false⟩] } }

/-- A source whose condition has ended reads Clear. -/
def Dev.clearSrc (d : Dev) (n : Nat) : Dev :=
  { d with fwt := { d.fwt with raw := d.fwt.raw.upd 0#32 (n / 32) (fun w => BitVec.ofNat 32 (setBit w.toNat (n % 32) false)),
                               queue := d.fwt.queue.map (fun q => if q.src = n then { q with level := false } else q) } }

/-- A source whose condition holds or not. -/
def Dev.srcCond (d : Dev) (n : Nat) (c : Bool) : Dev := if c then d.raiseLvl n else d.clearSrc n

/-! ### The LIC's inputs (R480, R485, R498) -/

/-- The numbers of shared interrupts that exist (R479 to R481). -/
def licNumber (n : Nat) : Bool := (32 ≤ n && n < 544) || (544 ≤ n && n ≤ 557) || (560 ≤ n && n ≤ 571)

/-- The LIC is in Retain, waking or in a block reset: the sentinel captures (R498, R511). -/
def Dev.licGated (d : Dev) : Bool := d.pdSt 50 = .retain || d.lic.waking || d.blockBusy 0x30

/-- The pending bits of word w (R516). -/
def Dev.licWord (d : Dev) (off : Nat) : W32 := (d.rd off).setWidth 32

/-- A shared interrupt's pending bit set or cleared. -/
def Dev.setPend (d : Dev) (n : Nat) (b : Bool) : Dev :=
  let o := R.licPendSet 0 + 4 * (n / 32) - 4
  d.wr o (BitVec.ofNat 64 (setBit (d.rd o).toNat (n % 32) b))

/-- A pulse of a shared interrupt (R485), captured while the LIC is gated (R498). -/
def Dev.licPulse (d : Dev) (n : Nat) : Dev :=
  if !licNumber n then d
  else if d.licGated then { d with lic := { d.lic with captures := d.lic.captures ++ [.pulse n] } }
  else d.setPend n true

/-! ### Egress queues (R456) -/

/-- An empty egress. -/
def Egress.empty : Egress := ⟨[], [], []⟩

/-- Egress e: 0 to 11 the crl ports, 12 the host path, 13 the turn path. -/
def Dev.egress (d : Dev) (e : Nat) : Egress := d.iso.eg.lk Egress.empty e

/-- The device with egress e replaced. -/
def Dev.setEgress (d : Dev) (e : Nat) (x : Egress) : Dev :=
  { d with iso := { d.iso with eg := d.iso.eg.put Egress.empty e x } }

/-- A packet queued in group `id` of a list of groups, the group added where it was empty (R457). -/
def groupPush (gs : List EGroup) (id : Nat) (q : QEnt) : List EGroup :=
  if gs.any (fun g => g.id = id) then gs.map (fun g => if g.id = id then { g with q := g.q ++ [q] } else g)
  else gs ++ [⟨id, 0, [q]⟩]

/-- An item queued at an egress: VC0 first, responses next, everything else in its group (R456). -/
def Dev.enqueue (d : Dev) (e id : Nat) (q : QEnt) : Dev :=
  let x := d.egress e
  let d := d.touch 34 41
  if q.vc = 0 then d.setEgress e { x with net := x.net ++ [q] }
  else if q.vc = 1 || q.vc = 2 then d.setEgress e { x with rsp := x.rsp ++ [q] }
  else d.setEgress e { x with groups := groupPush x.groups id q }

/-- A posted TLP of a function queued on the path to host memory, behind that instance's earlier ones (R361, R456). -/
def Dev.toHost (d : Dev) (fn : Nat) (o : Out) (size : Nat) : Dev := d.enqueue 12 fn ⟨.host o, 6, size⟩

/-- A completion to the host (R353). -/
def Dev.completeHost (d : Dev) (o : Out) : Dev := d.enqueue 12 0 ⟨.host o, 2, 64⟩

/-! ### MSI-X (R361) -/

/-- Dword k of an MSI-X table entry: dword 3 resets with its mask bit set (R360, R374). -/
def Dev.msixDw (d : Dev) (fn vec k : Nat) : W32 :=
  d.hst.msix.lk (if k = 3 then 1#32 else 0#32) ((fn * 2048 + vec) * 4 + k)

/-- A vector's pending bit set or cleared. -/
def Dev.setPba (d : Dev) (fn vec : Nat) (b : Bool) : Dev :=
  { d with hst := { d.hst with pba := d.hst.pba.put false (fn * 2048 + vec) b } }

/-- A vector is masked: by its entry, its function, MSI-X Enable, or D3hot (R361, R362). -/
def Dev.msixMasked (d : Dev) (fn vec : Nat) : Bool :=
  (d.msixDw fn vec 3).getLsbD 0 || d.cfgBit fn cfgMsix 30 || !d.msixEnabled fn || d.d3hot fn

/-- The MSI-X message of a vector, by the entry at this moment (R361, R372). -/
def Dev.sendMsix (d : Dev) (fn vec : Nat) : Dev :=
  let a := (d.msixDw fn vec 0).toNat / 4 * 4 + 2 ^ 32 * (d.msixDw fn vec 1).toNat
  (d.setPba fn vec false).toHost fn (.msix fn vec (BitVec.ofNat 64 a) (d.msixDw fn vec 2)) 68

/-- A vector fires (R361); a vector beyond the function's count, or of an absent or stopped instance, sends nothing (R374). -/
def Dev.fireVec (d : Dev) (fn vec : Nat) : Dev :=
  if d.vectors fn ≤ vec || (fn ≠ 0 && d.istate fn = 3) then d
  else if d.msixMasked fn vec then d.setPba fn vec true
  else d.sendMsix fn vec

/-! ### The change log (R555 to R571) -/

/-- Type code of an origin (R555). -/
def Origin.code (o : Origin) : Nat := match o with
  | .strap _ => 0 | .manager => 1 | .tenant _ => 2 | .loc _ _ => 3 | .fabric _ _ => 4 | .hardware _ _ => 5 | .ember => 6

/-- Identity of an origin (R555). -/
def Origin.ident (o : Origin) : Nat := match o with
  | .strap c => c
  | .manager => 0
  | .tenant n => n
  | .loc p none => p
  | .loc p (some c) => p + 16 * c + 256
  | .fabric a i => a + i * 2 ^ 16
  | .hardware b p => b + 256 * p
  | .ember => 0

/-- The origins that SD10 = Hold limits: Manager, Tenant, Local and Fabric (R568). -/
def Origin.software (o : Origin) : Bool := match o with
  | .manager | .tenant _ | .loc _ _ | .fabric _ _ => true
  | .strap _ | .hardware _ _ | .ember => false

/-- Block codes of Hardware origins (R555). -/
def hwPit : Origin := .hardware 1 0
@[inherit_doc hwPit] def hwClg : Origin := .hardware 3 0
@[inherit_doc hwPit] def hwFwt : Origin := .hardware 4 0
@[inherit_doc hwPit] def hwNet : Origin := .hardware 8 0

/-- The words of a record without its chain value: bytes 0 to 55 (R562). -/
def recWords (seq : W64) (r : Rec) : List W64 :=
  [seq, r.tally, BitVec.ofNat 64 (r.org.code + r.space * 2 ^ 8 + r.flags.toNat * 2 ^ 16 + r.org.ident * 2 ^ 32), r.target, r.old, r.new, r.aux]

/-- The chain value of a record after the chain value `prev` (R566). -/
def chainOf (prev seq : W64) (r : Rec) : W64 := crc64 (bytesLE 8 prev.toNat ++ bytesOfWords (recWords seq r))

/-- Records held, head − tail (R567). -/
def Dev.clgHeld (d : Dev) : Nat := (d.rd R.clgHead - d.rd R.clgTail).toNat

/-- Occupancy counting the records staged for the ring. -/
def Dev.clgOcc (d : Dev) : Nat := d.clgHeld + d.clg.staged.length

/-- The overflow policy is Hold (SD10). -/
def Dev.clgHold (d : Dev) : Bool := d.gb F.genNodeCfg_log_hold

/-- clg.status.attn is set; its transition from 0 makes LIC event 556 pending and may fire a vector (R574). -/
def Dev.attention (d : Dev) : Dev :=
  if d.gb F.clgStatus_attn then d
  else
    let d := (d.sb F.clgStatus_attn true).licPulse 556
    d.whenD (d.gb F.clgAttnCfg_irq) (fun d => d.fireVec 0 (d.g F.clgAttnVec_vector))

/-- F248 and F250 follow the ring's occupancy (R568). -/
def Dev.clgLevels (d : Dev) : Dev :=
  let occ := d.clgHeld
  if d.clgHold then d.whenD (decide (d.clgN - 4096 < occ) != bitOf (d.fwt.raw.lk 0#32 7).toNat 26) (fun d => d.srcCond 250 (decide (d.clgN - 4096 < occ)))
  else d.whenD (decide (d.clgN ≤ occ) != bitOf (d.fwt.raw.lk 0#32 7).toNat 24) (fun d => d.srcCond 248 (decide (d.clgN ≤ occ)))

/-- The ring's pointers copied to the log header page (R567). -/
def Dev.logHeader (d : Dev) : Dev :=
  ({ d with sto := { d.sto with hdrLevel := some (d.sizeLvl 24), hdrHead := d.rd R.clgHead, hdrTail := d.rd R.clgTail, hdrAnchor := d.rd R.clgAnchor } }).stoMove 4 64

/-- The oldest record leaves the ring: tail and anchor advance (R566, R568). -/
def Dev.logDropTail (d : Dev) : Dev :=
  let t := d.rd R.clgTail
  let a := match d.clg.ring.find? t.toNat with
    | some e => e.chain
    | none => d.rd R.clgAnchor
  { (d.wr R.clgTail (t + 1)).wr R.clgAnchor a with clg := { d.clg with ring := d.clg.ring.del t.toNat } }

/-- A twin member that is active shadows a change-log record in its open epoch (R625). -/
def Dev.shadowRec (d : Dev) (seq : W64) (ws : List W64) : Dev :=
  match d.twin.open_ with
  | some e => { d with twin := { d.twin with open_ := some { e with ents := e.ents ++ [⟨true, seq.toNat, ws⟩] } } }
  | none => d

/-- One record written to the ring, numbered and chained (R566, R567, R568). -/
def Dev.ringWrite (d : Dev) (r : Rec) : Dev :=
  let d := if !d.clgHold && d.clgN ≤ d.clgHeld then (d.logDropTail).bump F.clgWrapped_count else d
  let seq := d.rd R.clgHead
  let r := if d.clgHold && d.clgN - 4096 < d.clgHeld + 1 then { r with flags := r.flags ||| 0x800#16 } else r
  let ch := chainOf d.clg.last seq r
  let occ := d.clgHeld
  let lvl := d.g F.clgAttnCfg_level
  let d := { (d.wr R.clgHead (seq + 1)).bump F.clgRecords_count with
    clg := { d.clg with ring := d.clg.ring.ins seq.toNat ⟨r, ch, false⟩, last := ch } }
  let d := (d.stoMove 4 64).shadowRec seq (recWords seq r ++ [ch])
  (d.whenD (lvl ≠ 0 && occ < lvl && lvl ≤ occ + 1) Dev.attention).logHeader.clgLevels

/-- The oldest staged record goes to the ring. -/
def Dev.flushOne (d : Dev) : Dev :=
  match d.clg.staged with
  | [] => d
  | r :: t => Dev.ringWrite { d with clg := { d.clg with staged := t } } r

/-- Every staged record goes to the ring, in order. -/
def Dev.flushAll (d : Dev) : Dev := d.each d.clg.staged (fun d _ => d.flushOne)

/-- A record enters the staging queue of 16; where the queue is full its oldest record is written first (log entry 7). -/
def Dev.stageRec (d : Dev) (r : Rec) : Dev :=
  let d := if 16 ≤ d.clg.staged.length then d.flushOne else d
  { d with clg := { d.clg with staged := d.clg.staged ++ [r] } }

/-- A record that finds no room is counted, Firewatch's in fwt.log_missed, and F251 is asserted (R548, R571). -/
def Dev.missRec (d : Dev) (r : Rec) : Dev :=
  let d := if r.org = hwFwt then d.bump F.fwtLogMissed_count else d.bump F.clgMissed_count
  let d := { d with clg := { d.clg with missed := d.clg.missed + 1 } }
  ((d.sb F.clgStatus_missing true).whenD (!d.gb F.clgStatus_missing) (fun d => d.raiseLvl 251)).attention

/-- An event record of a kind (R565). -/
def Dev.evRec (d : Dev) (org : Origin) (kind : Nat) (old new aux : W64) : Rec :=
  ⟨d.tally, org, 7, 0#16, BitVec.ofNat 64 kind, old, new, aux⟩

/-- The kind 13 record for the records missed since the previous one; F251 clears (R571). -/
def Dev.missedRec (d : Dev) : Dev :=
  if d.clg.missed = 0 then d
  else
    let d := d.stageRec (d.evRec hwClg 13 0#64 0#64 (BitVec.ofNat 64 d.clg.missed))
    (({ d with clg := { d.clg with missed := 0 } }).sb F.clgStatus_missing false).clearSrc 251

/-- There is room for a Hardware, Strap or Ember record (R568). -/
def Dev.hwRoom (d : Dev) : Bool := !d.clgHold || d.clgOcc < d.clgN

/-- There is room for `n` records of a software change (R568). -/
def Dev.swRoom (d : Dev) (n : Nat) : Bool := !d.clgHold || d.clgOcc + n ≤ d.clgN - 4096

/-- A record is logged. Before step 8 it is staged in the Watch domain (R132, R571); a limited pitch writes none (R152). -/
def Dev.log (d : Dev) (r : Rec) : Dev :=
  if d.limited then d
  else if !d.pit.logOpen then
    if d.clg.watch.length < 256 then { d with clg := { d.clg with watch := d.clg.watch ++ [r] } } else d.missRec r
  else if !d.hwRoom then d.missRec r
  else
    let d := d.missedRec
    if d.hwRoom then d.stageRec r else d.missRec r

/-- An event record is logged. -/
def Dev.logEv (d : Dev) (org : Origin) (kind : Nat) (old new aux : Nat) : Dev :=
  d.log (d.evRec org kind (BitVec.ofNat 64 old) (BitVec.ofNat 64 new) (BitVec.ofNat 64 aux))

/-- A software change is refused for room in Hold: no effect, no record, counted, F249 (R568). -/
def Dev.holdRefuse (d : Dev) : Dev := ((d.bump F.clgHoldRefused_count).raise 249).attention

/-! ### The node on the fabric, and its route snapshots (R260, R278, R301) -/

/-- An address is this node's own: not at a discovery-only node, nor before an auto node has taken a member (R260). -/
def Dev.isSelf (d : Dev) (a : Addr) : Bool :=
  a = d.addr && !d.gb F.genNodeCfg_disc_only && (!d.gb F.genNodeCfg_auto_member || d.gb F.netAddr_valid)

/-- The live route state as a snapshot (R278). -/
def Dev.snapNow (d : Dev) : Snap := ⟨d.net.lsdb, d.net.tbl, if d.gb F.netAddr_valid then some (d.addr.toNat % 64) else none⟩

/-- The route snapshot written to the region not written last (R278). -/
def Dev.snapWrite (d : Dev) : Dev :=
  if d.sto.snapLast then { d with sto := { d.sto with snap0 := some d.snapNow, snapLast := false } }
  else { d with sto := { d.sto with snap1 := some d.snapNow, snapLast := true } }

/-- Route snapshot 1, or 0, recomputed from the live route state (R179). -/
def Dev.snapMend (d : Dev) (one : Bool) : Dev :=
  if one then { d with sto := { d.sto with snap1 := some d.snapNow } } else { d with sto := { d.sto with snap0 := some d.snapNow } }

/-- The member of the newest valid route snapshot that records one (R275). -/
def Dev.snapMember (d : Dev) : Option Nat :=
  let m (s : Option Snap) : Option Nat := s.bind (fun x => x.member)
  if d.sto.snapLast then (m d.sto.snap1).or (m d.sto.snap0) else (m d.sto.snap0).or (m d.sto.snap1)

/-! ### Roles and records -/

/-- The role (R648): 0 none, 1 forming, 2 active, 3 standby, 4 detached, 5 orphan, 6 witness. -/
def Dev.role (d : Dev) : Nat := d.g F.pitTwinStatus_role

/-- The last committed epoch: acknowledged for an active, applied for a standby (R612, R623). -/
def Dev.lastCommitted (d : Dev) : W64 := if d.role = 2 || d.role = 5 then d.rd R.pitTwinAcked else d.rd R.pitTwinEpoch

/-- The role changes, with its LIC event and its record (R480, R647). -/
def Dev.setRole (d : Dev) (r code : Nat) (org : Origin) : Dev :=
  let old := d.role
  let e := (d.lastCommitted).toNat % 2 ^ 32
  if old = r then d else ((d.s F.pitTwinStatus_role r).licPulse 557).logEv org 44 old r (code + e * 2 ^ 32)

/-- The pair re-forms (R627): the member is forming again, with what it holds. -/
def Dev.reform (d : Dev) (code : Nat) (org : Origin) : Dev :=
  let d := (((d.bump F.pitCntReform_count).sb F.pitTwinStatus_peer_ok false).setRole 1 code org)
  { d with twin := { d.twin with open_ := none, unacked := [], staging := none, peer := none, elect := false } }

/-! ### Lost posted writes (R593) -/

/-- `n` posted writes of a domain are lost: counted at once, logged by the coalesced kind 14 record. -/
def Dev.lostPosted (d : Dev) (k n : Nat) : Dev :=
  if n = 0 then d
  else
    let d := d.bumpBy (F.pitPdLost_count k) n
    { d with pd := { d.pd with lost := d.pd.lost.upd 0 k (· + n) } }

/-- The domain of the instance engine slice that holds an instance (R23). -/
def sliceDomain (n : Nat) : Nat := 42 + n / 512

/-- The link domain of a crl port (R583). -/
def linkDomain (p : Nat) : Nat := if p < 8 then 15 + p else 27 + (p - 8)

/-- The PHY domain of a crl port (R583). -/
def phyDomain (p : Nat) : Nat := if p < 8 then 7 + p else 23 + (p - 8)

/-! ### Guylines of a domain (R517 to R522) -/

/-- The power domain whose flops drive a source (R517 to R520). -/
def srcDomain (n : Nat) : Nat :=
  if n < 32 then 1
  else if n < 64 then 33
  else if n < 72 then 34 + (n - 64)
  else if n < 80 then 42 + (n - 72)
  else if n < 84 then 53 + (n - 80)
  else if n < 88 then 57 + (n - 84)
  else if n = 88 then 61
  else if n = 89 then 62
  else if n = 90 then 52
  else if n = 91 then 51
  else if 96 ≤ n ∧ n < 192 then linkDomain ((n - 96) % 48 / 4)
  else if 192 ≤ n ∧ n < 200 then 52
  else if 208 ≤ n ∧ n < 216 then 6
  else if 224 ≤ n ∧ n < 232 then 61
  else if 200 ≤ n ∧ n < 240 then 42
  else if 240 ≤ n ∧ n < 248 then 50
  else if 248 ≤ n ∧ n < 256 then 51
  else if 480 ≤ n ∧ n < 496 then nth [2, 5, 7, 9, 12, 14, 23, 26, 34, 36, 39, 41, 42, 49, 31, 1] (n - 480) 1
  else 1

/-- The sources of a 32-bit word, by the bits set in it. -/
def srcsOf (w : Nat) (x : Nat) : List Nat := (bitsOf x 32).map (32 * w + ·)

/-- The isolation clamps of a domain that enters Retain or Off drive its guylines to Clear: its sources read neither asserted nor broken (R522, R586). -/
def Dev.clampDom (d : Dev) (k : Nat) : Dev :=
  let raw := d.fwt.raw.flatMap (fun e => srcsOf e.1 e.2.toNat)
  let broken := (List.range 16).flatMap (fun w => srcsOf w (d.rd (R.fwtBroken w)).toNat)
  let mine (l : List Nat) : List Nat := l.filter (fun n => 16 ≤ n && srcDomain n = k)
  (d.each (mine raw) Dev.clearSrc).each (mine broken) (fun d n => d.wr (R.fwtBroken (n / 32)) (BitVec.ofNat 64 (setBit (d.rd (R.fwtBroken (n / 32))).toNat (n % 32) false)))

end Sys2Proof.Machine
end

