-- ==== Sys2Proof/Machine/Route.lean ====
section
/-! DEFINITION. Packets: their classes, the route lookup (R284), the escape tables (R287), sending and forwarding (R282 to R285), responses (R306, R307). -/
namespace Sys2Proof.Machine

/-- The classes of packets (R303). -/
inductive PClass where
  | posted | nonPosted | response
  deriving DecidableEq, Repr

/-- The class of an opcode of R304; none where the opcode is undefined. -/
def opClass (op : BitVec 8) : Option PClass :=
  let n := op.toNat
  if n = 2 ∨ n = 7 ∨ n = 0x14 then some .posted
  else if (1 ≤ n ∧ n ≤ 0xA) ∨ (0x10 ≤ n ∧ n ≤ 0x13) then some .nonPosted
  else if n = 0x80 then some .response
  else none

/-- The class a virtual channel carries (R223, R303). -/
def vcClass (vc : Nat) : PClass := if vc = 1 ∨ vc = 2 then .response else if vc = 3 ∨ vc = 4 then .nonPosted else .posted

/-- The normal VC of a class (R303). -/
def PClass.vc (c : PClass) : Nat := match c with
  | .response => 2 | .nonPosted => 4 | .posted => 6

/-- The escape VC of a class (R288). -/
def PClass.escVc (c : PClass) : Nat := match c with
  | .response => 1 | .nonPosted => 3 | .posted => 5

end Sys2Proof.Machine

namespace Sys2Proof

/-- A packet is a posted request. -/
def Pkt.posted (k : Pkt) : Bool := Machine.opClass k.opcode = some Machine.PClass.posted

/-- The lane_open flag of a packet (R302, R312). -/
def Pkt.laneOpen (k : Pkt) : Bool := k.flags.getLsbD 3

/-- The wide flag of a FENCE (R302). -/
def Pkt.wide (k : Pkt) : Bool := k.flags.getLsbD 0

/-- The poisoned-payload flag (R302). -/
def Pkt.poisoned (k : Pkt) : Bool := k.flags.getLsbD 1

/-- The source instance, bits 11:0 (R302). -/
def Pkt.si (k : Pkt) : Nat := k.srcInst.toNat % 4096

/-- The destination instance, bits 11:0 (R302). -/
def Pkt.di (k : Pkt) : Nat := k.dstInst.toNat % 4096

/-- The stream of a request at its destination: source node, source instance, ordering key (R310). -/
def Pkt.stream (k : Pkt) : Nat × Nat × Nat := (k.src.toNat, k.si, k.key.toNat)

/-- The lane of a request at its destination: source node and flow (R312). -/
def Pkt.lane (k : Pkt) : Nat := k.src.toNat * 65536 + k.flow.toNat

/-- The scope of a packet that a FENCE waits for (R311). -/
def Pkt.scope (k : Pkt) : Option (Nat × Nat × Nat) := if k.opcode = 0x80#8 then none else some k.stream

end Sys2Proof

namespace Sys2Proof.Machine

/-- The node may not carry transport for others: quarantined or discovery-only (R276, R285). -/
def Dev.noTransport (d : Dev) : Bool := d.g F.netStatus_claim = 3 || d.gb F.genNodeCfg_disc_only

/-- A fabric port that the forwarding lookup may use: its link domain is neither closing nor Off (R591). -/
def Dev.fportUsable (d : Dev) (p : Nat) : Bool := d.pdSt (linkDomain p) = .on || d.pdSt (linkDomain p) = .retain

/-- The first hops of a table entry, in ascending port order (R280, R301). -/
def entryHops (e : W64) : List Nat := (List.range (fieldOf e 14 12)).map (fun i => fieldOf e (3 * i + 2) (3 * i))

/-- The table entry for a destination (R284), by the tables in force, which a re-pitch of the engine keeps (R297). -/
def Dev.routeEntry (d : Dev) (dst : Addr) : W64 :=
  (if dst.toNat / 64 = d.addr.toNat / 64 then d.net.tbl.member.lk 0#32 (dst.toNat % 64) else d.net.tbl.camp.lk 0#32 (dst.toNat / 64)).setWidth 64

/-- The port a packet leaves by on the normal layer (R284). -/
def Dev.normalHop (d : Dev) (dst : Addr) (flow : BitVec 16) : Option Nat :=
  let hs := (entryHops (d.routeEntry dst)).filter d.fportUsable
  if hs.length = 0 then none else hs[(flow.toNat ^^^ d.addr.toNat) % hs.length]?

/-- The port a packet leaves by on the escape layer, and whether that link is down (R287). -/
def Dev.escHop (d : Dev) (dst : Addr) (dn : Bool) : Option (Nat × Bool) :=
  let dnHop := d.net.tbl.escDn.find? dst.toNat
  match dn with
  | true => dnHop.map (fun p => (p, true))
  | false => (d.net.tbl.escUp.find? dst.toNat).map (fun p => (p, dnHop = some p))

/-- A response is discarded and counted (R318, R327). -/
def Dev.lateRsp (d : Dev) (raise : Bool) : Dev := (d.bump F.trnCntLate_count).whenD raise (fun d => d.raise 203)

/-- The egress group of a packet that this node sends or delivers (R456). -/
def Dev.groupOf (d : Dev) (k : Pkt) : Nat := if k.src = d.addr then k.si else k.di

/-- A packet of this node leaves for its destination (R261, R284, R285): on the turn path for the node itself, else by the port the tables choose. What has no route: a response is discarded, a posted request lost of D52; the answer of a non-posted request is the caller's. -/
def Dev.sendPkt (d : Dev) (k : Pkt) : Dev :=
  let c := (opClass k.opcode).getD .response
  if d.isSelf k.dst then d.enqueue 13 k.si ⟨.tp k, c.vc, pktSize k⟩
  else if d.noTransport then (d.bump F.netCntNoroute_count).whenD (c = .posted) (fun d => d.lostPosted 52 1)
  else match d.normalHop k.dst k.flow with
    | some p => d.enqueue p k.si ⟨.tp k, c.vc, pktSize k⟩
    | none => (d.bump F.netCntNoroute_count).whenD (c = .posted) (fun d => d.lostPosted 52 1)

/-- A packet of this node for a destination can leave (R285). -/
def Dev.hasRoute (d : Dev) (k : Pkt) : Bool :=
  d.isSelf k.dst || (!d.noTransport && (d.normalHop k.dst k.flow).isSome)

/-- The slice of an instance admits no new work: closing, reset or Off by the manager (R319, R591, R598). -/
def Dev.sliceShut (d : Dev) (i : Nat) : Bool :=
  d.blockClosing (0x20 + i / 512) || (d.pdSt (sliceDomain i)).shut

/-- The newest LSA claiming an address, if any; one with the quarantined or no_addr flag claims none (R277, R447). -/
def Dev.claimLsa (d : Dev) (a : Addr) : Option Lsa :=
  (d.net.lsdb.vals.filter (fun l => l.origin = a && !l.quarantined && !l.noAddr)).foldl (fun (b : Option Lsa) l => match b with
    | none => some l
    | some m => if m.incarnation.toNat < l.incarnation.toNat then some l else some m) none

/-- The incarnation in the newest LSA claiming an address (R447). -/
def Dev.claimInc (d : Dev) (a : Addr) : Option W32 := (d.claimLsa a).map (·.incarnation)

/-- The incarnation of the node that claims an address as the network layer last reported it (R274, R321): a Hello may tell it before the LSA does. -/
def Dev.knownInc (d : Dev) (a : Addr) : Option W32 := (d.claimLsa a).map (fun l => d.net.incs.lk l.incarnation l.serial.toNat)

/-- A response packet (R302, R306, R307): the request turned round, with a code, a detail, data, a retry hint and a generation. -/
def rspOf (k : Pkt) (src : Addr) (inc : W32) (code detail : Nat) (data : List Byte) (retry : Nat) (gen : BitVec 16) : Pkt :=
  { k with
    dst := k.src, src := src, flow := flowHash src k.di k.src k.key, ttl := 255#8, esc := false, dn := false,
    opcode := 0x80#8, flags := 0#8, code := BitVec.ofNat 8 code, srcInst := BitVec.ofNat 16 k.di, dstInst := BitVec.ofNat 16 k.si,
    sseq := 0#16, addr := 0#64, length := BitVec.ofNat 16 data.length, generation := gen, detail := BitVec.ofNat 8 detail,
    retryAfter := BitVec.ofNat 8 retry, lease := 0#16, srcInc := inc, data := data, resv := 0#14, tail := 0#160 }

/-- The response to a request leaves, UNSUP answers counted. A response for a request carrying an incarnation that is no longer its node's is discarded (R321). -/
def Dev.respond (d : Dev) (k : Pkt) (code detail : Nat) (data : List Byte) (retry : Nat) (gen : BitVec 16) : Dev :=
  let stale := !d.isSelf k.src && (match d.knownInc k.src with
    | some i => i ≠ k.srcInc
    | none => false)
  if stale then d
  else (d.whenD (code = 4) (fun d => d.bump F.trnCntUnsup_count)).sendPkt (rspOf k d.addr d.incarnation code detail data retry gen)

/-- The generation of the instance engine slice that holds an instance (R23, R305). -/
def Dev.sliceGen (d : Dev) (i : Nat) : BitVec 16 := d.generation (0x20 + i / 512)

/-- The generation a response of this node's endpoint carries: its slice's, none where the node only forwards (R302). -/
def Dev.endGen (d : Dev) (k : Pkt) : BitVec 16 := if d.isSelf k.dst then d.sliceGen k.di else 0#16

/-- A request is answered without data (R306). -/
def Dev.answer (d : Dev) (k : Pkt) (code detail : Nat) : Dev := d.respond k code detail [] 0 (d.endGen k)

/-- A request is answered BUSY with a hint (R140, R323, R609). -/
def Dev.answerBusy (d : Dev) (k : Pkt) (detail retry : Nat) : Dev := d.respond k 2 detail [] retry (d.endGen k)

/-- A request is answered BUSY where the manual states no hint: the hint is a free value (R307, log entry 4). -/
def Dev.answerBusyFree (d : Dev) (k : Pkt) (detail : Nat) : Dev :=
  let r := d.takeFree
  r.2.answerBusy k detail (r.1.toNat % 256)

/-- A request that cannot be served: a non-posted one is answered, a posted one handled by `f`. -/
def Dev.refuse (d : Dev) (k : Pkt) (code detail : Nat) (f : Dev → Dev) : Dev :=
  if k.posted then f d else d.answer k code detail

/-- The codes and details of R306 and R307. -/
def rspLegal (code detail : Nat) : Bool :=
  (code = 0 && detail ≤ 2) || (code = 1 && detail = 0) || (code = 2 && detail ≤ 3) || (code = 3 && detail ≤ 5) ||
  (code = 4 && detail ≤ 3) || (code = 5 && detail ≤ 2) || (code = 6 && detail = 0) || (code = 7 && detail ≤ 3)

/-- A request has a reserved encoding in an enumerated field (R327). -/
def reservedEnc (k : Pkt) : Bool := !rspLegal k.code.toNat k.detail.toNat

/-- The group of a packet that passes through (R456). -/
def transitGroup (via : Via) : Nat := match via with
  | .fabric p => 0x1000 + p.val
  | .turn => 0x100D
  | .loc p => 0x1008 + p.val

/-- The path that a transit group's packets came by; the turn path for this node's own groups. -/
def groupVia (id : Nat) : Via := if 0x1000 ≤ id ∧ id < 0x1008 then .fabric (Fin.ofNat 8 (id - 0x1000)) else .turn

/-- The NOROUTE answer of a node that has no routes of its own, quarantined or discovery-only: it leaves by the port the request came by (R285, log entry 119). -/
def Dev.answerBack (d : Dev) (via : Via) (k : Pkt) (detail : Nat) : Dev := match via with
  | .fabric p =>
    let r := rspOf k d.addr d.incarnation 5 detail [] 0 0#16
    d.enqueue p.val r.si ⟨.tp r, 2, pktSize r⟩
  | .turn | .loc _ => d.answer k 5 detail

/-- A packet that cannot be forwarded (R285): NOROUTE for a non-posted request, a lost posted write of D52, or a response counted. -/
def Dev.noForward (d : Dev) (via : Via) (vc : Nat) (k : Pkt) (detail : Nat) : Dev :=
  let d := if detail = 1 then (d.bump F.netCntTtl_count).raise 196 else d.bump F.netCntNoroute_count
  match vcClass vc with
  | .nonPosted => if d.noTransport then d.answerBack via k detail else d.answer k 5 detail
  | .posted => d.lostPosted 52 1
  | .response => d

/-- A node forwards a packet that is not addressed to it (R284, R285, R287). -/
def Dev.forward (d : Dev) (via : Via) (vc : Nat) (k : Pkt) : Dev :=
  if d.noTransport then d.noForward via vc k 2
  else if k.ttl = 0#8 then d.noForward via vc k 1
  else if k.esc then
    match d.escHop k.dst k.dn with
    | none => d.noForward via vc k 0
    | some (p, down) =>
      if d.fportUsable p then d.enqueue p (transitGroup via) ⟨.tp { k with ttl := k.ttl - 1, dn := k.dn || down }, (vcClass vc).escVc, pktSize k⟩
      else d.noForward via vc k 0
  else match d.normalHop k.dst k.flow with
    | none => d.noForward via vc k 0
    | some p => d.enqueue p (transitGroup via) ⟨.tp { k with ttl := k.ttl - 1 }, (vcClass vc).vc, pktSize k⟩

end Sys2Proof.Machine
end

