-- ==== Sys2Proof/Machine/Iso.lean ====
section
/-! DEFINITION. Keeping tenants apart (13): rate buckets, the local and fabric spoof checks, dirty marking, the egress scheduler's weights. -/
namespace Sys2Proof.Machine

/-! ### Rate buckets (R452 to R455, R474) -/

/-- The bucket of an instance, none where it has none (R417). -/
def Dev.bucketOf (d : Dev) (i : Nat) : Option Nat := let b := d.ig i 18 2; if b < 4096 then some b else none

/-- The limit registers of bucket b: j = 0 to 3 the out half's byte rate, byte burst, operation rate, operation burst, 4 to 7 the in half's (R477). -/
def bucketFld (b j : Nat) : Fld := ⟨R.insBucketLimits b + 4 * j, if j % 2 = 0 then 19 else 15, 0⟩

/-- The level register of quantity q of a bucket: out bytes, out milli-operations, in bytes, in milli-operations (R477). -/
def levelFld (b q : Nat) : Fld := F.insBucketLevel_level (4 * b + q)

/-- The rate of quantity q in force; 0 is not limited (R453, R455). -/
def Dev.bucketRate (d : Dev) (b q : Nat) : Nat := d.iso.rate.lk 0 (4 * b + q)

/-- The cap of quantity q: bytes in units of 4 KiB, operations counted as 1,000 (R453). -/
def Dev.bucketCap (d : Dev) (b q : Nat) : Nat := (d.g (bucketFld b (2 * q + 1)) + 1) * (if q % 2 = 0 then 4096 else 1000)

/-- What a request is charged in each quantity (R452). -/
def charges (k : Pkt) : List Nat :=
  let np := b2n (opClass k.opcode != some .posted)
  let op := k.opcode.toNat
  let inb := if op = 1 ∨ op = 4 ∨ op = 5 ∨ op = 6 then k.length.toNat else if op = 0xA then 16 else if op = 0x13 then 24 else 0
  [k.data.length, 1000, if np = 1 then inb else 0, 1000 * np]

/-- Quantity q of the bucket holds its charge, or is not limited (R453). -/
def Dev.holdsCharge (d : Dev) (b q c : Nat) : Bool := d.bucketRate b q = 0 || c ≤ d.g (levelFld b q)

/-- Every level a request is charged from holds its charge (R453). -/
def Dev.canPay (d : Dev) (i : Nat) (k : Pkt) : Bool := match d.bucketOf i with
  | none => true
  | some b => (List.range 4).all (fun q => d.holdsCharge b q (nth (charges k) q 0))

/-- The request waits only for in-half tokens (R454). -/
def Dev.waitsInOnly (d : Dev) (i : Nat) (k : Pkt) : Bool := match d.bucketOf i with
  | none => false
  | some b => !d.canPay i k && [0, 1].all (fun q => d.holdsCharge b q (nth (charges k) q 0))

/-- A request's charges are subtracted (R453). -/
def Dev.pay (d : Dev) (i : Nat) (k : Pkt) : Dev := match d.bucketOf i with
  | none => d
  | some b => d.each (List.range 4) (fun d q => if d.bucketRate b q = 0 then d else d.s (levelFld b q) (d.g (levelFld b q) - nth (charges k) q 0))

/-! ### Spoof checks (R446 to R449, R475) -/

/-- The first check of R446 that a request of the local design on port p fails, if any. -/
def Dev.localSpoof (d : Dev) (p : Nat) (k : Pkt) : Option Nat :=
  if k.src ≠ d.addr then some 1
  else if d.istate k.si ≠ 1 then some 2
  else if d.ig k.si 1 1 ≠ p then some 3
  else if k.srcInc ≠ d.incarnation then some 4
  else if k.flow ≠ flowHash k.src k.si k.dst k.key then some 5
  else if d.ig k.si 60 4 ≠ 0 ∧ d.ig k.si 60 4 ≤ (k.key - BitVec.ofNat 32 (d.ig k.si 56 4)).toNat then some 6
  else if k.dst ≠ d.addr ∧ !bitOf (d.ig k.si 64 8) (k.dst.toNat / 64) then some 7
  else none

/-- The first check of R447 that a request from the fabric or the turn path fails, if any; the turn path is checked too (R451). -/
def Dev.fabricSpoof (d : Dev) (k : Pkt) : Option Nat :=
  match d.claimInc k.src with
  | some i => if i ≠ k.srcInc then some 1 else if !bitOf (d.ig k.di 48 8) (k.src.toNat / 64) then some 2 else none
  | none => if !bitOf (d.ig k.di 48 8) (k.src.toNat / 64) then some 2 else none

/-- A refusal is counted for a path (0 to 3 the local ports, 4 the fabric) and an instance, and raised (R448). -/
def Dev.spoofCount (d : Dev) (path inst check : Nat) (posted : Bool) : Dev :=
  let d := d.bump (if posted then F.insSpoofPosted_posted path else F.insSpoofNp_np path)
  let d := (d.s (F.insSpoofLast_last_check path) check).s (F.insSpoofLast_last_inst path) inst
  let d := { d with ins := { d.ins with refused := d.ins.refused.upd 0 inst (fun n => satAdd 32 n 1) } }
  d.raise (if path < 4 then 232 else 233)

/-! ### Egress weights (R456, R458) -/

/-- The weight of a group at egress e (R456): an instance's, a transit group's, or 64 for VC7. -/
def Dev.groupWeight (d : Dev) (e id : Nat) : Nat :=
  if id < 4096 then d.ig id 2 1
  else if id = 0x2000 then 64
  else if e < 13 then d.g (F.insEgressCfg_transit_weight e) else 128

/-! ### Dirty marking (R459 to R461, R469) -/

/-- The granule size of a tracker (R477). -/
def Tracker.granule (t : Tracker) : Nat := let c := bget t.cfg 36 1; if c = 0 then 4096 else if c = 1 then 65536 else 2097152

/-- The range's start, number of granules and instance (R477). -/
def Tracker.base (t : Tracker) : Nat := bget t.cfg 0 8
@[inherit_doc Tracker.base] def Tracker.granules (t : Tracker) : Nat := bget t.cfg 32 4
@[inherit_doc Tracker.base] def Tracker.inst (t : Tracker) : Nat := bget t.cfg 38 2 % 4096

/-- The state of tracker t (R477): 0 free, 1 active, 2 switching, 3 aborted. -/
def Dev.dlState (d : Dev) (t : Nat) : Nat := d.g (F.insDlStatus_state t)

/-- One tracked write of tracker t to a host address (R459, R461): a bit newly set makes its 64-bit word due in the paired bitmap. -/
def Dev.markOne (d : Dev) (t : Nat) (tr : Tracker) (ha : Nat) : Dev :=
  if ha < tr.base ∨ tr.base + tr.granules * tr.granule ≤ ha then d.bump (F.insDlOutside_outside t)
  else
    let n := (ha - tr.base) / tr.granule
    let half := d.gb (F.insDlStatus_half t)
    let m := if half then tr.b else tr.a
    let old := m.lk 0#64 (n / 64)
    let tr' : Tracker :=
      if old.getLsbD (n % 64) then tr
      else
        let m' := m.put 0#64 (n / 64) (old ||| BitVec.ofNat 64 (2 ^ (n % 64)))
        let due (l : List Nat) : List Nat := if l.contains (n / 64) then l else l ++ [n / 64]
        if half then { tr with b := m', dirtyB := due tr.dirtyB } else { tr with a := m', dirtyA := due tr.dirtyA }
    (({ d with iso := { d.iso with dl := d.iso.dl.ins t tr' } }).stoMove 5 64).bump (F.insDlMarked_marked t)

/-- A write of instance i to a host address is marked by every tracker of the instance (R459). -/
def Dev.mark (d : Dev) (i ha : Nat) : Dev :=
  d.each d.iso.dl (fun d e => if e.2.inst = i && (d.dlState e.1 = 1 || d.dlState e.1 = 2) && !e.2.stop then d.markOne e.1 e.2 ha else d)

end Sys2Proof.Machine
end

