-- ==== Sys2Proof/Machine/Holds.lean ====
section
/-! DEFINITION. Holds at their home and at their owner (R322 to R325, R328 to R330), the twin hold among them (R629). -/
namespace Sys2Proof.Machine

/-- A local address that names a twin hold (R629). -/
def twinAddr (a : W64) : Bool := 0xFFFFFFFFFFFFF000 ≤ a.toNat && a.toNat % 64 = 0

/-- The request is for a twin hold: instance 0 of a node. -/
def isTwinHold (k : Pkt) : Bool := k.di = 0 && twinAddr k.addr

/-- The home entry of a hold. -/
def Dev.holdAt (d : Dev) (i : Nat) (a : W64) : Option HoldEnt := d.trn.home.find? (fun e => e.inst = i && e.addr = a)

/-- The home entries with one entry replaced or added. -/
def Dev.setHold (d : Dev) (e : HoldEnt) : Dev :=
  let l := d.trn.home
  let same (x : HoldEnt) : Bool := x.inst = e.inst && x.addr = e.addr
  let l' := if l.any same then l.map (fun x => if same x then e else x) else l ++ [e]
  { d with trn := { d.trn with home := l' } }

/-- The home entry of a hold freed. -/
def Dev.dropHold (d : Dev) (i : Nat) (a : W64) : Dev :=
  { d with trn := { d.trn with home := d.trn.home.filter (fun x => !(x.inst = i && x.addr = a)) } }

/-- The owned entries that HACQs of this node still under way may take: each outstanding or waiting HACQ that passes a test and names no entry owned already (R322, log entry 121). -/
def Dev.hacqFlight (d : Dev) (p : Pkt → Bool) : Nat :=
  let mine (k : Pkt) : Bool := k.opcode = 0x10#8 && p k && !d.trn.owned.contains ⟨k.si, k.dst.toNat, k.di, k.addr⟩
  (d.trn.tags.filter (fun e : Nat × FTag => mine e.2.pkt)).length + (d.trn.waits.filter (fun w => mine w.pkt)).length

/-- Entries of the node's pool in use: home and owned, those an HACQ under way may take, and the 64 a witness keeps for twin holds (R322, R629). -/
def Dev.holdsUsed (d : Dev) : Nat :=
  (d.trn.home.filter (fun e => !(d.twinMode = 3 && twinAddr e.addr))).length + d.trn.owned.length + d.hacqFlight (fun _ => true) + (if d.twinMode = 3 then 64 else 0)

/-- A hold released with a broken mark (R324). -/
def Dev.breakHold (d : Dev) (e : HoldEnt) : Dev :=
  (d.setHold { e with node := 0, owner := 0, inc := 0#32, lease := 0, held := false, broken := true }).bump F.trnCntHoldBroken_count

/-- The expiry of a hold's lease at its tick (R324, R330). -/
def Dev.expireHold (d : Dev) (e : HoldEnt) : Dev := ((d.breakHold e).bump F.trnCntHoldExpired_count).raise 205

/-- Where an operation and the expiry tick coincide, the tick goes first (R330). -/
def Dev.tickHold (d : Dev) (i : Nat) (a : W64) : Dev := match d.holdAt i a with
  | some e => if e.held && e.lease ≤ d.tallyMs then d.expireHold e else d
  | none => d

/-- The owner named by a request (R322). -/
def HoldEnt.ownedBy (e : HoldEnt) (k : Pkt) : Bool := e.held && e.node = k.src.toNat && e.owner = k.si && e.inc = k.srcInc

/-- The lease granted: cut to the longest, but for twin holds at a witness (R323, R629). -/
def Dev.leaseFor (d : Dev) (k : Pkt) : Nat :=
  if isTwinHold k then k.lease.toNat else min k.lease.toNat (d.g F.trnHoldCfg_max_lease)

/-- The owner's entry at the home, its lease starting now (R323). -/
def Dev.ownEntry (d : Dev) (k : Pkt) : HoldEnt :=
  ⟨k.di, k.addr, k.src.toNat, k.si, k.srcInc, d.tallyMs + d.leaseFor k, true, false⟩

/-- There is no free home entry (R322, R323). -/
def Dev.noHoldRoom (d : Dev) (k : Pkt) : Bool :=
  if isTwinHold k then 64 ≤ (d.trn.home.filter (fun e => twinAddr e.addr)).length else 65536 ≤ d.holdsUsed

/-- HACQ at the home (R323, R629). -/
def Dev.hacqAt (d : Dev) (k : Pkt) : Dev :=
  if isTwinHold k && d.twin.quiet then d.answerBusy k 1 255
  else
    let d := d.tickHold k.di k.addr
    match d.holdAt k.di k.addr with
    | none => if d.noHoldRoom k then (d.answerBusyFree k 2).raise 206 else (d.setHold (d.ownEntry k)).answer k 0 0
    | some e =>
      if !e.held then (d.setHold (d.ownEntry k)).answer k 0 1
      else if e.ownedBy k then (d.setHold (d.ownEntry k)).answer k 0 2
      else d.answerBusy k 1 (min 255 (e.lease - d.tallyMs))

/-- HREL at the home (R323). -/
def Dev.hrelAt (d : Dev) (k : Pkt) : Dev :=
  let d := d.tickHold k.di k.addr
  match d.holdAt k.di k.addr with
  | none => d.answer k 7 3
  | some e => if !e.held then d.answer k 7 3 else if e.ownedBy k then (d.dropHold k.di k.addr).answer k 0 0 else d.answer k 7 2

/-- HRENEW at the home (R323). -/
def Dev.hrenewAt (d : Dev) (k : Pkt) : Dev :=
  let d := d.tickHold k.di k.addr
  match d.holdAt k.di k.addr with
  | none => d.answer k 7 3
  | some e => if !e.held then d.answer k 7 3 else if e.ownedBy k then (d.setHold (d.ownEntry k)).answer k 0 0 else d.answer k 7 2

/-- The 24 bytes of an HQUERY answer (R323). -/
def hqueryBytes (now : Nat) (e : Option HoldEnt) : List Byte := match e with
  | none => bytesLE 24 0
  | some e => bytesLE 2 e.node ++ bytesLE 2 e.owner ++ bytesLE 4 e.inc.toNat ++ bytesLE 4 (e.lease - now) ++
      bytesLE 1 (b2n e.held + 2 * b2n e.broken) ++ bytesLE 11 0

/-- HQUERY at the home (R323). -/
def Dev.hqueryAt (d : Dev) (k : Pkt) : Dev :=
  let d := d.tickHold k.di k.addr
  d.respond k 1 0 (hqueryBytes d.tallyMs (d.holdAt k.di k.addr)) 0 (d.endGen k)

/-- HDROP at the home: naming the owner, it releases the hold with a broken mark (R324, R328). -/
def Dev.hdropAt (d : Dev) (k : Pkt) : Dev := match d.holdAt k.di k.addr with
  | none => d
  | some e =>
    if !e.held then d
    else if e.node ≠ k.src.toNat then d.bump F.trnCntMalformedPosted_count
    else if e.ownedBy k then d.breakHold e else d

/-- A hold opcode at its home (R323, R629): twin holds are served by a witness only. -/
def Dev.holdOp (d : Dev) (k : Pkt) : Dev :=
  if isTwinHold k && d.twinMode ≠ 3 then d.answer k 4 2
  else
    let op := k.opcode.toNat
    if op = 0x10 then d.hacqAt k else if op = 0x11 then d.hrelAt k else if op = 0x12 then d.hrenewAt k else d.hqueryAt k

/-- The owner's side: the owned entry a finished hold request leaves (R322). -/
def Dev.ownedAfter (d : Dev) (k : Pkt) (code : Nat) : Dev :=
  let e : OwnedEnt := ⟨k.si, k.dst.toNat, k.di, k.addr⟩
  let op := k.opcode.toNat
  if op = 0x10 ∧ code = 0 then
    if d.trn.owned.contains e then d else { d with trn := { d.trn with owned := d.trn.owned ++ [e] } }
  else if (op = 0x11 ∧ (code = 0 ∨ code = 7 ∨ code = 3)) ∨ (op = 0x12 ∧ (code = 7 ∨ code = 3)) then
    { d with trn := { d.trn with owned := d.trn.owned.filter (fun x => x ≠ e) } }
  else d

/-- The instance has no owned entry left for a new hold: its hold_quota, or the pool (R415, R417). -/
def Dev.noOwnRoom (d : Dev) (k : Pkt) : Bool :=
  k.opcode = 0x10#8 && !d.trn.owned.contains ⟨k.si, k.dst.toNat, k.di, k.addr⟩ &&
  (d.ig k.si 20 4 ≤ (d.trn.owned.filter (fun x => x.inst = k.si)).length + d.hacqFlight (fun j => j.si = k.si) || 65536 ≤ d.holdsUsed)

/-- An HDROP of this node for a hold an instance owned (R325, R329). -/
def Dev.hdropPkt (d : Dev) (e : OwnedEnt) : Pkt :=
  let dst := BitVec.ofNat 12 e.node
  ⟨dst, d.addr, flowHash d.addr e.inst dst 0#32, 255#8, false, false, 0x14#8, 0#8, 0#16, 0#8, 0#8, BitVec.ofNat 16 e.inst,
    BitVec.ofNat 16 e.home, 0#16, 0#32, e.addr, 0#16, 0#16, 0#8, 0#8, 0#16, d.incarnation, [], 0#14, 0#160⟩

/-- One HDROP is sent for an owned entry, and counted. -/
def Dev.sendHdrop (d : Dev) (e : OwnedEnt) : Dev := (d.sendPkt (d.hdropPkt e)).bump F.trnCntHoldDrop_count

/-- At an FLR or destroy the instance's owned entries are walked (R325). -/
def Dev.dropOwned (d : Dev) (i : Nat) : Dev :=
  let mine := d.trn.owned.filter (fun e => e.inst = i)
  let d := d.each mine Dev.sendHdrop
  { d with trn := { d.trn with owned := d.trn.owned.filter (fun e => e.inst ≠ i) } }

/-- At a destroy of a home instance its home entries are freed without marks (R325). -/
def Dev.freeHome (d : Dev) (i : Nat) : Dev := { d with trn := { d.trn with home := d.trn.home.filter (fun e => e.inst ≠ i) } }

/-- Every hold owned by a node is released with a broken mark (R324). -/
def Dev.breakNode (d : Dev) (node : Nat) : Dev :=
  d.each (d.trn.home.filter (fun e => e.held && e.node = node)) Dev.breakHold

end Sys2Proof.Machine
end

