-- ==== Sys2Proof/Machine/HostPath.lean ====
section
/-! DEFINITION. The path to host memory: AER reports (R367), inbound windows (R387), host-directed requests and their completions (R356 to R358), commons memory and the message ring (R429, R430, R432). -/
namespace Sys2Proof.Machine

/-! ### AER (R367; bit positions and register offsets from the Base Specification, log entry 11) -/

/-- A bit set in a configuration dword. -/
def Dev.orCfg (d : Dev) (fn off i : Nat) : Dev := d.setCfgBit fn off i true

/-- An error message of a function leaves: 0 correctable, 1 non-fatal, 2 fatal. -/
def Dev.errMsg (d : Dev) (fn sev : Nat) : Dev := d.emit (.err fn sev)

/-- A correctable error logged by a function, its ERR_COR sent where it is unmasked and enabled; the PF's mask and enable govern its VFs. -/
def Dev.aerCor (d : Dev) (fn bit : Nat) : Dev :=
  let d := (d.orCfg fn 0x110 bit).orCfg fn cfgDevCtl 16
  d.whenD (!d.cfgBit 0 0x114 bit && d.cfgBit 0 cfgDevCtl 0) (fun d => d.errMsg fn 0)

/-- An unmasked uncorrectable error is the first one that stands: the First Error Pointer names it, and for an error of a TLP the header log takes its header, which no command gives (a free value, log entry 11). -/
def Dev.aerFirst (d : Dev) (fn bit : Nat) : Dev :=
  let p := (d.cfgW fn 0x118).toNat % 32
  if d.cfgBit 0 0x108 bit || d.cfgBit fn 0x104 p then d
  else
    let d := d.setCfg fn 0x118 (BitVec.ofNat 32 bit)
    if [12, 15, 16, 18, 20].contains bit then
      let a := d.takeFree
      let b := a.2.takeFree
      let d := (b.2.setCfg fn 0x11C (a.1.setWidth 32)).setCfg fn 0x120 ((a.1 >>> 32).setWidth 32)
      (d.setCfg fn 0x124 (b.1.setWidth 32)).setCfg fn 0x128 ((b.1 >>> 32).setWidth 32)
    else d

/-- An uncorrectable error logged by a function: an advisory one is reported as correctable while its severity is non-fatal; the PF's mask, severity and enables govern its VFs. -/
def Dev.aerUnc (d : Dev) (fn bit : Nat) (advisory : Bool) : Dev :=
  let fatal := d.cfgBit 0 0x10C bit
  let d := (d.aerFirst fn bit).orCfg fn 0x104 bit
  if advisory && !fatal then
    let d := (d.orCfg fn 0x110 13).orCfg fn cfgDevCtl 16
    d.whenD (!d.cfgBit 0 0x108 bit && !d.cfgBit 0 0x114 13 && d.cfgBit 0 cfgDevCtl 0) (fun d => d.errMsg fn 0)
  else
    let d := d.orCfg fn cfgDevCtl (if fatal then 18 else 17)
    let serr := d.cfgBit 0 4 8
    d.whenD (!d.cfgBit 0 0x108 bit && (serr || d.cfgBit 0 cfgDevCtl (if fatal then 2 else 1))) (fun d =>
      (d.whenD serr (fun d => d.orCfg fn 4 30)).errMsg fn (if fatal then 2 else 1))

/-- A host request is answered Unsupported Request, or a posted one discarded as such (R352, R367). -/
def Dev.aerUr (d : Dev) (fn : Nat) (nonPosted : Bool) : Dev :=
  ((d.bump F.hstCntUr_count).orCfg fn cfgDevCtl 19).aerUnc fn 20 nonPosted

/-- A host request is answered Completer Abort (R352, R353, R367). -/
def Dev.aerCa (d : Dev) (fn : Nat) : Dev := (d.bump F.hstCntCa_count).aerUnc fn 15 true

/-- Max Payload Size and Max Read Request Size in force, in bytes (R347). -/
def Dev.mps (d : Dev) : Nat := 128 * 2 ^ ((d.cfgW 0 cfgDevCtl).toNat / 32 % 8)
@[inherit_doc Dev.mps] def Dev.mrrs (d : Dev) : Nat := 128 * 2 ^ ((d.cfgW 0 cfgDevCtl).toNat / 4096 % 8)

/-- The range of host-directed tags that the PF's enables permit (R357). -/
def Dev.hostTagRange (d : Dev) : Nat × Nat :=
  if d.cfgBit 0 cfgDevCtl3 2 && d.gb F.hstStatus_flit then (0, 16384)
  else if d.cfgBit 0 cfgDevCtl2 12 then (256, 1024)
  else if d.cfgBit 0 cfgDevCtl 8 then (0, 256)
  else (0, 32)

/-- The function may issue requests to host memory (R358). -/
def Dev.mayMaster (d : Dev) (fn : Nat) : Bool := d.cfgBit fn 4 2 && d.fnEnabled fn && !d.d3hot fn

/-- A span cut into pieces of at most `m` bytes, none crossing a 4 KiB boundary: (index, address, length) (R356). -/
def cutFrom (fuel i a n m : Nat) : List (Nat × Nat × Nat) :=
  match fuel with
  | 0 => []
  | fuel + 1 => if n = 0 then [] else
    let l := min n (min m (4096 - a % 4096))
    (i, a, l) :: cutFrom fuel (i + 1) (a + l) (n - l) m

/-- The pieces of a span of at most 4,096 bytes. -/
def cut (a n m : Nat) : List (Nat × Nat × Nat) := cutFrom 40 0 a n m

/-! ### Windows (R383) -/

/-- A window descriptor as words; an unwritten one is disabled. -/
def Dev.wdesc (d : Dev) (w : Nat) : List W64 := d.win.desc.lk (List.replicate 8 0#64) w

/-- The first window of instance i's range, of a kind, that covers an address: its index and descriptor (R383). -/
def Dev.winLookup (d : Dev) (i kind a : Nat) : Option (Nat × List W64) :=
  let lo := d.ig i 4 4
  List.find? (fun e : Nat × List W64 => lo ≤ e.1 && e.1 < lo + d.ig i 8 4 && bget e.2 32 2 % 4096 = i && bget e.2 34 1 = kind &&
    bget e.2 0 8 ≤ a && a < bget e.2 0 8 + bget e.2 8 8) d.win.desc

/-! ### Commons memory (R432) -/

/-- A byte of a commons page, zero where nothing was written (R134, log entry 12). -/
def Dev.memRd (d : Dev) (a : Nat) : Byte := SMap.lk d.ins.mem 0#8 a

/-- A byte of a commons page written. -/
def Dev.memWr (d : Dev) (a : Nat) (b : Byte) : Dev := { d with ins := { d.ins with mem := SMap.put d.ins.mem 0#8 a b } }

/-- Bytes written from an address on, in ascending order. -/
def Dev.memWrites (d : Dev) (a : Nat) (bs : List Byte) : Dev :=
  match bs with
  | [] => d
  | b :: t => (d.memWr a b).memWrites (a + 1) t

/-- The bytes of the whole units that an access of `n` bytes reaches (R158). -/
def unitBytes (a n : Nat) : Nat := 64 * ((a + n + 63) / 64 - a / 64)

/-- Bytes stored in the commons: a 64-byte unit written in full loses its error (R179). -/
def Dev.memStore (d : Dev) (a : Nat) (bs : List Byte) : Dev :=
  let d := (d.memWrites a bs).stoMove 2 (unitBytes a bs.length)
  if d.sto.errUnits.isEmpty then d
  else { d with sto := { d.sto with errUnits := d.sto.errUnits.keep (fun u _ => !(decide (a ≤ 64 * u) && decide (64 * u + 64 ≤ a + bs.length))) } }

/-- A commons page zeroed (R134, R423). -/
def Dev.memZero (d : Dev) (i : Nat) : Dev :=
  let d := { d with ins := { d.ins with mem := d.ins.mem.filter (fun e => e.1 / 65536 ≠ i) } }
  { d with sto := { d.sto with errUnits := d.sto.errUnits.keep (fun u _ => u / 1024 ≠ i) } }

/-! ### The message ring (R429, R430) -/

/-- The header of message j in the ring. -/
def msgHeader (k : Pkt) (j : Nat) (tally : W64) : List Byte :=
  bytesLE 2 k.src.toNat ++ bytesLE 2 k.si ++ bytesLE 4 k.key.toNat ++ bytesLE 2 k.length.toNat ++ bytesLE 2 0 ++ bytesLE 4 j ++
  bytesLE 8 tally.toNat ++ bytesLE 40 0

/-- The overflow bit of an instance's message ring (R430). -/
def Dev.ringOvf (d : Dev) (i : Nat) (b : Bool) : Dev := { d with ins := { d.ins with msgOvf := d.ins.msgOvf.put false i b } }

/-- A message written: payload, then header, then msg_prod advances and msg_vec fires (R430). -/
def Dev.msgRing (d : Dev) (k : Pkt) : Dev :=
  let d := d.touch 61 61
  let i := k.di
  let j := d.ig i 40 4
  let cons := d.ig i 128 4
  let a := i * 65536 + 0xC000 + j % 32 * 512
  let full := 32 ≤ (j + 2 ^ 32 - cons) % 2 ^ 32
  let d := d.memStore (a + 64) ((k.data ++ List.replicate 256 0#8).take 256)
  let d := d.memStore a (msgHeader k j d.tally)
  let d := d.isFlop i 40 4 ((j + 1) % 2 ^ 32)
  let d := d.whenD full (fun d => ((d.isFlop i 44 4 (satAdd 32 (d.ig i 44 4) 1)).ringOvf i true).raise 225)
  d.fireVec i (d.ig i 16 2)

/-- MSG and MSGA at an instance that is served (R429 to R431). -/
def Dev.message (d : Dev) (k : Pkt) : Dev :=
  if !bitOf (d.ig k.di 3 1) 0 then d.refuse k 4 2 (fun d => (d.bump F.insCntMsgRefused_count).raise 226)
  else
    let d := d.msgRing k
    if k.posted then d else d.answer k 0 0

/-! ### Requests to host memory (R356, R357) -/

/-- The inbound engine of an instance (R24): its block code and domain. -/
def inboundBlk (i : Nat) : Nat := 0x38 + i % 4

/-- The TLP of one piece of a host-directed non-posted request (R356). -/
def pieceTlp (o : HOp) (t : Nat) (a l : Nat) : Out :=
  let op := o.pkt.opcode.toNat
  let ad := BitVec.ofNat 64 a
  if op = 4 then .atomic o.fn t ad .fetchAdd o.pkt.data
  else if op = 5 then .atomic o.fn t ad .swap o.pkt.data
  else if op = 6 then .atomic o.fn t ad .cas o.pkt.data
  else .mrd o.fn t ad l

/-- One piece of an operation takes a tag and is issued. -/
def Dev.issuePiece (d : Dev) (id : Nat) (o : HOp) (p : Nat × Nat × Nat) (t : Nat) : Dev :=
  let d := { d with hst := { d.hst with tags := d.hst.tags.ins t ⟨id, p.1, o.fn, false⟩ } }
  d.enqueue 12 (d.groupOf o.pkt) ⟨.host (pieceTlp o t p.2.1 p.2.2), 4, 64⟩

/-- The pieces of an operation that find a tag are issued (R357); the rest wait (R36). -/
def Dev.issueOp (d : Dev) (id : Nat) : Dev := match d.hst.ops.find? id with
  | none => d
  | some o =>
    d.each o.todo (fun d p =>
      match d.hst.ops.find? id, d.hst.tags.freshFrom d.hostTagRange.1 d.hostTagRange.2 with
      | some o', some t =>
        if o'.todo.head? = some p then
          ({ d with hst := { d.hst with ops := d.hst.ops.ins id { o' with todo := o'.todo.drop 1 } } }).issuePiece id o p t
        else d
      | _, _ => d)

/-- Every waiting operation, oldest first, takes the host-directed tags there are (R36). -/
def Dev.pumpHost (d : Dev) : Dev := d.each d.hst.ops.keys Dev.issueOp

/-- A non-posted request to host memory (R356). -/
def Dev.hostNp (d : Dev) (via : Via) (k : Pkt) (ha : Nat) : Dev :=
  let ps := if k.opcode = 1#8 then cut ha k.length.toNat d.mrrs else [(0, ha, k.length.toNat)]
  let id := d.hst.opNext
  ({ d with hst := { d.hst with ops := d.hst.ops.ins id ⟨k, via, k.di, ps, ps.length, [], none⟩, opNext := id + 1 } }).issueOp id

/-- A write to host memory as MWr pieces (R356); a WRA is answered when the last has been issued. -/
def Dev.hostWr (d : Dev) (via : Via) (k : Pkt) (ha : Nat) : Dev :=
  let ps := cut ha k.length.toNat d.mps
  d.each ps (fun d p =>
    let o : Out := .mwr k.di (BitVec.ofNat 64 p.2.1) ((k.data.drop (p.2.1 - ha)).take p.2.2) k.poisoned
    let it : Item := if k.posted then .hostW o k via false else .hostW o k via (p.1 + 1 = ps.length)
    d.enqueue 12 (d.groupOf k) ⟨it, 6, 64 + p.2.2⟩)

/-- The permission bit a request needs of an inbound window: read, write or atomic (R387). -/
def permBit (op : Nat) : Nat := if op = 1 then 0 else if op = 2 ∨ op = 3 then 1 else 2

/-- A request whose local address an inbound window covers (R315, R358, R387, R459). -/
def Dev.inbound (d : Dev) (via : Via) (k : Pkt) (w : List W64) : Dev :=
  let d := d.touch (blockDomain (inboundBlk k.di)) (blockDomain (inboundBlk k.di))
  let a := k.addr.toNat
  let op := k.opcode.toNat
  let ha := (bget w 16 8 + (a - bget w 0 8)) % 2 ^ 64
  if !bitOf (bget w 35 1) (permBit op) || bget w 0 8 + bget w 8 8 < a + k.length.toNat then
    d.refuse k 7 1 (fun d => (d.bump F.winCntInDenied_count).raise 217)
  else
    let d := if op = 1 then d else d.mark k.di ha
    if d.blockClosing (inboundBlk k.di) || (d.pdSt (blockDomain (inboundBlk k.di))).shut then
      d.refuse k 3 1 (fun d => d.lostPosted (blockDomain (inboundBlk k.di)) 1)
    else if (op = 4 ∨ op = 5) ∧ k.length.toNat = 16 then d.answer k 4 2
    else if !d.mayMaster k.di then (d.bump F.hstCntBmeDenied_count).refuse k 7 1 id
    else if 4 ≤ op ∧ op ≤ 6 ∧ !d.cfgBit 0 cfgDevCtl2 6 then d.answer k 4 2
    else if op = 2 ∨ op = 3 then d.hostWr via k ha
    else d.hostNp via k ha

/-- An operation ends with its transport response, stamped with the inbound engine's generation (R302, R358). -/
def Dev.endOp (d : Dev) (id : Nat) (o : HOp) : Dev :=
  let d := { d with hst := { d.hst with ops := d.hst.ops.del id } }
  let data := o.data.vals.flatten
  let g := d.generation (inboundBlk o.fn)
  match o.fail with
  | none => d.respond o.pkt 1 0 data 0 g
  | some (c, dt) => if c = 6#8 then d.respond o.pkt 6 0 ((data ++ List.replicate o.pkt.length.toNat 0#8).take o.pkt.length.toNat) 0 g
      else d.respond o.pkt c.toNat dt.toNat [] 0 g

/-- One piece of an operation has ended, with its data or with a code (R356, R358). -/
def Dev.pieceDone (d : Dev) (h : HTag) (data : List Byte) (fail : Option (BitVec 8 × BitVec 8)) : Dev :=
  match d.hst.ops.find? h.op with
  | none => d
  | some o =>
    let o' : HOp := { o with data := o.data.ins h.piece data, left := o.left - 1, fail := if o.fail = none then fail else o.fail }
    if o'.left = 0 then d.endOp h.op o' else { d with hst := { d.hst with ops := d.hst.ops.ins h.op o' } }

/-- A host-directed tag is freed; a quarantined one stays taken until the next pitch (R179). -/
def Dev.freeHostTag (d : Dev) (t : Nat) : Dev :=
  if (d.sto.quar.find? (65536 + t)).isSome then
    { d with hst := { d.hst with tags := d.hst.tags.map (fun e : Nat × HTag => if e.1 = t then (e.1, { e.2 with stale := true }) else e) } }
  else { d with hst := { d.hst with tags := d.hst.tags.del t } }

/-- Every host-directed operation that passes a test ends with a code; its tags turn stale (R319, R365, R366). -/
def Dev.endOps (d : Dev) (p : HOp → Bool) (code detail : Nat) : Dev :=
  let gone := d.hst.ops.keep (fun _ o => p o)
  let d := d.each gone (fun d e => (({ d with hst := { d.hst with ops := d.hst.ops.del e.1 } }).respond e.2.pkt code detail [] 0 (d.generation (inboundBlk e.2.fn))))
  { d with hst := { d.hst with tags := d.hst.tags.map (fun t => if (gone.find? t.2.op).isSome then (t.1, { t.2 with stale := true }) else t) } }

end Sys2Proof.Machine
end

