-- ==== Sys2Proof/Machine/Source.lean ====
section
/-! DEFINITION. The source side of transport: admission of this node's requests (R36, R309, R310, R452 to R454), tags and lanes (R312), the end of a request at its requester (R308, R316, R318, R353). -/
namespace Sys2Proof.Machine

/-! ### Tags and lanes -/

/-- A key of three numbers and a 32-bit word, for a table of streams. -/
def streamKey (p a i key : Nat) : Nat := ((p * 4096 + a) * 4096 + i) * 2 ^ 32 + key

/-- The source-side lane of a packet: peer node and flow (R312). -/
def srcLane (k : Pkt) : Nat := k.dst.toNat * 65536 + k.flow.toNat

/-- The opcodes that bypass the resequencer take no lane sequence number: PROBE, HDROP (R312). -/
def bypassLane (k : Pkt) : Bool := k.opcode = 0x0A#8 || k.opcode = 0x14#8 || k.opcode = 0x80#8

/-- A lane is at hand for a packet: it needs none, holds an entry, or one is free (R312). -/
def Dev.laneReady (d : Dev) (k : Pkt) : Bool :=
  bypassLane k || (d.trn.srcLanes.find? (srcLane k)).isSome || d.trn.srcLanes.length < 4096

/-- The packet numbered in its lane; the first after an allocation opens the lane (R312). -/
def Dev.laneNumber (d : Dev) (k : Pkt) : Pkt × Dev :=
  let f := BitVec.ofNat 8 (setBit k.flags.toNat 3 false)
  if bypassLane k then ({ k with sseq := 0#16, flags := f }, d)
  else
    let n := d.trn.srcLanes.find? (srcLane k)
    let s := n.getD 0
    ({ k with sseq := BitVec.ofNat 16 s, flags := if n.isNone then BitVec.ofNat 8 (setBit k.flags.toNat 3 true) else f },
     { d with trn := { d.trn with srcLanes := d.trn.srcLanes.ins (srcLane k) ((s + 1) % 65536) } })

/-- The least number from `lo` on, below `hi`, that is neither in use nor quarantined (R179). -/
def freeTag (used : List Nat) (lo hi : Nat) : Option Nat :=
  let s : SMap Bool := used.foldl (fun m t => m.ins t true) []
  s.freshFrom lo hi

/-- A free fabric tag (R36). -/
def Dev.freshFabricTag (d : Dev) : Option Nat := freeTag (d.trn.tags.keys ++ (d.sto.quar.keys)) 0 65536

/-- A free local-port tag of port p: both directions share the 4,096 (R397). -/
def Dev.freshLocalTag (d : Dev) (p : Nat) : Option Nat :=
  freeTag (d.trn.ltags.keys ++ ((d.sto.quar.keys).filter (fun t => 131072 ≤ t)).map (· - 131072)) (p * 4096) ((p + 1) * 4096)

/-- A local-port tag freed: its use count advances. -/
def Dev.freeLocalTag (d : Dev) (x : Nat) : Dev :=
  { d with trn := { d.trn with ltags := d.trn.ltags.del x, luse := d.trn.luse.upd 0#8 x (· + 1) } }

/-- A fabric tag freed: its use count advances (R316). -/
def Dev.freeFabricTag (d : Dev) (t : Nat) : Dev :=
  { d with trn := { d.trn with tags := d.trn.tags.del t, use := d.trn.use.upd 0#8 t (· + 1) } }

/-! ### The end of a request at its requester -/

/-- Data cut into completions of at most `m` bytes, each after the first starting at a multiple of the Read Completion Boundary; `a` is the request's address (R353). -/
def cplCut (fuel a m rcb : Nat) (data : List Byte) : List (List Byte) := match fuel with
  | 0 => [data]
  | n + 1 =>
    if data.length ≤ m then [data]
    else
      let l := (a + m) / rcb * rcb - a
      data.take l :: cplCut n (a + l) m rcb (data.drop l)

/-- The Read Completion Boundary in force, by the PF's Link Control (R347). -/
def Dev.rcb (d : Dev) : Nat := if d.cfgBit 0 cfgLinkCtl 3 then 128 else 64

/-- The completions with data of a host request. -/
def Dev.completeData (d : Dev) (r : HReq) (data : List Byte) (ep : Bool) : Dev :=
  d.each (cplCut 64 r.addr d.mps d.rcb data) (fun d bs => d.completeHost (.cpl r.fn r.rt .sc bs ep))

/-- The completions a host request receives (R353). -/
def Dev.hostAnswer (d : Dev) (fn : Nat) (rt : BitVec 16) (code : Nat) (data : List Byte) : Dev :=
  let x := fn * 65536 + rt.toNat
  match d.hst.reqs.find? x with
  | none => d.bump F.hstCntLateFabric_count
  | some r =>
    let d := { d with hst := { d.hst with reqs := d.hst.reqs.del x } }
    if code = 0 ∨ code = 1 then d.completeData r data false
    else if code = 6 then d.completeData r data true
    else if code = 4 ∨ code = 5 then (d.aerUr fn true).completeHost (.cpl fn rt .ur [] false)
    else (d.aerCa fn).completeHost (.cpl fn rt .ca [] false)

/-- A request of this node ends with a response packet: the host request completes (R353), the local design receives its own tag back (R398), the twin engine takes note (R630, R632). -/
def Dev.finishWho (d : Dev) (w : Who) (k r : Pkt) : Dev :=
  let d := d.ownedAfter k r.code.toNat
  match w with
  | .host fn rt => d.hostAnswer fn rt r.code.toNat r.data
  | .loc p x t u =>
    let d := d.freeLocalTag x
    d.enqueue (8 + p) k.si ⟨.tp { r with tag := t, tagUse := u, ttl := 0#8, esc := false, dn := false }, 2, pktSize r⟩
  | .twin op => { d with twin := { d.twin with answers := d.twin.answers ++ [(op, r.code.toNat, r.detail.toNat, r.retryAfter.toNat)] } }
  | .line _ | .none => d

/-- A response made by this node for one of its own requests (R307). -/
def Dev.ownRsp (d : Dev) (k : Pkt) (code detail retry : Nat) : Pkt := rspOf k k.dst d.incarnation code detail [] retry 0#16

/-- The key of a request by its tag and the tag's use (R316, R318). -/
def pastKey (k : Pkt) : Nat := k.tag.toNat * 256 + k.tagUse.toNat

/-- An outstanding request ends with a code and its tag is freed. -/
def Dev.endTag (d : Dev) (t : Nat) (f : FTag) (code detail : Nat) : Dev :=
  let d := d.whenD (f.pkt.opcode = 0x10#8) (fun d => { d with trn := { d.trn with past := d.trn.past.ins (pastKey f.pkt) f.pkt } })
  (d.freeFabricTag t).finishWho f.who f.pkt (d.ownRsp f.pkt code detail 0)

/-! ### Admission -/

/-- Why a request waits behind earlier ones of its stream that wait: a BUSY retry holds all, else it waits for what the first of them waits for, so that a posted request still passes those waiting for a tag (R36, R309, R310). -/
def heldBehind (ws : List Wait) : Option WStage :=
  if ws.any (fun e => e.stage = .stream) then some .stream else ws.head?.map (·.stage)

/-- Why a request of this node must wait, if it must: the node's claim, tokens, an earlier request or a BUSY retry of its stream, an FLR of its instance, a local-port tag, a fabric tag, a lane (R36, R261, R309, R310, R423, R454). -/
def Dev.blockedAt (d : Dev) (before : List Wait) (w : Wait) (paid : Bool) : Option WStage :=
  let k := w.pkt
  let tokenQueue := before.any (fun e => !e.paid && e.stage ≠ .claim && e.pkt.si = k.si && !(k.posted && !e.pkt.posted && d.waitsInOnly e.pkt.si e.pkt))
  let sameStream (j : Pkt) : Bool := j.dst = k.dst && j.si = k.si && j.key = k.key
  let fromLocal : Bool := match w.who with
    | .loc _ _ _ _ => true
    | _ => false
  if !d.joined && !d.isSelf k.dst then some .claim
  else if fromLocal && d.inFlr k.si then some .stream
  else if !paid && (tokenQueue || !d.canPay k.si k) then some .tokens
  else if d.trn.tags.any (fun e => e.2.busyWait && sameStream e.2.pkt) then some .stream
  else match heldBehind (before.filter (fun e => sameStream e.pkt && (!k.posted || e.pkt.posted || e.stage = .stream))) with
  | some s => some s
  | none =>
  if !d.laneReady k then some .lane
  else if k.posted then none
  else
    let needLocal : Option Nat := match w.who with
      | .loc p _ _ _ => some p
      | _ => none
    if needLocal.isSome && (d.freshLocalTag (needLocal.getD 0)).isNone then some .localTag
    else if d.freshFabricTag.isNone then some .fabricTag
    else none

/-- A request leaves: a posted one at once, a non-posted one with its tags (R37, R302, R310, R398). A destination without a route is answered by this node (R285). -/
def Dev.launch (d : Dev) (w : Wait) : Dev :=
  if w.pkt.posted then
    let n := d.laneNumber { w.pkt with tag := 0#16, tagUse := 0#8 }
    n.2.sendPkt n.1
  else
    let lt : Option Nat := match w.who with
      | .loc p _ _ _ => d.freshLocalTag p
      | _ => none
    let who : Who := match w.who, lt with
      | .loc p _ t u, some x => .loc p x t u
      | o, _ => o
    let d := match lt with
      | some x => { d with trn := { d.trn with ltags := d.trn.ltags.ins x ⟨false, w.pkt, .turn, 0#16⟩ } }
      | none => d
    let t := d.freshFabricTag.getD 0
    let k : Pkt := { w.pkt with tag := BitVec.ofNat 16 t, tagUse := d.trn.use.lk 0#8 t }
    let d := { d with trn := { d.trn with tags := d.trn.tags.ins t ⟨k, who, false⟩, past := d.trn.past.del (pastKey k) } }
    if d.hasRoute k then
      let n := d.laneNumber k
      n.2.sendPkt n.1
    else (d.bump F.netCntNoroute_count).endTag t ⟨k, who, false⟩ 5 (if d.noTransport then 2 else 0)

/-- A waiting request is tried: it pays where it can, and leaves or keeps waiting. -/
def Dev.tryIssue (d : Dev) (before : List Wait) (w : Wait) : Dev × Option Wait :=
  match d.blockedAt before w w.paid with
  | some .claim => (d, some { w with stage := .claim })
  | some .tokens => (d, some { w with stage := .tokens })
  | some s => let d' := if w.paid then d else d.pay w.pkt.si w.pkt; (d', some { w with stage := s, paid := true })
  | none => ((if w.paid then d else d.pay w.pkt.si w.pkt).launch w, none)

/-- A request of this node that is not admitted ends with a code at its requester; the local design gets its own tag back. -/
def Dev.turnAway (d : Dev) (who : Who) (k : Pkt) (code detail retry : Nat) : Dev := match who with
  | .loc p _ t u => d.enqueue (8 + p) k.si ⟨.tp { d.ownRsp k code detail retry with tag := t, tagUse := u, ttl := 0#8 }, 2, 64⟩
  | _ => d.finishWho who k (d.ownRsp k code detail retry)

/-- A request of this node reaches admission (R36). Where its slice or the rate scheduler is closing it is GONE 1 (R145, R591). A hold request for which the instance has no owned entry left is answered BUSY 2 (R322, R415). -/
def Dev.submit (d : Dev) (who : Who) (k : Pkt) : Dev :=
  let d := d.touch (sliceDomain k.si) (sliceDomain k.si)
  if d.sliceShut k.si || d.blockClosing 0x41 then
    if k.posted then d.lostPosted (if d.sliceShut k.si then sliceDomain k.si else 62) 1 else d.turnAway who k 3 1 0
  else if d.noOwnRoom k then
    let r := d.takeFree
    (r.2.raise 206).turnAway who k 2 2 (r.1.toNat % 256)
  else
    let x := d.tryIssue d.trn.waits ⟨k, who, .tokens, false⟩
    match x.2 with
    | none => x.1
    | some w => { x.1 with trn := { x.1.trn with waits := x.1.trn.waits ++ [w] } }

/-- Every waiting request is tried in order (R36, R454). -/
def Dev.pump (d : Dev) : Dev :=
  let r := d.trn.waits.foldl (fun (a : Dev × List Wait) w =>
    let x := a.1.tryIssue a.2 w
    match x.2 with
    | none => (x.1, a.2)
    | some w' => (x.1, a.2 ++ [w'])) ({ d with trn := { d.trn with waits := [] } }, [])
  { r.1 with trn := { r.1.trn with waits := r.2 ++ r.1.trn.waits } }

/-- Every outstanding request of this node that passes a test ends with a code (R319, R321, R610). -/
def Dev.endTags (d : Dev) (p : FTag → Bool) (code detail : Nat) : Dev :=
  d.each d.trn.tags (fun d e => if p e.2 then d.endTag e.1 e.2 code detail else d)

/-! ### Responses (R308, R318, R327, R329) -/

/-- A late response: discarded, counted, F203 (R318); one that acquired a hold drops it again (R329). -/
def Dev.late (d : Dev) (r : Pkt) : Dev :=
  let d := d.lateRsp true
  match d.trn.past.find? (pastKey r) with
  | some k =>
    if k.dst = r.src && r.code = 0#8 then
      ({ d with trn := { d.trn with past := d.trn.past.del (pastKey r) } }).sendHdrop ⟨k.si, k.dst.toNat, k.di, k.addr⟩
    else d
  | none => d

/-- A response reaches the source endpoint (R308, R318, R327). -/
def Dev.response (d : Dev) (r : Pkt) : Dev :=
  let t := r.tag.toNat
  if (d.sto.quar.find? t).isSome then d
  else match d.trn.tags.find? t with
  | none => d.late r
  | some f =>
    if f.pkt.tagUse ≠ r.tagUse then d.late r
    else if !rspLegal r.code.toNat r.detail.toNat then d.lateRsp false
    else if r.code = 2#8 && (r.detail = 0#8 || r.detail = 3#8) then
      { d with trn := { d.trn with tags := d.trn.tags.ins t { f with busyWait := true } } }
    else ((d.freeFabricTag t).finishWho f.who f.pkt r).pump

/-- A request that was answered BUSY is sent again with the retried flag, keeping its tag (R308). -/
def Dev.retryTag (d : Dev) (t : Nat) : Dev := match d.trn.tags.find? t with
  | none => d
  | some f =>
    if !f.busyWait || !d.laneReady f.pkt then d
    else
      let k : Pkt := { f.pkt with flags := BitVec.ofNat 8 (setBit f.pkt.flags.toNat 2 true) }
      let d := ({ d with trn := { d.trn with tags := d.trn.tags.ins t ⟨k, f.who, false⟩ } }).bump F.trnCntBusyRetry_count
      if d.hasRoute k then
        let n := d.laneNumber k
        (n.2.sendPkt n.1).pump
      else ((d.bump F.netCntNoroute_count).endTag t ⟨k, f.who, false⟩ 5 (if d.noTransport then 2 else 0)).pump

end Sys2Proof.Machine
end

