-- ==== Sys2Proof/Machine/Transport.lean ====
section
/-! DEFINITION. The destination side of transport: requests to the local design (R388, R395 to R397), the checks and the meaning of every opcode (R304, R305, R311, R314, R326, R327, R419, R423), fences (R311, R331), lanes and the park (R312, R313), arrivals (R140, R285, R447, R609). -/
namespace Sys2Proof.Machine

/-! ### Requests delivered to the local design (R388, R395) -/

/-- The delivery streams of port p in use (R395). -/
def Dev.streamsOf (d : Dev) (p : Nat) : Nat := (d.trn.deliv.filter (fun e => e.1 / 2 ^ 56 = p)).length

/-- A request goes out to the local design on port p: numbered in its delivery stream, with a local-port tag where it is non-posted. -/
def Dev.deliverNow (d : Dev) (p : Nat) (via : Via) (k : Pkt) : Dev :=
  let x := streamKey p k.src.toNat k.si k.key.toNat
  let n := d.trn.deliv.find? x
  let s := n.getD 0
  let d := { d with trn := { d.trn with deliv := d.trn.deliv.ins x ((s + 1) % 65536) } }
  let f := BitVec.ofNat 8 (setBit k.flags.toNat 3 n.isNone)
  let q : Pkt := { k with sseq := BitVec.ofNat 16 s, flags := f, ttl := 0#8, esc := false, dn := false, tag := 0#16, tagUse := 0#8 }
  if k.posted then d.enqueue (8 + p) (d.groupOf k) ⟨.tp q, 6, pktSize k⟩
  else
    let t := (d.freshLocalTag p).getD (p * 4096)
    let u := d.trn.luse.lk 0#8 t
    let d := { d with trn := { d.trn with ltags := d.trn.ltags.ins t ⟨true, { k with sseq := BitVec.ofNat 16 0 }, via, d.generation (8 + p)⟩ } }
    d.enqueue (8 + p) (d.groupOf k) ⟨.tp { q with tag := BitVec.ofNat 16 (t % 4096), tagUse := u }, 4, pktSize k⟩

/-- A request for the local design on port p is delivered, or waits for a delivery stream or a tag (R36, R395, R397). -/
def Dev.deliver (d : Dev) (p : Nat) (via : Via) (k : Pkt) : Dev :=
  let q : LPort := ⟨p % 4, Nat.mod_lt _ (by decide)⟩
  let wait (r : AdmRes) : Dev := { d with trn := { d.trn with dwait := d.trn.dwait ++ [⟨k, via, r⟩] } }
  let x := streamKey p k.src.toNat k.si k.key.toNat
  if (d.trn.deliv.find? x).isNone && 1024 ≤ d.streamsOf p then wait (.deliveryStream q)
  else if !k.posted && (d.freshLocalTag p).isNone then wait (.localTag q)
  else d.deliverNow p via k

/-- A request for the local design (R388, R319, R591). -/
def Dev.toLocal (d : Dev) (via : Via) (k : Pkt) : Dev :=
  let p := d.ig k.di 1 1
  if 4 ≤ p || d.lpAbsent p then
    d.refuse k 4 2 (fun d => ((d.bump F.winCntInNolocal_count).lostPosted (sliceDomain k.di) 1).raise 218)
  else if d.blockClosing (8 + p) || (d.pdSt (27 + p)).shut then
    d.refuse k 3 1 (fun d => d.lostPosted (27 + p) 1)
  else d.deliver p via k

/-- Requests waiting for a delivery stream or a local-port tag are tried again, in order (R36). -/
def Dev.pumpLocal (d : Dev) : Dev :=
  let ws := d.trn.dwait
  ({ d with trn := { d.trn with dwait := [] } }).each ws (fun d w => match w.res with
    | .deliveryStream p | .localTag p => d.deliver p.val w.via w.pkt
    | _ => d)

/-! ### Checks on a request (R314, R326, R327) -/

/-- A malformed request (R314, R323). -/
def malformed (k : Pkt) : Bool :=
  let op := k.opcode.toNat
  let n := k.length.toNat
  let sz := k.data.length
  let a := k.addr.toNat
  let rng (lo hi : Nat) : Bool := lo ≤ n && n ≤ hi
  let atom : Bool := (n = 8 || n = 16) && a % n = 0
  (4096 ≤ k.srcInst.toNat || 4096 ≤ k.dstInst.toNat) ||
  (match op with
   | 1 => !(rng 1 4096 && sz = 0 && a % 4096 + n ≤ 4096)
   | 2 | 3 => !(rng 1 4096 && sz = n && a % 4096 + n ≤ 4096)
   | 4 | 5 => !(atom && sz = n)
   | 6 => !(atom && sz = 2 * n)
   | 7 | 8 => !(rng 1 256 && sz = n)
   | 9 | 0xA => !(n = 0 && sz = 0)
   | 0x10 | 0x12 => !(n = 0 && sz = 0 && a % 64 = 0 && k.lease ≠ 0#16)
   | 0x11 | 0x13 | 0x14 => !(n = 0 && sz = 0 && a % 64 = 0)
   | _ => false)

/-- An undefined opcode, by its class (R326). -/
def Dev.undefOp (d : Dev) (cls : PClass) (k : Pkt) : Dev := match cls with
  | .nonPosted => d.answer k 4 0
  | .posted => (d.bump F.trnCntUndefPosted_count).raise 200
  | .response => d.lateRsp false

/-- A malformed request, or one with a reserved encoding, by the class of its VC (R326, R327); `detail` 1 or 3. -/
def Dev.badReq (d : Dev) (cls : PClass) (k : Pkt) (detail : Nat) : Dev := match cls with
  | .nonPosted => d.answer k 4 detail
  | .posted => (d.bump F.trnCntMalformedPosted_count).raise 201
  | .response => d.lateRsp false

/-! ### The state of the destination instance (R419, R423, R591, R630) -/

/-- A node that is orphan answers new requests to its tenants BUSY 3 (R630). -/
def Dev.orphanTenant (d : Dev) (i : Nat) : Bool := d.g F.pitTwinStatus_role = 5 && i ≠ 0

/-- Posted requests to an instance that cannot take them are discarded, counted, logged and raised (R423). -/
def Dev.discardPosted (d : Dev) (i : Nat) : Dev := (d.lostPosted (sliceDomain i) 1).raise 227

/-- What the state of the destination instance makes of a request: none where it is served. -/
def Dev.instGate (d : Dev) (k : Pkt) : Option Dev :=
  let i := k.di
  match d.ins.flr.find? i with
  | some f => some (d.refuse k 3 (if f.destroy then 0 else 5) (fun d => d.discardPosted i))
  | none =>
    if d.sliceShut i then some (d.refuse k 3 1 (fun d => d.lostPosted (sliceDomain i) 1))
    else match d.istate i with
    | 0 => some (d.refuse k 3 0 (fun d => d.discardPosted i))
    | 3 => some (d.refuse k 3 4 (fun d => d.discardPosted i))
    | 2 => some (if k.posted then d.lostPosted (sliceDomain i) 1 else d.answerBusyFree k 3)
    | _ => if d.orphanTenant i then some (if k.posted then d.lostPosted (sliceDomain i) 1 else d.answerBusyFree k 3) else none

/-! ### Fences (R311) -/

/-- A request lies in the scope of another: its stream, and with the wide flag of a FENCE every stream of its source instance (R311). -/
def inFence (f j : Pkt) : Bool := if f.opcode = 9#8 && f.wide then f.src = j.src && f.si = j.si else f.stream = j.stream

/-- One of two requests lies in the scope of the other, so that they keep their order (R311). -/
def related (a b : Pkt) : Bool := inFence a b || inFence b a

/-- A stream triple lies in the scope of a fence. -/
def tripleInFence (f : Pkt) (t : Option (Nat × Nat × Nat)) : Bool := match t with
  | none => false
  | some t => if f.opcode = 9#8 && f.wide then f.src.toNat = t.1 && f.si = t.2.1 else f.stream = t

/-- A queued item holds an earlier request of the fence's scope not yet delivered. -/
def itemInFence (f : Pkt) (q : QEnt) : Bool := match q.item with
  | .tp j => j.opcode ≠ 0x80#8 && inFence f j
  | .hostW _ j _ _ => inFence f j
  | .raw _ | .host _ => false

/-- An egress holds an earlier request of the fence's scope. -/
def Egress.inFence (e : Egress) (f : Pkt) : Bool := e.groups.any (fun g => g.q.any (itemInFence f))

/-- A port's link layer holds a request of the fence's scope that the local design has not acknowledged. -/
def Link.inFence (l : Link) (f : Pkt) : Bool :=
  l.near.any (fun t => t.posted && tripleInFence f t.scope) || l.far.any (fun t => t.posted && tripleInFence f t.scope) ||
  l.txq.any (fun e => e.2.any (fun t => tripleInFence f t.scope))

/-- Every earlier request of the fence's scope has been delivered or answered (R311). -/
def Dev.fenceClear (d : Dev) (f : Pkt) : Bool :=
  !(d.hst.ops.any (fun e => inFence f e.2.pkt) || d.trn.dwait.any (fun w => inFence f w.pkt) ||
    d.trn.ltags.any (fun e => e.2.deliver && inFence f e.2.pkt) || (d.egress 12).inFence f ||
    [8, 9, 10, 11].any (fun e => (d.egress e).inFence f) ||
    [8, 9, 10, 11].any (fun p => match d.ports.find? p with
      | some x => x.link.inFence f
      | none => false) ||
    (f.wide && d.trn.park.any (fun q => inFence f q.pkt)))

/-! ### Order across targets (R311) -/

/-- Where a request takes effect: at this endpoint, in host memory by an instance, at the local design of a port. -/
inductive Target where
  | endpoint
  | host (i : Nat)
  | lp (p : Nat)
  deriving DecidableEq, Repr

/-- The target of a request (R28, R387, R388). -/
def Dev.targetOf (d : Dev) (k : Pkt) : Target :=
  let op := k.opcode.toNat
  if 1 ≤ op ∧ op ≤ 6 then (if (d.winLookup k.di 2 k.addr.toNat).isSome then .host k.di else .lp (d.ig k.di 1 1)) else .endpoint

/-- An earlier request of the stream has not taken effect, on a path that would not keep the order of the two: reads and atomics in host memory until they are answered; writes to host memory behind another instance; what a local port has not delivered or its design not answered, but for a request to the same port, whose order the design keeps (R311, R395, log entry 120). -/
def Dev.pendingElsewhere (d : Dev) (k : Pkt) (t : Target) : Bool :=
  let same (j : Pkt) : Bool := j.opcode ≠ 0x80#8 && j.stream = k.stream
  let hostW (q : QEnt) : Bool := match q.item with
    | .hostW _ j _ _ => same j && t ≠ .host j.di
    | .tp _ | .raw _ | .host _ => false
  let toLp (q : QEnt) : Bool := match q.item with
    | .tp j => same j
    | .hostW _ _ _ _ | .raw _ | .host _ => false
  d.hst.ops.any (fun e => same e.2.pkt) ||
  (d.egress 12).groups.any (fun g => g.q.any hostW) ||
  [0, 1, 2, 3].any (fun p => t ≠ .lp p && (
    d.trn.dwait.any (fun w => same w.pkt && d.ig w.pkt.di 1 1 = p) ||
    d.trn.ltags.any (fun e => e.2.deliver && e.1 / 4096 = p && same e.2.pkt) ||
    (d.egress (8 + p)).groups.any (fun g => g.q.any toLp) ||
    (match d.ports.find? (8 + p) with
      | some x => x.link.near.any (fun f => f.posted && f.scope = some k.stream) || x.link.far.any (fun f => f.posted && f.scope = some k.stream) ||
        x.link.txq.any (fun e => e.2.any (fun f => f.scope = some k.stream))
      | none => false)))

/-! ### The meaning of a request at its destination -/

/-- The 16 bytes of a PROBE answer (R305). -/
def Dev.probeBytes (d : Dev) (i : Nat) : List Byte :=
  bytesLE 4 d.incarnation.toNat ++ bytesLE 2 (d.sliceGen i).toNat ++ bytesLE 1 (d.istate i) ++ bytesLE 1 0 ++ bytesLE 8 d.serial.toNat

/-- RD, WRP, WRA and the atomics: to host memory where an inbound window covers the address, else to the local design (R29, R387, R388). -/
def Dev.memoryOp (d : Dev) (via : Via) (k : Pkt) : Dev := match d.winLookup k.di 2 k.addr.toNat with
  | some w => d.inbound via k w.2
  | none => d.toLocal via k

/-- A well-formed request of a served instance is performed (R304, R387). -/
def Dev.serve (d : Dev) (via : Via) (k : Pkt) : Dev :=
  let op := k.opcode.toNat
  if op = 7 ∨ op = 8 then
    if d.blockClosing 0x40 then d.refuse k 3 1 (fun d => d.lostPosted 61 1) else d.message k
  else if op = 9 then { d with trn := { d.trn with fences := d.trn.fences ++ [⟨k, via, .sourceLane⟩] } }
  else if 0x10 ≤ op ∧ op ≤ 0x13 then d.holdOp k
  else d.memoryOp via k

/-- A request is performed at its destination (R311, R326, R327): it waits behind a pending fence or an earlier request that it keeps its order with, where that one has not taken effect. -/
def Dev.perform (d : Dev) (via : Via) (vc : Nat) (k : Pkt) : Dev :=
  let d := d.touch (sliceDomain k.di) (sliceDomain k.di)
  match opClass k.opcode with
  | none => d.undefOp (vcClass vc) k
  | some c =>
    if c ≠ vcClass vc || malformed k then d.badReq (vcClass vc) k 1
    else if reservedEnc k then d.badReq (vcClass vc) k 3
    else if k.opcode = 0xA#8 then d.respond k 1 0 (d.probeBytes k.di) 0 (d.sliceGen k.di)
    else if k.opcode = 0x14#8 then
      if (d.ins.flr.find? k.di).isSome || d.istate k.di = 0 || d.istate k.di = 3 then d.discardPosted k.di else d.hdropAt k
    else if d.trn.fences.any (fun f => related f.pkt k) || d.trn.behind.any (fun q => related q.pkt k) || (k.opcode ≠ 9#8 && d.pendingElsewhere k (d.targetOf k)) then
      { d with trn := { d.trn with behind := d.trn.behind ++ [⟨0, via, vc, k⟩] } }
    else match d.instGate k with
    | some d' => d'
    | none => d.serve via k

/-- One pass over the pending fences: those whose scope is clear answer CPL (R311). -/
def Dev.fencePass (d : Dev) : Dev :=
  d.each d.trn.fences (fun d f =>
    if d.fenceClear f.pkt then ({ d with trn := { d.trn with fences := d.trn.fences.filter (fun x => x ≠ f) } }).answer f.pkt 0 0 else d)

/-- Fences that can complete do, and what waited behind them is performed, in order (R311). -/
def Dev.pumpFences (d : Dev) : Dev :=
  if d.trn.fences.isEmpty && d.trn.behind.isEmpty then d
  else
    let d := d.fencePass
    let b := d.trn.behind
    ({ d with trn := { d.trn with behind := [] } }).each b (fun d q => d.perform q.via q.vc q.pkt)

/-! ### Lanes at the destination (R312, R313) -/

/-- The parked packet of a lane with a sequence number. -/
def Dev.parkedAt (d : Dev) (lane s : Nat) : Option Parked := d.trn.park.find? (fun q => q.key = lane && q.pkt.sseq.toNat = s)

/-- A parked packet leaves the park. -/
def Dev.unpark (d : Dev) (q : Parked) : Dev := { d with trn := { d.trn with park := d.trn.park.erase q } }

/-- The expected sequence number of a lane set; the entry also holds the microsecond of its last use, above bit 16. -/
def Dev.setLane (d : Dev) (lane e : Nat) : Dev :=
  { d with trn := { d.trn with dstLanes := d.trn.dstLanes.ins lane (e % 65536 + 65536 * d.now) } }

/-- The expected sequence number of a lane that has an entry. -/
def Dev.laneExp (d : Dev) (lane : Nat) : Option Nat := (d.trn.dstLanes.find? lane).map (· % 65536)

/-- Parked packets of a lane are performed while their sequence number is the expected one. -/
def Dev.drainLane (d : Dev) (fuel : Nat) (lane : Nat) : Dev :=
  match fuel with
  | 0 => d
  | fuel + 1 => match d.laneExp lane with
    | none => d
    | some e => match d.parkedAt lane e with
      | none => d
      | some q => Dev.drainLane (((d.unpark q).setLane lane (e + 1)).perform q.via q.vc q.pkt) fuel lane

/-- An order break (R313). -/
def Dev.orderBreak (d : Dev) : Dev := (d.bump F.trnCntOrderBreak_count).raise 204

/-- The older of two entries, by their last use. -/
def olderEntry (a : Option (Nat × Nat)) (b : Nat × Nat) : Option (Nat × Nat) := match a with
  | none => some b
  | some a => if b.2 / 65536 < a.2 / 65536 then some b else some a

/-- A destination lane entry can be made: one is free, or the oldest of those idle for 2 ms with nothing parked is evicted (R313). -/
def Dev.laneRoom (d : Dev) : Option Dev :=
  if d.trn.dstLanes.length < 4096 then some d
  else
    let idle := d.trn.dstLanes.keep (fun l e => e / 65536 + 2000 ≤ d.now && !d.trn.park.any (fun q => q.key = l))
    (idle.foldl olderEntry none).map (fun e => { d with trn := { d.trn with dstLanes := d.trn.dstLanes.del e.1 } })

/-- A request is put in the order of its lane (R313); what travels as a response bypasses it (R312). -/
def Dev.resequence (d : Dev) (via : Via) (vc : Nat) (k : Pkt) : Dev :=
  if bypassLane k || vcClass vc = .response then d.perform via vc k
  else
    let lane := k.lane
    let s := k.sseq.toNat
    let d := if k.laneOpen then
        match d.laneExp lane with
        | some _ => d.setLane lane 0
        | none => match d.laneRoom with
          | some d' => d'.setLane lane 0
          | none => d
      else d
    match d.laneExp lane with
    | none =>
      if k.laneOpen then d.perform via vc k
      else match d.laneRoom with
      | some d' => (d'.setLane lane (s + 1)).perform via vc k
      | none => d.perform via vc k
    | some e =>
      let dd := (s + 65536 - e) % 65536
      if dd = 0 then ((d.setLane lane (e + 1)).perform via vc k).drainLane 33 lane
      else if dd < 32768 then
        if d.trn.park.length < 32 then { d with trn := { d.trn with park := d.trn.park ++ [⟨lane, via, vc, k⟩] } }
        else d.orderBreak.perform via vc k
      else d.orderBreak.perform via vc k

/-- A lane stalled for 1 ms skips to its lowest parked packet (R313). -/
def Dev.gapSkipLane (d : Dev) (lane : Nat) : Dev :=
  match d.laneExp lane with
  | none => d
  | some e =>
    let dist (q : Parked) : Nat := (q.pkt.sseq.toNat + 65536 - e) % 65536
    let low := (d.trn.park.filter (fun q => q.key = lane)).foldl (fun (a : Option Nat) q => match a with
      | none => some (dist q)
      | some m => some (min m (dist q))) none
    match low with
    | none => d
    | some m => (((d.bump F.trnCntGapSkip_count).raise 204).setLane lane (e + m)).drainLane 33 lane

/-! ### Arrivals -/

/-- The packet that a port's receive side, or the turn path, has handed over leaves its list (log entry 15). -/
def Dev.consume (d : Dev) (via : Via) (k : Pkt) : Dev := match via with
  | .turn => { d with iso := { d.iso with turn := d.iso.turn.erase k } }
  | .fabric p => match d.ports.find? p.val with
    | some x => { d with ports := d.ports.ins p.val { x with link := { x.link with done := x.link.done.eraseP (fun e => e.2 = pktBytes k) } } }
    | none => d
  | .loc p => match d.ports.find? (8 + p.val) with
    | some x => { d with ports := d.ports.ins (8 + p.val) { x with link := { x.link with done := x.link.done.eraseP (fun e => e.2 = pktBytes k) } } }
    | none => d

/-- The domain that loses a posted request discarded in a Bivouac drain (R609). -/
def ingressDomain (v : Via) : Nat := match v with
  | .fabric p => linkDomain p.val
  | .loc p => linkDomain (8 + p.val)
  | .turn => 52

/-- Admission is closed: the Bivouac drain (R609). -/
def Dev.draining (d : Dev) : Bool := d.bvc.phase = .drain

/-- The cold restore of a discard runs: the node serves nothing (R621). -/
def Dev.restoring (d : Dev) : Bool := d.g F.pitResumeStatus_state = 4

/-- A request refused by R447 (R448). -/
def Dev.fabricRefused (d : Dev) (vc : Nat) (k : Pkt) (check : Nat) : Dev :=
  let d := d.spoofCount 4 k.di check (vcClass vc = .posted)
  if vcClass vc = .nonPosted then d.answer k 7 0 else d

/-- A request arrives on a fabric port or on the turn path, which makes the same checks (R31, R140, R284, R285, R447, R609); a packet on a response VC is no request. -/
def Dev.arrive (d : Dev) (via : Via) (vc : Nat) (k : Pkt) : Dev :=
  let d := d.consume via k
  let posted := vcClass vc = .posted
  if vcClass vc = .response then (if d.isSelf k.dst then d.resequence via vc k else d.forward via vc k)
  else if !d.joined then
    let d := d.bump F.pitFirstCounts_busy
    if posted then d.lostPosted 52 1 else d.answerBusy k 0 10
  else if d.draining then
    if posted then d.lostPosted (ingressDomain via) 1 else d.answerBusy k 0 50
  else if !d.isSelf k.dst then d.forward via vc k
  else if d.noTransport then d.noForward via vc k 2
  else if d.restoring then (if posted then d.lostPosted (sliceDomain k.di) 1 else d.answerBusyFree k 0)
  else match d.fabricSpoof k with
    | some c => d.fabricRefused vc k c
    | none => d.resequence via vc k

/-- A response arrives: forwarded, or matched at its source endpoint (R284, R318). -/
def Dev.arriveRsp (d : Dev) (via : Via) (k : Pkt) : Dev :=
  let d := d.consume via k
  if !d.isSelf k.dst then d.forward via 2 k else d.response k

/-! ### Answers of the local design (R396, R409, R449) -/

/-- The codes a local design may answer with (R396). -/
def localCode (code detail : Nat) : Bool :=
  (code = 0 && detail = 0) || (code = 1 && detail = 0) || (code = 6 && detail = 0) || (code = 2 && detail = 0) || (code = 3 && detail = 0) ||
  (code = 4 && detail ≤ 3) || (code = 7 && detail = 1)

/-- A response of the local design on port p goes back to the requester (R317, R318, R320, R396, R449). -/
def Dev.localAnswer (d : Dev) (p : Nat) (r : Pkt) : Dev :=
  let t := p * 4096 + r.tag.toNat
  if (d.sto.quar.find? (131072 + t)).isSome then d
  else match (if r.tag.toNat < 4096 then d.trn.ltags.find? t else none) with
  | none => d.lateRsp true
  | some l =>
    if !l.deliver || r.tagUse ≠ d.trn.luse.lk 0#8 t then d.lateRsp true
    else if r.si ≠ l.pkt.di then
      let d := (d.lateRsp true).bump (F.insSpoofNp_np p)
      ((d.s (F.insSpoofLast_last_check p) 8).s (F.insSpoofLast_last_inst p) r.si).raise 232
    else if !localCode r.code.toNat r.detail.toNat then d.lateRsp false
    else
      let d := d.freeLocalTag t
      if l.gen ≠ d.generation (8 + p) then d.lateRsp false
      else
        let data := if r.code = 1#8 || r.code = 6#8 then r.data else []
        ((d.respond l.pkt r.code.toNat r.detail.toNat data r.retryAfter.toNat l.gen).pumpLocal).pump

/-- A delivered request whose local answer is overdue is answered GONE 2 (R317). -/
def Dev.localTagExpired (d : Dev) (t : Nat) : Dev := match d.trn.ltags.find? t with
  | none => d
  | some l => if l.deliver then (((d.freeLocalTag t).respond l.pkt 3 2 [] 0 l.gen).pumpLocal).pump else d

/-! ### Ends of held requests (R319, R592) -/

/-- The requests a local port's design holds are answered GONE with a detail; gives how many. -/
def Dev.endLocalTags (d : Dev) (p detail : Nat) : Nat × Dev :=
  let mine := d.trn.ltags.keep (fun t l => t / 4096 = p && l.deliver)
  (mine.length, d.each mine (fun d e => (d.freeLocalTag e.1).respond e.2.pkt 3 detail [] 0 e.2.gen))

/-- Every GONE synthesised at a reset is counted, and F207 raised once where there was any (R319). -/
def Dev.goneSynth (d : Dev) (n : Nat) : Dev :=
  if n = 0 then d else (d.bumpBy F.trnCntGoneSynth_count n).raise 207

/-- An incarnation change of a node (R321, R324): outstanding requests end with GONE 3, its lanes are cleared, its holds broken; what the lanes had parked carries the old incarnation and is refused (R447). -/
def Dev.incarnationChanged (d : Dev) (node : Addr) : Dev :=
  let n := (d.trn.tags.filter (fun e => e.2.pkt.dst = node)).length
  let d := (d.bumpBy F.trnCntIncarnGone_count n).endTags (fun f => f.pkt.dst = node) 3 3
  let old := d.trn.park.filter (fun q => q.key / 65536 = node.toNat)
  let d := { d with trn := { d.trn with
    srcLanes := d.trn.srcLanes.keep (fun l _ => l / 65536 ≠ node.toNat),
    dstLanes := d.trn.dstLanes.keep (fun l _ => l / 65536 ≠ node.toNat),
    park := d.trn.park.filter (fun q => q.key / 65536 ≠ node.toNat) } }
  let d := d.each old (fun d q => d.fabricRefused q.vc q.pkt 1)
  (d.breakNode node.toNat).pump

end Sys2Proof.Machine
end

