-- ==== Sys2Proof/Machine/Write.lean ====
section
/-! DEFINITION. Writes to control space: the judgement of a write by its access codes (R19, R40, R41, R111, R112, R576), the authority matrix (R557), the gates before it (R47, R48, R152, R352, R535), and its record (R558 to R568). -/
namespace Sys2Proof.Machine

/-- A write as one access makes it: origin, record space, function, byte offset, width, byte enables, data as written. -/
structure WCtx where
  org : Origin
  space : Nat
  fn : Nat
  off : Nat
  wide : Bool
  be : Nat
  data : W64

/-- The judgement of a write: accepted with its old and new values, its dropped reserved bits, its exemption from a record and its effect; refused; refused with a status to report; accepted with a group of records (R561); without effect or record; unmapped. -/
inductive WOut where
  | ok (old new : W64) (resv exempt : Bool) (eff : Dev → Dev)
  | bad (old : W64) (resv exempt : Bool)
  | badEff (old : W64) (eff : Dev → Dev)
  | group (space tgt : Nat) (olds news : List W64) (eff : Dev → Dev)
  | none
  | unmapped

/-- The target field of a record of spaces 0 to 3 (R564). -/
def WCtx.target (c : WCtx) : W64 :=
  BitVec.ofNat 64 (c.off % 2 ^ 24 + c.fn * 2 ^ 24 + b2n c.wide * 2 ^ 40 + (if c.wide then 15 else c.be) * 2 ^ 44)

/-- The record of a write (R562). -/
def Dev.recOf (d : Dev) (c : WCtx) (flags : Nat) (old new : W64) : Rec :=
  ⟨d.tally, c.org, c.space, BitVec.ofNat 16 flags, c.target, old, new, c.data⟩

/-- One record of a group: word `i` of `n` (R561, R564). -/
def Dev.logWord (d : Dev) (org : Origin) (space tgt n i : Nat) (old new : W64) : Dev :=
  let flags := 0x80 + (if i = 0 then 0x40 else 0) + 1024 * b2n (old = new)
  let t := if space = 0 then tgt + 8 * i + 2 ^ 40 + 15 * 2 ^ 44 else tgt + i * 2 ^ 48 + (n - 1) * 2 ^ 52
  d.log ⟨d.tally, org, space, BitVec.ofNat 16 flags, BitVec.ofNat 64 t, old, new, if space = 0 then new else 0#64⟩

/-- The records of a group, in ascending word order (R561): of a window or instance descriptor, or of staged tracker words (space 0). -/
def Dev.logGroup (d : Dev) (org : Origin) (space tgt n i : Nat) (olds news : List W64) : Dev :=
  match olds, news with
  | o :: ot, x :: xt => (d.logWord org space tgt n i o x).logGroup org space tgt n (i + 1) ot xt
  | _, _ => d

/-- A write takes its outcome (R558, R560, R568, R575): status 0 done, 1 refused, 2 unmapped (R401). -/
def Dev.commitS (d : Dev) (c : WCtx) (o : WOut) : Dev × Nat :=
  let room := !c.org.software || d.swRoom 1
  match o with
  | .ok old new resv exempt eff =>
    if exempt then (eff d, 0)
    else if !room then (d.holdRefuse, 1)
    else (eff (d.log (d.recOf c (4 * b2n resv + 1024 * b2n (old = new)) old new)), 0)
  | .bad old resv exempt =>
    if !exempt && !room then (d.holdRefuse, 1)
    else (d.log (d.recOf c (1 + 4 * b2n resv) old old), 1)
  | .badEff old eff =>
    if !room then (d.holdRefuse, 1) else (eff (d.log (d.recOf c 1 old old)), 1)
  | .group space tgt olds news eff =>
    if c.org.software && !d.swRoom news.length then (d.holdRefuse, 1)
    else (eff (d.logGroup c.org space tgt news.length 0 olds news), 0)
  | .none => (d, 0)
  | .unmapped => if !room then (d.holdRefuse, 2) else (d.log (d.recOf c 2 0#64 0#64), 2)

/-- A staging read refused while its command is busy: the row is exempt, so room never refuses it, and its record is admitted like a Hardware record (R560, R568, R571). -/
def Dev.readBusy (d : Dev) (c : WCtx) (eff : Dev → Dev) : WOut := .ok 0#64 0#64 false true (fun x => eff (x.log (d.recOf c 1 0#64 0#64)))

/-! ### The judgement by access codes -/

/-- A strength order holds: the new value is at least as strong (R111); a scrub period is 256 s divided by two to its code (R190). -/
def WmOrder.holds (o : WmOrder) (old new : Nat) : Bool := match o with
  | .none => true
  | .set => old &&& new = old
  | .timer | .threshold => new ≤ old
  | .cls | .period => old ≤ new
  | .enable => old = 0 || new = 1

/-- A value a field admits (R444, R554, R576, R582). -/
def Dev.legal (d : Dev) (l : Legal) (x : Nat) : Bool := match l with
  | .any => true
  | .range lo hi => lo ≤ x && x ≤ hi
  | .trim => true
  | .pvec => x < d.pfVectors
  | .logLevel => x < d.clgN

/-- The mask of the enabled bytes of an access. -/
def WCtx.mask (c : WCtx) : Nat := if c.wide then 2 ^ 64 - 1 else (byteMask 4 (BitVec.ofNat 8 c.be)).toNat

/-- The mask of a field's bits. -/
def FDef.mask (f : FDef) : Nat := (2 ^ (f.hi + 1 - f.lo) - 1) * 2 ^ f.lo

/-- A field's new value under a write, none where the write is refused on its account (R19, R41, R111, R576). -/
def Dev.fieldWrite (d : Dev) (f : FDef) (old mask data : Nat) : Option Nat :=
  let w := 2 ^ (f.hi + 1 - f.lo)
  let o := old / 2 ^ f.lo % w
  let m := mask / 2 ^ f.lo % w
  let x := data / 2 ^ f.lo % w
  let merged := (x &&& m) ||| (o &&& ((w - 1) ^^^ m))
  match f.acc with
  | .ro => some o
  | .rw => if d.legal f.legal merged then some merged else none
  | .wm => if d.legal f.legal merged && f.ord.holds o merged then some merged else none
  | .sf => if merged = o then some o else none
  | .w1c => some (o &&& ((w - 1) ^^^ (x &&& m)))
  | .w1s | .set => some (o ||| (x &&& m))
  | .clr => some (o &&& ((w - 1) ^^^ (x &&& m)))
  | .wo => if m = w - 1 && d.legal f.legal x then some 0 else none

/-- The whole value of a register after a write, none where any field refuses it (R112). -/
def Dev.regWrite (d : Dev) (fs : List FDef) (old mask data : Nat) : Option Nat :=
  match fs with
  | [] => some 0
  | f :: t => match d.fieldWrite f old mask data, d.regWrite t old mask data with
    | some x, some r => some (x * 2 ^ f.lo + r)
    | _, _ => none

/-- A write carries nonzero reserved bits (R16, R576). -/
def resvBits (fs : List FDef) (mask data : Nat) : Bool :=
  (data &&& mask) &&& (fs.foldl (fun a f => a ||| f.mask) 0) ≠ (data &&& mask)

/-- Every field of a register is read-only or reserved (R19). -/
def RegDef.allRo (r : RegDef) : Bool := r.fields.all (fun f => f.acc = .ro)

/-- Every field is strap-fixed, read-only or reserved, one of them strap-fixed (R19). -/
def RegDef.allSf (r : RegDef) : Bool := !r.allRo && r.fields.all (fun f => f.acc = .ro || f.acc = .sf)

/-- The strap registers and the Ember device bytes: every write is refused and logged (R81, R123). -/
def refusesAll (off : Nat) : Bool := (0x100 ≤ off && off < 0x200) || (0x20130 ≤ off && off < 0x20140)

/-- Registers whose writes produce no record unless refused (R560). -/
def exemptReg (off : Nat) : Bool :=
  (0x300000 ≤ off && off < 0x300040) || (0x400000 ≤ off && off < 0x400080) || (0x650000 ≤ off && off < 0x650030) ||
  off = R.insCview || off = R.stoDbgAddr || off = R.stoDbgCtl || off = R.netQuery || off = R.clgAck || off = R.clgRdSeq || off = R.clgPushCons ||
  off = R.clgStatus || (0x500000 ≤ off && off < 0x600000 && (off % 256 = 8 || off % 256 = 0x10 || off % 256 = 0x14 || off % 256 = 0x18 || off % 256 = 0x24 || (0x40 ≤ off % 256 && off % 256 < 0xC0))) ||
  (0x100000 ≤ off && off < 0x1C0000 && off % 0x10000 = R.crlEyeCtl 0 % 0x10000)

/-- The judgement of a write to a register by its row of the Reference table: `cur` is what the register reads, `eff` what an accepted new value does. A 4-byte write to half of a 64-bit register whose fields are all RO makes no record (R19, whose exceptions are two); elsewhere R40 refuses it (log entry 102). -/
def Dev.judgeRow (d : Dev) (r : RegDef) (c : WCtx) (cur : W64) (eff : W64 → Dev → Dev) : WOut :=
  let ex := exemptReg c.off
  let m := c.mask
  let x := c.data.toNat
  let rs := resvBits r.fields m x
  if refusesAll c.off then .bad cur rs false
  else if r.allRo then .none
  else if r.wide && !c.wide then .bad (BitVec.ofNat 64 (cur.toNat % 2 ^ 32)) false ex
  else if r.allSf then .bad cur rs false
  else match d.regWrite r.fields cur.toNat m x with
  | none => .bad cur rs ex
  | some v => .ok cur (BitVec.ofNat 64 v) rs ex (eff (BitVec.ofNat 64 v))

/-- The judgement of a write to a register that has only its table row: the new value is stored. -/
def Dev.judgeTable (d : Dev) (c : WCtx) : WOut := match regAt c.off with
  | none => match regAt (c.off - 4) with
    | some r =>
      if !r.wide then .unmapped
      else if r.allRo then .none
      else .bad (BitVec.ofNat 64 ((d.rd (c.off - 4)).toNat / 2 ^ 32)) false (exemptReg (c.off - 4))
    | none => .unmapped
  | some r => d.judgeRow r c (d.rd c.off) (fun v d => d.wr c.off v)

/-! ### Gates (R39, R48, R152, R352, R401, R535, R557) -/

/-- The origin of a party (R556). -/
def partyOrigin (p : Party) : Origin := match p with
  | .pf => .manager
  | .vf n => .tenant n.toNat
  | .lp n c => .loc n.val (c.map (·.val))

/-- The host can reach a function's BARs: the link is up, memory decoding is enabled, the function exists and is not in D3hot (R352). -/
def Dev.hostMem (d : Dev) (fn : Nat) : Bool :=
  (if fn = 0 then d.cfgBit 0 4 1 else d.cfgBit 0 cfgSriovCtl 3) && d.fnEnabled fn && !d.d3hot fn

/-- In a limited pitch and in Fence only gen, pit, emb and fwt respond (R152, R535). -/
def Dev.onlyWatch (d : Dev) : Bool := d.limited || d.fence

/-- The power domain of a register offset (R53, R477). -/
def regDomain (off : Nat) : Nat :=
  if off < 0x20000 then 1 else if off < 0x30000 then 0 else if off < 0x40000 then 51 else if off < 0x80000 then 1
  else if off < 0xC0000 then 50 else if off < 0x100000 then 33 else if off < 0x1C0000 then linkDomain ((off - 0x100000) / 0x10000)
  else if off < 0x240000 then 52 else if off < 0x280000 then 42 else if off < 0x300000 then 6 else if off < 0x600000 then 42
  else if off < 0x650000 then 62 else if off < 0xF00000 then 53 else 61

/-- The state of the domain of an access (R48). -/
inductive Power where
  | on | held | unmapped | hwOff
  deriving DecidableEq, Repr

/-- How the power state of its domain treats an access (R48, R601). -/
def Dev.powerOf (d : Dev) (off : Nat) : Power :=
  if regDomain off = 50 && d.lic.waking then .held
  else match d.pdSt (regDomain off) with
  | .on | .closing | .drained => .on
  | .retain | .autoOff => .held
  | .off | .poweringOff | .powerOn | .bvcOff => .unmapped
  | .hwOff => .hwOff

/-- The local view of control space (R402): 0 no such register, 1 readable only, 2 writes judged by the authority matrix. -/
def viewOf (p off : Nat) : Nat :=
  if off < 0x40000 then 1
  else if off < 0xC0000 then 2
  else if off < 0x100000 then 1
  else if off / 0x10000 = 0x10 + 8 + p then 1
  else if 0x200000 ≤ off ∧ off < 0x280000 then 1
  else 0

/-- Cores bound to local port n (R501, R516). -/
def Dev.coreBound (d : Dev) (c n : Nat) : Bool := d.gb (F.licCoreBind_valid c) && d.g (F.licCoreBind_port c) = n

/-- An access waits while its domain is not On (R48, R411): what is performed once it is. -/
def Dev.hold (d : Dev) (h : Held) : Dev := { d with held := d.held ++ [h] }

/-- A register lies at an offset, or the upper half of a 64-bit one (R40, R47). -/
def regMapped (off : Nat) : Bool := (regAt off).isSome || (4 ≤ off && (regAt (off - 4)).any (fun r => r.wide))

/-- A write of a party to PF control space through its gates: the function's decoding, the local view, power, authority and judgement (R48, R352, R402, R557). `old` is what the register reads, for the record of a refusal. Status 4: held. -/
def Dev.regCmdS (d : Dev) (pty : Party) (off : Nat) (wide : Bool) (be : Nat) (data old : W64) (auth : Bool) (judge : Dev → WCtx → WOut) : Dev × Nat :=
  let c : WCtx := ⟨partyOrigin pty, 0, 0, off, wide, be, data⟩
  let go (view : Nat) : Dev × Nat :=
    if view = 0 || (d.onlyWatch && !(regDomain off = 1 || regDomain off = 0)) || !regMapped off then d.commitS c .unmapped
    else match d.powerOf off with
    | .held => (d.hold (.reg pty (BitVec.ofNat 24 off) wide (BitVec.ofNat 8 be) data), 4)
    | .unmapped => d.commitS c .unmapped
    | .hwOff => d.commitS c (.bad 0#64 false false)
    | .on => if view = 1 || !auth then d.commitS c (.bad old false false) else d.commitS c (judge d c)
  match pty with
  | .pf => if !d.hostMem 0 then (d.aerUr 0 false, 1) else go 2
  | .vf _ => (d, 2)
  | .lp n _ => go (viewOf n.val off)

/-- A write of a party to a register of PF control space. -/
def Dev.regCmd (d : Dev) (pty : Party) (off : Nat) (wide : Bool) (be : Nat) (data : W64) (auth : Bool) (judge : Dev → WCtx → WOut) : Dev :=
  (d.regCmdS pty off wide be data (d.rd off) auth judge).1

/-- Manager only (R557). -/
def isPf (p : Party) : Bool := match p with
  | .pf => true
  | .vf _ | .lp _ _ => false

/-- A write command's fields carry no reserved bit and all their bytes are enabled (R41, R576). -/
def woOk (be mask : Nat) : Bool := (byteMask 4 (BitVec.ofNat 8 be)).toNat &&& mask = mask

end Sys2Proof.Machine
end

