-- ==== Sys2Proof/Machine/Lic.lean ====
section
/-! DEFINITION. The local interrupt controller (14): source state, eligibility and candidates, delivery, claims and completion, traps, gating and wake, session loss, authority. -/
namespace Sys2Proof.Machine

/-! ### Source state (R485) -/

/-- A bit of a 32-bit word register. -/
def Dev.wordBit (d : Dev) (off i : Nat) : Bool := (d.rd off).getLsbD i

/-- A bit of a word register set or cleared. -/
def Dev.setWordBit (d : Dev) (off i : Nat) (b : Bool) : Dev := d.wr off (BitVec.ofNat 64 (setBit (d.rd off).toNat i b))

/-- Offset of shared state word w of a kind: mask, pending, active, line (R516). -/
def licMaskW (w : Nat) : Nat := R.licMaskSet 0 + 4 * w - 4
@[inherit_doc licMaskW] def licPendW (w : Nat) : Nat := R.licPendSet 0 + 4 * w - 4
@[inherit_doc licMaskW] def licActiveW (w : Nat) : Nat := R.licActive 0 + 4 * w - 4
@[inherit_doc licMaskW] def licLineW (w : Nat) : Nat := R.licLine 0 + 4 * w - 4

/-- lic.src_cfg of a shared number (R516). -/
def licSrc (n : Nat) : Nat := R.licSrcCfg 0 + 4 * n - 128

/-- A shared number is pending, masked, active; its line is set. -/
def Dev.licPending (d : Dev) (n : Nat) : Bool := d.wordBit (licPendW (n / 32)) (n % 32)
@[inherit_doc Dev.licPending] def Dev.licMasked (d : Dev) (n : Nat) : Bool := d.wordBit (licMaskW (n / 32)) (n % 32)
@[inherit_doc Dev.licPending] def Dev.licActiveBit (d : Dev) (n : Nat) : Bool := d.wordBit (licActiveW (n / 32)) (n % 32)
@[inherit_doc Dev.licPending] def Dev.licLineBit (d : Dev) (n : Nat) : Bool := d.wordBit (licLineW (n / 32)) (n % 32)

/-- A field of lic.src_cfg: priority, mode, target, owner, mask. -/
def Dev.srcFld (d : Dev) (n hi lo : Nat) : Nat := fieldOf (d.rd (licSrc n)) hi lo

/-- The claimed-priority key of private number k of core c. -/
def privKey (c k : Nat) : Nat := 1024 + 32 * c + k

/-- The priority of number n at core c: private below 32 (R487). -/
def Dev.licPrio (d : Dev) (c n : Nat) : Nat := if n < 32 then d.g (F.licPsrcCfg_priority c n) else d.srcFld n 3 0

/-- Number n is in Offered mode at core c. -/
def Dev.licOffered (d : Dev) (c n : Nat) : Bool := if n < 32 then d.gb (F.licPsrcCfg_mode c n) else d.srcFld n 4 4 = 1

/-- The running priority of a core (R484). -/
def Dev.running (d : Dev) (c : Nat) : Nat :=
  d.lic.claimed.foldl (fun a e =>
    let mine := if e.1 < 1024 then d.srcFld e.1 15 12 = c else (e.1 - 1024) / 32 = c
    if mine then min a e.2 else a) 16

/-- A trap is active on a core. -/
def Dev.trapActive (d : Dev) (c : Nat) : Bool := d.g (F.licTstate_active c) ≠ 0

/-- A core is bound to a port that is Open (R487). -/
def Dev.coreOpen (d : Dev) (c : Nat) : Bool := d.gb (F.licCoreBind_valid c) && d.portOpen (8 + d.g (F.licCoreBind_port c))

/-- The shared numbers pending, unmasked and inactive, in rising order (R487). -/
def Dev.licReady (d : Dev) : List Nat :=
  (d.regs.filter (fun e : Nat × W64 => R.licPendSet 0 ≤ e.1 && e.1 < R.licPendSet 24)).flatMap (fun e =>
    let w := (e.1 - R.licPendSet 0) / 4 + 1
    ((bitsOf e.2.toNat 32).map (32 * w + ·)).filter (fun n => !d.licMasked n && !d.licActiveBit n))

/-- The private numbers of core c pending, unmasked and inactive (R487). -/
def Dev.privReady (d : Dev) (c : Nat) : List Nat :=
  (bitsOf (d.regs.lk 0#64 (R.licPpendSet c)).toNat 32).filter (fun k => !d.wordBit (R.licPmaskSet c) k && !d.wordBit (R.licPactive c) k)

/-- A shared number targets core c (R487). -/
def Dev.licTargets (d : Dev) (n c : Nat) : Bool := if d.srcFld n 4 4 = 1 then bitOf (d.srcFld n 31 16) c else d.srcFld n 11 8 = c

/-- The eligible numbers of core c (R487). -/
def Dev.eligible (d : Dev) (ready : List Nat) (c : Nat) : List Nat :=
  if !d.coreOpen c || d.trapActive c then []
  else
    let lim := min (d.g (F.licCoreCfg_pmr c)) (d.running c)
    (d.privReady c ++ ready.filter (fun n => d.licTargets n c)).filter (fun n => d.licPrio c n < lim)

/-- The number of least priority of a list, ties to the lower number (R488). -/
def Dev.leastPrio (d : Dev) (c : Nat) (ns : List Nat) : Option Nat :=
  ns.foldl (fun b n => match b with
    | none => some n
    | some m => if d.licPrio c n < d.licPrio c m || (d.licPrio c n = d.licPrio c m && n < m) then some n else some m) none

/-- The candidate of core c (R488, R495). -/
def Dev.candidate (d : Dev) (ready : List Nat) (c : Nat) : Option Nat :=
  match (if d.coreOpen c && !d.trapActive c then (bitsOf (d.g (F.licTstate_pending c)) 4).head? else none) with
  | some t => some (1016 + t)
  | none => d.leastPrio c (d.eligible ready c)

/-! ### Delivery (R405, R489, R490) -/

/-- A DELIVER leaves on VC0 of a core's port (R401, R482). -/
def Dev.sendDeliver (d : Dev) (c n kind prio : Nat) (vec : W64) : Dev :=
  d.enqueue (8 + d.g (F.licCoreBind_port c)) 0 ⟨.raw (ctlBytes 0x31 (c + 16) 0 n kind prio vec), 0, 24⟩

/-- The number offered to a core, if any (R490). -/
def Dev.offerOf (d : Dev) (c : Nat) : Option Nat := let n := d.g (F.licCoreState_offer c); if n = 1023 then none else some n

/-- The offer of a core is withdrawn with a message (R490). -/
def Dev.withdrawOffer (d : Dev) (c : Nat) : Dev := match d.offerOf c with
  | none => d
  | some n => ((d.s (F.licCoreState_offer c) 1023).bump F.licCntWithdrawn_count).sendDeliver c n 2 (if n < 1016 then d.licPrio c n else 0) 0#64

/-- The device with the prepared DELIVER of a core replaced. -/
def Dev.setPrep (d : Dev) (c : Nat) (n : Option Nat) : Dev :=
  { d with lic := { d.lic with prep := match n with
    | some x => d.lic.prep.ins c x
    | none => d.lic.prep.del c } }

/-- A core's offer and prepared DELIVER follow its candidate (R488 to R490). -/
def Dev.choose (d : Dev) (ready : List Nat) (c : Nat) : Dev :=
  if !d.coreOpen c then d
  else match d.candidate ready c with
  | none => (d.setPrep c none).withdrawOffer c
  | some n =>
    if 1016 ≤ n || !d.licOffered c n then (d.withdrawOffer c).setPrep c (some n)
    else if d.offerOf c = some n then d.setPrep c none
    else ((((d.setPrep c none).withdrawOffer c).s (F.licCoreState_offer c) n).bump F.licCntOffered_count).sendDeliver c n 1 (d.licPrio c n) 0#64

/-- Something is pending, prepared or offered. -/
def Dev.licBusy (d : Dev) : Bool :=
  !d.lic.prep.isEmpty || d.regs.any (fun e => (R.licPendSet 0 ≤ e.1 && e.1 < R.licPendSet 24) || (R.licCoreState 0 ≤ e.1 && e.1 < R.licCoreState 16) ||
    (R.licPmaskSet 0 ≤ e.1 && e.1 < R.licCntDelivered))

/-- Every candidate is chosen again (R488). -/
def Dev.licChoose (d : Dev) : Dev :=
  if d.licGated || d.pdSt 50 ≠ .on || !d.licBusy then d
  else
    let ready := d.licReady
    d.each (List.range 16) (fun d c => d.choose ready c)

/-- A number becomes active on core c at its priority (R485). -/
def Dev.activate (d : Dev) (c n : Nat) : Dev :=
  let p := d.licPrio c n
  if n < 32 then
    let d := (d.setWordBit (R.licPpendSet c) n false).setWordBit (R.licPactive c) n true
    { d with lic := { d.lic with claimed := d.lic.claimed.ins (privKey c n) p } }
  else
    let d := (d.setWordBit (licPendW (n / 32)) (n % 32) false).setWordBit (licActiveW (n / 32)) (n % 32) true
    let d := d.wr (licSrc n) (setField (d.rd (licSrc n)) 15 12 c)
    { d with lic := { d.lic with claimed := d.lic.claimed.ins n p } }

/-- The vector address of a number at a core (R489, R495). -/
def Dev.vecAddr (d : Dev) (c n : Nat) : W64 := d.rd (R.licCoreVbase c) + BitVec.ofNat 64 (16 * n)

/-- A prepared Directed DELIVER takes its VC0 credit: the claim takes place (R489, R495). -/
def Dev.deliverPrep (d : Dev) (c : Nat) : Dev := match d.lic.prep.find? c with
  | none => d
  | some n =>
    if !d.coreOpen c || d.licGated then d
    else
      let d := d.setPrep c none
      let p := if 1016 ≤ n then 0 else d.licPrio c n
      let d := (d.bump F.licCntDelivered_count).sendDeliver c n 0 p (d.vecAddr c n)
      if 1016 ≤ n then (d.s (F.licTstate_pending c) (setBit (d.g (F.licTstate_pending c)) (n - 1016) false)).s (F.licTstate_active c) (setBit (d.g (F.licTstate_active c)) (n - 1016) true)
      else d.activate c n

/-- A DELIVER has waited 100 µs for VC0 credit on a port (R508). -/
def Dev.deliverWaits (d : Dev) (p : Nat) : Dev :=
  let deliver (q : QEnt) : Bool := match q.item with
    | .raw b => b.head? = some 0x31#8
    | .tp _ | .host _ | .hostW _ _ _ _ => false
  if d.lic.prep.any (fun e => d.g (F.licCoreBind_port e.1) = p) || (d.egress (8 + p)).net.any deliver then d.raise 241 else d

/-! ### Claims and completion (R491 to R493) -/

/-- A claim for core c (R491): the device and what the read returns. -/
def Dev.claim (d : Dev) (c : Nat) : Dev × W64 :=
  match d.leastPrio c ((d.eligible d.licReady c).filter (fun n => d.licOffered c n)) with
  | none => (d.bump F.licCntSpurious_count, 1023#64)
  | some n => ((d.activate c n).s (F.licCoreState_offer c) 1023, BitVec.ofNat 64 (n + d.licPrio c n * 65536))

/-- Number n is active on core c. -/
def Dev.activeOn (d : Dev) (c n : Nat) : Bool :=
  if n < 32 then d.wordBit (R.licPactive c) n
  else if 1016 ≤ n then n < 1020 && bitOf (d.g (F.licTstate_active c)) (n - 1016)
  else n < 800 && d.licActiveBit n && d.srcFld n 15 12 = c

/-- Number n stops being active on core c. -/
def Dev.deactivate (d : Dev) (c n : Nat) : Dev :=
  if n < 32 then ({ d with lic := { d.lic with claimed := d.lic.claimed.del (privKey c n) } }).setWordBit (R.licPactive c) n false
  else if 1016 ≤ n then d.s (F.licTstate_active c) (setBit (d.g (F.licTstate_active c)) (n - 1016) false)
  else ({ d with lic := { d.lic with claimed := d.lic.claimed.del n } }).setWordBit (licActiveW (n / 32)) (n % 32) false

/-- A number becomes pending at core c. -/
def Dev.repend (d : Dev) (c n : Nat) : Dev :=
  if n < 32 then d.setWordBit (R.licPpendSet c) n true
  else if 1016 ≤ n then d.s (F.licTstate_pending c) (setBit (d.g (F.licTstate_pending c)) (n - 1016) true)
  else d.setPend n true

/-- Completion of number n on core c (R485, R493). -/
def Dev.licEoi (d : Dev) (c n : Nat) : Dev :=
  if n = 1023 then d
  else if !d.activeOn c n then (d.bump F.licCntBadEoi_count).raise 240
  else
    let line := decide (32 ≤ n ∧ n < 544) && d.licLineBit n
    (d.deactivate c n).whenD line (fun d => d.setPend n true)

/-! ### Session loss and rebinding (R509) -/

/-- Everything active on core c is set pending again, its offer and prepared DELIVER dropped; gives how many. -/
def Dev.coreLost (d : Dev) (c : Nat) : Dev × Nat :=
  let mine := (d.lic.claimed.filter (fun e : Nat × Nat => if e.1 < 1024 then d.srcFld e.1 15 12 = c else (e.1 - 1024) / 32 = c)).map (fun e : Nat × Nat => if e.1 < 1024 then e.1 else (e.1 - 1024) % 32)
  let traps := (bitsOf (d.g (F.licTstate_active c)) 4).map (1016 + ·)
  let all := mine ++ traps
  let d := d.each all (fun d n => (d.deactivate c n).repend c n)
  ((d.setPrep c none).s (F.licCoreState_offer c) 1023, all.length)

/-- Cores lose their session or binding (R509). -/
def Dev.coresLost (d : Dev) (cs : List Nat) : Dev :=
  let r := cs.foldl (fun (a : Dev × Nat) c => let x := a.1.coreLost c; (x.1, a.2 + x.2)) (d, 0)
  if r.2 = 0 then r.1 else (r.1.bumpBy F.licCntRepend_count r.2).raise 242

/-- A local port's session is fresh or lapses (R509). -/
def Dev.licSession (d : Dev) (n : Nat) : Dev := d.coresLost ((List.range 16).filter (fun c => d.coreBound c n))

/-! ### Raises, traps, gating (R404, R495 to R500) -/

/-- A line action of a local-raise number (R485). -/
def Dev.lineAct (d : Dev) (n : Nat) (up : Bool) : Dev :=
  if up then (if d.licLineBit n then d else (d.setWordBit (licLineW (n / 32)) (n % 32) true).setPend n true)
  else
    let was := d.licPending n
    ((d.setWordBit (licLineW (n / 32)) (n % 32) false).setPend n false).whenD was (fun d => d.bump F.licCntWithdrawn_count)

/-- The sentinel captures an event (R498). -/
def Dev.capture (d : Dev) (x : Capture) : Dev := { d with lic := { d.lic with captures := d.lic.captures ++ [x] } }

/-- The sentinel's line mirror follows every line action (R498). -/
def Dev.mirrorLine (d : Dev) (n : Nat) (up : Bool) : Dev :=
  { d with lic := { d.lic with mirror := d.lic.mirror.upd 0#32 (n / 32) (fun w => BitVec.ofNat 32 (setBit w.toNat (n % 32) up)) } }

/-- A RAISE of a local port's number, by its action (R404, R485, R498). -/
def Dev.raiseMsg (d : Dev) (p n action : Nat) : Dev :=
  if n < 32 + 128 * p || 160 + 128 * p ≤ n || 2 < action then (d.bump (F.winLpOrder_bad_ctl p)).raise 219
  else if action = 0 then d.licPulse n
  else
    let up := action = 1
    let none := up && (d.lic.mirror.lk 0#32 (n / 32)).getLsbD (n % 32)
    let d := d.mirrorLine n up
    if !d.licGated then d.lineAct n up else if none then d else d.capture (.line n up)

/-- A private number is signalled at core c (R485, R498). -/
def Dev.signalPriv (d : Dev) (c k : Nat) : Dev :=
  if d.licGated then d.capture (.priv c k) else d.setWordBit (R.licPpendSet c) k true

/-- Trap t (0 to 3) becomes pending in every core of trap_targets; F244 where none of them is bound (R495, R496). -/
def Dev.setTrap (d : Dev) (t : Nat) : Dev :=
  let bound := (List.range 16).any (fun c => bitOf (d.g F.licTrapTargets_cores) c && d.gb (F.licCoreBind_valid c))
  let d := d.whenD (!bound) (fun d => d.raise 244)
  d.each ((List.range 16).filter (fun c => bitOf (d.g F.licTrapTargets_cores) c)) (fun d c =>
    d.s (F.licTstate_pending c) (setBit (d.g (F.licTstate_pending c)) t true))

/-- Firewatch raises trap t (R495, R496, R498). -/
def Dev.licTrap (d : Dev) (t : Nat) : Dev :=
  if d.licGated then d.capture (.trap t) else d.setTrap t

/-- A captured event is applied (R499, R510); a line was captured where it rose, so that the source is pending whatever the restored line shows. -/
def Dev.applyCapture (d : Dev) (x : Capture) : Dev := match x with
  | .pulse n => d.setPend n true
  | .line n up => (d.lineAct n up).whenD up (fun d => d.setPend n true)
  | .priv c k => d.setWordBit (R.licPpendSet c) k true
  | .trap t => d.setTrap t

/-- The lines are replaced from the sentinel's mirror (R499, R511). -/
def Dev.linesFromMirror (d : Dev) : Dev :=
  d.each ((List.range 16).map (· + 1)) (fun d w =>
    if (d.regs.find? (licLineW w)).isSome || d.lic.mirror.lk 0#32 w ≠ 0#32 then d.wr (licLineW w) ((d.lic.mirror.lk 0#32 w).setWidth 64) else d)

/-- The captures are applied in order, then the mirrored lines (R499). -/
def Dev.applyCaptures (d : Dev) : Dev :=
  let cs := d.lic.captures
  (({ d with lic := { d.lic with captures := [] } }).each cs Dev.applyCapture).linesFromMirror

/-- Every lic field takes its reset value, except trap_targets (R500, R511). -/
def Dev.licFields (d : Dev) : Dev :=
  { d with regs := d.regs.filter (fun e : Nat × W64 => !(0x80000 ≤ e.1 && e.1 < 0xC0000) || e.1 = R.licTrapTargets), lic := { d.lic with claimed := [], prep := [] } }

/-- Interrupts and traps that are pending or active (R511). -/
def Dev.licHeld (d : Dev) : Nat :=
  let z (o : Nat) : Nat := (d.regs.lk 0#64 o).toNat
  let shared := (List.range 24).foldl (fun a w => a + (bitsOf (z (licPendW (w + 1)) ||| z (licActiveW (w + 1))) 32).length) 0
  (List.range 16).foldl (fun a c => a + (bitsOf (z (R.licPpendSet c) ||| z (R.licPactive c)) 32).length +
    (bitsOf (z (R.licTstate c) ||| z (R.licTstate c) / 2 ^ 8) 4).length) shared

/-- A block re-pitch or block reset of the LIC at its step 4 (R511). -/
def Dev.licReset (d : Dev) : Dev :=
  let n := d.licHeld
  let wakes := d.g F.licCntWake_count
  let d := (d.licFields.bumpBy F.licCntDiscard_count n).linesFromMirror
  if wakes = 0 then d else d.s F.licCntWake_count wakes

/-- The LIC is idle long enough: it enters Retain (R497). -/
def Dev.gateEntry (d : Dev) : Dev :=
  let ready := d.licReady
  if d.gb F.licGateCfg_enable && d.pdSt 50 = .on && !d.licGated && d.lic.claimed.isEmpty && d.lic.prep.isEmpty && d.pins.main &&
      (List.range 16).all (fun c => (d.eligible ready c).isEmpty && !d.trapActive c && (d.offerOf c).isNone && (d.candidate ready c).isNone)
  then ((d.clampDom 50).setPd 50 .retain).bump (F.pitPdRetainCnt_count 50)
  else d

/-- A capture or a waiting access asks for the LIC (R499 steps 1 and 2). -/
def Dev.licWakeUp (d : Dev) (access : Bool) : Dev :=
  if d.pdSt 50 = .retain && (access || !d.lic.captures.isEmpty || !d.held.isEmpty)
  then ({ d with lic := { d.lic with waking := true } }).setPd 50 .on
  else d

/-- The retained state is restored, checked, and the captures applied (R499, R500). -/
def Dev.licRestored (d : Dev) (crcOk : Bool) : Dev :=
  if !d.lic.waking then d
  else
    let bad := d.g F.licCntDiscard_restore_bad
    let d := (if crcOk then d else ((d.licFields).s F.licCntDiscard_restore_bad (satAdd 8 bad 1)).raise 243).bump F.licCntWake_count
    ({ d with lic := { d.lic with waking := false } }).applyCaptures

/-! ### Writes (R483, R485, R501, R502, R506, R512, R513) -/

/-- The rights of a party to a lic field (R501): a range of numbers, a core, or none. -/
def licNums (pty : Party) (w : Nat) : Bool := match pty with
  | .pf => true
  | .vf _ => false
  | .lp n _ => 1 + 4 * n.val ≤ w && w ≤ 4 + 4 * n.val

/-- The rights of a party to the private registers of core c (R501). -/
def Dev.licCore (d : Dev) (pty : Party) (c : Nat) : Bool := match pty with
  | .pf => true
  | .vf _ => false
  | .lp n _ => d.coreBound c n.val

/-- The rights to lic.eoi of core c (R493, R501). -/
def Dev.licOwn (d : Dev) (pty : Party) (c : Nat) : Bool := match pty with
  | .pf => true
  | .vf _ => false
  | .lp n k => k.map (·.val) = some c && d.coreBound c n.val

/-- The existing numbers of shared word w, as a mask (R481). -/
def licValid (w : Nat) : Nat := (List.range 32).foldl (fun a i => if licNumber (32 * w + i) then a + 2 ^ i else a) 0

/-- The judgement of a SET or CLR write of a word: its register, valid bits, whether it sets, whether it makes no record, and its effect (R19, R481, R502). -/
def Dev.judgeWord (d : Dev) (c : WCtx) (off valid : Nat) (sets exempt : Bool) (eff : W64 → W64 → Dev → Dev) : WOut :=
  if (regAt c.off).isNone then .unmapped
  else
    let old := (d.rd off).toNat % 2 ^ 32 &&& valid
    let x := c.data.toNat &&& c.mask
    let y := x &&& valid
    let new := if sets then old ||| y else old &&& (0xFFFFFFFF ^^^ y)
    .ok (BitVec.ofNat 64 old) (BitVec.ofNat 64 new) (x ≠ y) exempt (eff (BitVec.ofNat 64 old) (BitVec.ofNat 64 new))

/-- Where a bank keeps its words: mask and pending, with the existing bits. -/
def bankMask : LicBank → Nat × Nat
  | .shared w => (licMaskW w.val, licValid w.val)
  | .priv c => (R.licPmaskSet c.val, 0xFFFFFFFF)
@[inherit_doc bankMask] def bankPend : LicBank → Nat × Nat
  | .shared w => (licPendW w.val, licValid w.val)
  | .priv c => (R.licPpendSet c.val, 0xFFFFFFFF)

/-- A bank's authority (R501). -/
def Dev.bankAuth (d : Dev) (pty : Party) : LicBank → Bool
  | .shared w => licNums pty w.val
  | .priv c => d.licCore pty c.val

/-- The judgement of a pend_clr write: bits cleared before their claim are withdrawn (R486). -/
def Dev.judgePendClr (d : Dev) (b : LicBank) (c : WCtx) : WOut :=
  d.judgeWord c (bankPend b).1 (bankPend b).2 false true (fun old new d =>
    (d.wr (bankPend b).1 new).bumpBy F.licCntWithdrawn_count (bitsOf (old.toNat ^^^ new.toNat) 32).length)

/-- The judgement of a pend_set write (R485). -/
def Dev.judgePendSet (d : Dev) (b : LicBank) (c : WCtx) : WOut :=
  d.judgeWord c (bankPend b).1 (bankPend b).2 true true (fun _ new d => d.wr (bankPend b).1 new)

/-- The judgement of a mask_set or mask_clr write (R506). -/
def Dev.judgeMask (d : Dev) (b : LicBank) (sets : Bool) (c : WCtx) : WOut :=
  d.judgeWord c (bankMask b).1 (bankMask b).2 sets false (fun _ new d => d.wr (bankMask b).1 new)

/-- The judgement of a write of lic.signal (R485, R512). -/
def judgeSignal (c : WCtx) : WOut :=
  let v := c.data.toNat
  if !woOk c.be 0xFFFF001F then .bad 0#64 false false
  else .ok 0#64 0#64 false true (fun d => d.each ((List.range 16).filter (fun i => bitOf v (16 + i))) (fun d i => d.signalPriv i (v % 32)))

/-- A signal names only cores its origin may signal (R501, R512). -/
def Dev.signalAuth (d : Dev) (pty : Party) (data : W64) : Bool :=
  (List.range 16).all (fun i => !bitOf data.toNat (16 + i) || d.licCore pty i)

/-- The judgement of a write of lic.src_cfg: a reserved number's fields are reserved bits (R481, R506). -/
def Dev.judgeSrc (d : Dev) (n : Nat) (c : WCtx) : WOut :=
  if licNumber n then d.judgeTable c else .ok 0#64 0#64 (c.data.toNat &&& c.mask ≠ 0) false id

/-- The judgement of a write of lic.core_bind (R483, R509). -/
def Dev.judgeBind (d : Dev) (i : Nat) (c : WCtx) : WOut := match d.judgeTable c with
  | .ok old new rs ex _ =>
    if fieldOf new 4 4 = 1 && d.lpAbsent (fieldOf new 1 0) then .bad old rs ex
    else .ok old new rs ex (fun d => (if old = new then d else d.coresLost [i]).wr (R.licCoreBind i) new)
  | o => o

/-- The judgement of a write of lic.eoi (R493). -/
def judgeEoi (i : Nat) (c : WCtx) : WOut :=
  let m := if c.wide then 0x3FF else c.be
  if !(c.wide || woOk m 0x3FF) then .bad 0#64 false false
  else .ok 0#64 0#64 false true (fun d => d.licEoi i (c.data.toNat % 1024))

end Sys2Proof.Machine
end

