-- ==== Sys2Proof/Machine/Routes.lean ====
section
/-! DEFINITION. The route computation (R272, R277 to R280, R286, R287): from a database of LSAs to the camp, member and escape tables. -/
namespace Sys2Proof.Machine

/-- A directed edge u → v of the graph: serials, the cost u's LSA gives it, and u's port (R279). -/
structure Edge where
  u : Nat
  v : Nat
  cost : Nat
  port : Nat
  deriving DecidableEq, Repr

/-- The vertices: LSAs neither quarantined nor without an address (R277, R279). -/
def vertices (db : SMap Lsa) : SMap Lsa := db.keep (fun _ l => !l.quarantined && !l.noAddr)

/-- The other end of a link lists it with matching ports and serials (R272). -/
def twoWay (g : SMap Lsa) (u : Nat) (l : LsaLink) : Bool := match g.find? l.serial.toNat with
  | none => false
  | some b => l.serial.toNat ≠ u && b.links.any (fun m => m.port = l.nbrPort && m.nbrPort = l.port && m.serial.toNat = u)

/-- The two-way links as directed edges (R272, R279). -/
def edges (g : SMap Lsa) : List Edge :=
  g.flatMap (fun e => (e.2.links.filter (twoWay g e.1)).map (fun l => ⟨e.1, l.serial.toNat, l.cost.toNat, l.port.toNat⟩))

/-- The smaller of a known distance and a new one. -/
def nearer (a : Option Nat) (n : Nat) : Nat := match a with
  | none => n
  | some m => min m n

/-- One round of relaxation: `v` may be reached from `u` at `w` more. -/
def relaxRound (es : List (Nat × Nat × Nat)) (t : SMap Nat) : SMap Nat :=
  es.foldl (fun t e => match t.find? e.1 with
    | none => t
    | some n => t.ins e.2.1 (nearer (t.find? e.2.1) (n + e.2.2))) t

/-- Least distances from the vertices of `t`, over as many rounds as there are vertices (R279). -/
def relax (rounds : Nat) (es : List (Nat × Nat × Nat)) (t : SMap Nat) : SMap Nat := match rounds with
  | 0 => t
  | n + 1 => relax n es (relaxRound es t)

/-- A list of ports in rising order without repeats, cut to four (R279). -/
def fourPorts (ps : List Nat) : List Nat := ((List.range 8).filter (fun p => ps.contains p)).take 4

/-- One round of the first-hop sets of R279: a neighbour over a port at the port's cost, and what the vertices before it hold. -/
def hopRound (self : Nat) (es : List Edge) (dist : SMap Nat) (f : SMap (List Nat)) : SMap (List Nat) :=
  dist.foldl (fun (g : SMap (List Nat)) e =>
    if e.1 = self then g
    else
      let direct := (es.filter (fun x => x.u = self && x.v = e.1 && x.cost = e.2)).map (·.port)
      let via := (es.filter (fun x => x.v = e.1 && x.u ≠ self && decide (some e.2 = (SMap.find? dist x.u).map (· + x.cost)))).flatMap (fun x => f.lk [] x.u)
      g.ins e.1 (fourPorts (direct ++ via))) []

/-- The first-hop sets after a number of rounds. -/
def hops (rounds self : Nat) (es : List Edge) (dist : SMap Nat) (f : SMap (List Nat)) : SMap (List Nat) := match rounds with
  | 0 => f
  | n + 1 => hops n self es dist (hopRound self es dist f)

/-- Distances and first-hop sets on a graph (R279). -/
def spf (self : Nat) (g : SMap Lsa) : SMap Nat × SMap (List Nat) :=
  let es := edges g
  let n := g.length + 1
  let dist := relax n (es.map (fun e => (e.u, e.v, e.cost))) [(self, 0)]
  (dist, hops n self es dist [])

/-- A table entry as its register holds it (R301); a longer distance reads 0xFFFF. -/
def entryWord (dist : Nat) (ps : List Nat) : W32 :=
  BitVec.ofNat 32 ((ps.zipIdx).foldl (fun a e => a + e.1 * 2 ^ (3 * e.2)) 0 + ps.length * 2 ^ 12 + min dist 65535 * 2 ^ 16)

/-- An LSA's claim beats another's to the same address: strapped before auto, then the lower serial (R276). -/
def beats (a b : Lsa) : Bool := if a.auto ≠ b.auto then !a.auto else decide (a.serial.toNat < b.serial.toNat)

/-- The holder of an address among the vertices (R276). -/
def holder (g : SMap Lsa) (a : Addr) : Option Lsa :=
  (g.vals.filter (fun l => l.origin = a)).foldl (fun b l => match b with
    | none => some l
    | some m => if beats l m then some l else some m) none

/-- The member table of a camp (R280): on the subgraph of the camp's vertices. -/
def memberTable (self : Nat) (own : Addr) (g : SMap Lsa) : SMap W32 :=
  let camp := own.toNat / 64
  let h := g.keep (fun _ l => l.origin.toNat / 64 = camp)
  let s := spf self h
  (List.range 64).foldl (fun (t : SMap W32) m =>
    if m = own.toNat % 64 then t
    else match holder h (BitVec.ofNat 12 (camp * 64 + m)) with
    | none => t
    | some l => match s.1.find? l.serial.toNat with
      | none => t
      | some n => t.ins m (entryWord n (s.2.lk [] l.serial.toNat))) []

/-- The camp table (R280): the least distance of a camp's reachable vertices and the union of their first hops at that distance. -/
def campTable (own : Addr) (g : SMap Lsa) (s : SMap Nat × SMap (List Nat)) : SMap W32 :=
  (List.range 64).foldl (fun (t : SMap W32) c =>
    if c = own.toNat / 64 then t
    else
      let ds := (s.1.filter (fun e : Nat × Nat => match g.find? e.1 with
        | some l => l.origin.toNat / 64 = c
        | none => false))
      match ds.foldl (fun (m : Option Nat) e => some (nearer m e.2)) none with
      | none => t
      | some n => t.ins c (entryWord n (fourPorts ((ds.filter (fun e => e.2 = n)).flatMap (fun e => s.2.lk [] e.1))))) []

/-- A vertex before another by address, then serial (R286). -/
def lowerVertex (a b : Lsa) : Bool :=
  a.origin.toNat < b.origin.toNat || (a.origin = b.origin && a.serial.toNat < b.serial.toNat)

/-- The root: the reachable vertex with the lowest address (R286). -/
def rootOf (g : SMap Lsa) (dist : SMap Nat) : Option Lsa :=
  (g.filter (fun e : Nat × Lsa => (SMap.find? dist e.1).isSome)).foldl (fun (b : Option Lsa) e => match b with
    | none => some e.2
    | some m => if lowerVertex e.2 m then some e.2 else some m) none

/-- The link u → v is up (R286): every other direction is down, that between vertices of one level and one address too. -/
def isUp (g : SMap Lsa) (lvl : SMap Nat) (e : Edge) : Bool := match SMap.find? lvl e.u, SMap.find? lvl e.v, g.find? e.u, g.find? e.v with
  | some a, some b, some x, some y => b < a || (a = b && decide (y.origin.toNat < x.origin.toNat))
  | _, _, _, _ => false

/-- The best of the candidates (rank, port): the least rank, then the lowest port. -/
def bestHop (cs : List (Nat × Nat)) : Option Nat :=
  (cs.foldl (fun (b : Option (Nat × Nat)) c => match b with
    | none => some c
    | some m => if c.1 < m.1 || (c.1 = m.1 && c.2 < m.2) then some c else some m) none).map (·.2)

/-- The hops of the escape tables at `self` for the destination vertex `d` (R287): up table, down table. -/
def escHops (n self d : Nat) (up down : List Edge) : Option Nat × Option Nat :=
  let dn := relax n (down.map (fun e => (e.v, e.u, 1))) [(d, 0)]
  let an := relax n (up.map (fun e => (e.v, e.u, 1))) dn
  let dc := (down.filter (fun e => e.u = self)).filterMap (fun e => (SMap.find? dn e.v).map (fun k => (k + 1, e.port)))
  let uc := (up.filter (fun e => e.u = self)).filterMap (fun e => (SMap.find? an e.v).map (fun k => (k + 1, e.port)))
  (bestHop (dc.map (fun c => (2 * c.1, c.2)) ++ uc.map (fun c => (2 * c.1 + 1, c.2))), bestHop dc)

/-- One run of the route engine on a database (R278 to R287). -/
def routesOf (serial : Serial) (own : Addr) (db : SMap Lsa) : Routes :=
  let self := serial.toNat
  let g := vertices db
  let s := spf self g
  let n := g.length + 1
  let es := (edges g).filter (fun e => (SMap.find? s.1 e.u).isSome)
  match rootOf g s.1 with
  | none => Routes.empty
  | some r =>
    let lvl := relax n (es.map (fun e => (e.u, e.v, 1))) [(r.serial.toNat, 0)]
    let up := es.filter (isUp g lvl)
    let down := es.filter (fun e => !isUp g lvl e)
    let esc := (g.filter (fun e : Nat × Lsa => e.1 ≠ self && (SMap.find? s.1 e.1).isSome && holder g e.2.origin = some e.2)).map (fun e : Nat × Lsa => (e.2.origin.toNat, escHops n self e.1 up down))
    let put (f : Option Nat × Option Nat → Option Nat) : SMap Nat := esc.foldl (fun (t : SMap Nat) e => match f e.2 with
      | some p => t.ins e.1 p
      | none => t) []
    ⟨campTable own g s, memberTable self own g, put (·.1), put (·.2), r.origin.toNat, SMap.lk lvl 0 self, s.1.keys⟩

end Sys2Proof.Machine
end

