-- ==== Sys2Proof/Machine/Net.lean ====
section
/-! DEFINITION. Discovery, claims and routing (08): network messages, neighbours, the link-state database, duplicate addresses, damping, route runs and convergence. -/
namespace Sys2Proof.Machine

/-- The neighbour entry of a fabric port. -/
def Dev.nbr (d : Dev) (p : Nat) : Nbr := d.net.nbr.lk ⟨0, 0, false, false, [], [], 0, 0, 0⟩ p

/-- The device with a neighbour entry replaced. -/
def Dev.setNbr (d : Dev) (p : Nat) (n : Nbr) : Dev := { d with net := { d.net with nbr := d.net.nbr.put ⟨0, 0, false, false, [], [], 0, 0, 0⟩ p n } }

/-- A neighbour's state: 0 Down, 1 Init, 2 TwoWay, 3 Exchange, 4 Full (R268). -/
def Dev.nbrState (d : Dev) (p : Nat) : Nat := d.g (F.netNbr_state p)

/-- The node is quarantined (R276). -/
def Dev.quarantined (d : Dev) : Bool := d.g F.netStatus_claim = 3

/-- The discovery and route engine takes part: powered, and not in a reset (R297). -/
def Dev.netOn (d : Dev) : Bool := d.pdSt 52 = .on && !d.blockBusy 0x31

/-- The header of a message of this node (R262). -/
def Dev.netHdr (d : Dev) (typ len : Nat) : NetHdr :=
  ⟨BitVec.ofNat 8 typ, 1#8, BitVec.ofNat 16 len, if d.gb F.genNodeCfg_disc_only then 0#12 else d.addr, d.quarantined, d.gb F.genNodeCfg_auto_member, d.gb F.genNodeCfg_disc_only⟩

/-- A network message leaves on VC0 of an Open fabric port (R262). -/
def Dev.netSend (d : Dev) (p : Nat) (b : List Byte) : Dev :=
  if d.portOpen p then d.enqueue p 0 ⟨.raw b, 0, b.length⟩ else d

/-- The base cost of a rate code, times the width factor, plus the added cost, capped at 255 (R266). -/
def linkCost (rate width add : Nat) : Nat :=
  min 255 (nth [10, 4, 2, 1] rate 1 * (if width = 4 then 1 else if width = 2 then 2 else 4) + add)

/-- The cost of port p in force (R266). -/
def Dev.portCost (d : Dev) (p : Nat) : Nat := linkCost (d.portRate p) (d.g (F.crlPhyStatus_width p)) (d.g (F.netPortCostAdd_add p))

/-- The hello interval in ms: 1 until step 13, 10 afterwards (R267). -/
def Dev.helloIval (d : Dev) : Nat := if d.complete then 10 else 1

/-- A Hello of this node for port p (R263). -/
def Dev.ownHello (d : Dev) (p : Nat) : Hello :=
  ⟨d.netHdr 1 40, BitVec.ofNat 8 p, BitVec.ofNat 8 d.helloIval, BitVec.ofNat 8 (d.portCost p), BitVec.ofNat 8 (d.nbr p).nbrPort, d.incarnation, d.serial,
   BitVec.ofNat 12 (d.g (F.netNbr_address p)), d.nbrState p ≠ 0, BitVec.ofNat 64 (d.g (F.netNbrSerial_serial p))⟩

/-- A Hello is sent on port p (R267): until step 13 at most one in a millisecond (R139). -/
def Dev.sendHello (d : Dev) (p : Nat) : Dev :=
  let ms := d.now / 1000 + 1
  if !d.complete && (d.nbr p).helloTx = ms then d
  else (d.netSend p (helloBytes (d.ownHello p))).setNbr p { d.nbr p with helloTx := ms }

/-- The key of an LSA (R265). -/
def lsaKey (l : Lsa) : LsaKey := ⟨l.origin, l.incarnation, l.seq, l.serial⟩

/-- An LSA is sent on port p (R273). -/
def Dev.sendLsa (d : Dev) (p : Nat) (l : Lsa) : Dev := d.netSend p (lsaBytes (d.netHdr 2 (32 + 16 * l.links.length)) l)

/-- A list cut into runs of 172 keys (R265). -/
def keyChunks (fuel : Nat) (ks : List LsaKey) : List (List LsaKey) := match fuel with
  | 0 => []
  | n + 1 => if ks.length ≤ 172 then [ks] else ks.take 172 :: keyChunks n (ks.drop 172)

/-- Ack, Summary or Request messages over a list of keys; the last Summary carries the last flag (R265, R269). -/
def Dev.sendKeys (d : Dev) (p typ : Nat) (last : Bool) (ks : List LsaKey) : Dev :=
  let cs := keyChunks (ks.length + 1) ks
  d.each cs.zipIdx (fun d c => d.netSend p (keysBytes (d.netHdr typ (8 + 24 * c.1.length)) (last && c.2 + 1 = cs.length) c.1))

/-- A network event of the change log (R276, R291, R565). -/
def Dev.netEv (d : Dev) (before code port : Nat) : Dev := d.logEv hwNet 15 before d.addr.toNat (code + 256 * port)

/-! ### The database (R270 to R274) -/

/-- The database has changed (R278, R289). -/
def Dev.dbChanged (d : Dev) : Dev := ({ d with net := { d.net with dirty := true, chg := d.now } }).sb F.netStatus_converged false

/-- How a received LSA stands to the held copy of its serial (R270, R273, R293). -/
inductive LsaOrder where
  | newer | equal | older | conflict
  deriving DecidableEq, Repr

/-- The order of two LSAs of one serial (R270, R293); a difference of exactly 2^31 makes neither newer. -/
def lsaOrder (held new : Lsa) : LsaOrder :=
  let up := (new.seq - held.seq).toNat
  let dn := (held.seq - new.seq).toNat
  if up = 0 then
    if held = new then .equal
    else if held.incarnation.toNat < new.incarnation.toNat then .newer
    else if new.incarnation.toNat < held.incarnation.toNat then .older
    else .conflict
  else if up < 2 ^ 31 then .newer
  else if dn < 2 ^ 31 then .older
  else .equal

/-- An LSA of the database sent on a port, and remembered until it is acknowledged (R273). -/
def Dev.floodOn (d : Dev) (l : Lsa) (p : Nat) : Dev :=
  let n := d.nbr p
  let u := if n.unacked.contains l.serial then n.unacked else n.unacked ++ [l.serial]
  (d.sendLsa p l).setNbr p { n with unacked := u }

/-- An LSA is flooded on every port but one whose neighbour is Full or in Exchange (R273). -/
def Dev.flood (d : Dev) (l : Lsa) (skip : Nat) : Dev :=
  d.each ((List.range 8).filter (fun p => p ≠ skip && 3 ≤ d.nbrState p)) (fun d p => d.floodOn l p)

/-- An incarnation seen of a serial: one that differs from the held copy's is reported once to the transport endpoint (R274). -/
def Dev.noteInc (d : Dev) (a : Addr) (noAddr : Bool) (s : Serial) (inc : W32) : Dev :=
  let note : Dev := { d with net := { d.net with incs := d.net.incs.ins s.toNat inc } }
  match d.net.lsdb.find? s.toNat with
  | none => { d with net := { d.net with incs := d.net.incs.del s.toNat } }
  | some h => if h.incarnation = inc || d.net.incs.find? s.toNat = some inc then d else note.whenD (!noAddr) (fun d => d.incarnationChanged a)

/-- The links this node lists (R272, R291). -/
def Dev.ownLinks (d : Dev) : List LsaLink :=
  ((List.range 8).filter (fun p => d.nbrState p = 4 && !d.gb (F.netNbr_damped p))).map (fun p =>
    (⟨BitVec.ofNat 12 (d.g (F.netNbr_address p)), BitVec.ofNat 8 p, BitVec.ofNat 8 (d.nbr p).nbrPort, BitVec.ofNat 8 (d.portCost p), BitVec.ofNat 64 (d.g (F.netNbrSerial_serial p))⟩ : LsaLink))

/-- The LSA of this node with a sequence number (R264, R271). -/
def Dev.ownLsa (d : Dev) (seq : W32) : Lsa :=
  let h := d.netHdr 2 32
  ⟨h.sender, h.quarantined, h.auto, h.noAddr, d.incarnation, seq, d.serial, d.ownLinks⟩

/-- The node originates a new LSA, its sequence number one higher (R261, R271). -/
def Dev.originate (d : Dev) : Dev :=
  let l := d.ownLsa (d.net.seq + 1)
  let d := { d with net := { d.net with seq := d.net.seq + 1, changed := false, lsdb := d.net.lsdb.ins d.serial.toNat l } }
  ((d.bump F.netCntLsaTx_count).flood l 8).dbChanged

/-- A change of R271 waits for the next origination. -/
def Dev.lsaDue (d : Dev) : Dev := { d with net := { d.net with changed := true } }

/-! ### Claims (R260, R261, R275, R276) -/

/-- The other claims to an address (R276, R277). -/
def Dev.rivals (d : Dev) (a : Addr) : List Lsa := d.net.lsdb.vals.filter (fun l => l.serial ≠ d.serial && l.origin = a && !l.quarantined && !l.noAddr)

/-- The node is quarantined until the next pitch (R275, R276). -/
def Dev.quarantine (d : Dev) (src : Nat) : Dev := (((d.s F.netStatus_claim 3).sb F.netAddr_valid false).netEv d.addr.toNat 2 0).raise src

/-- The address in force and whether it is claimed (R301). -/
def Dev.setAddr (d : Dev) (a : Addr) (valid : Bool) : Dev := (d.s F.netAddr_address a.toNat).sb F.netAddr_valid valid

/-- The members an auto node tries, in order (R275). -/
def membersFrom (m : Nat) : List Nat := (List.range 64).map (fun i => (m + i) % 64)

/-- The node takes the first free member of a list, or quarantines with F197 (R275). -/
def Dev.takeMember (d : Dev) (ms : List Nat) : Dev :=
  let camp := d.g F.genNodeCfg_camp
  match ms.find? (fun m => (d.rivals (BitVec.ofNat 12 (camp * 64 + m))).isEmpty) with
  | some m => (d.setAddr (BitVec.ofNat 12 (camp * 64 + m)) true).s F.netStatus_claim 2
  | none => d.quarantine 197

/-- An auto node yields its member: the search goes on at the next one, and fails at the eighth yield in a row (R275, R276). -/
def Dev.yieldMember (d : Dev) : Dev :=
  let was := d.addr.toNat
  let n := d.net.yields + 1
  let d := ({ d with net := { d.net with yields := n } }).bump F.netAddr_yields
  let d := if 8 ≤ n then d.quarantine 197 else d.takeMember (membersFrom (was % 64 + 1))
  d.netEv was 0 0

/-- A claim of this node meets the rivals to its address (R276, R295). Each rival kept against raises F193 once while its claim stands. -/
def Dev.dupCheck (d : Dev) : Dev :=
  if d.g F.netStatus_claim ≠ 2 then d
  else
    let own := d.ownLsa 0#32
    let rs := d.rivals d.addr
    let d := { d with net := { d.net with kept := d.net.kept.filter (fun s => rs.any (fun l => l.serial.toNat = s)) } }
    match rs.find? (fun l => beats l own) with
    | some l =>
      let d := d.s F.netDup_serial l.serial.toNat
      if d.gb F.genNodeCfg_auto_member then d.yieldMember.originate
      else ((d.netEv d.addr.toNat 0 0).quarantine 192).originate
    | none => d.each (rs.filter (fun l => !d.net.kept.contains l.serial.toNat)) (fun d l =>
      ((({ d with net := { d.net with kept := l.serial.toNat :: d.net.kept } }).s F.netDup_serial l.serial.toNat).netEv d.addr.toNat 1 0).raise 193)

/-- The members an auto node tries at its claim check (R275). -/
def Dev.firstMembers (d : Dev) : List Nat :=
  let rest := membersFrom (d.serial.toNat % 64)
  match d.snapMember with
  | some m => if d.gb F.pitPitchStatus_warm then m :: rest else rest
  | none => rest

/-- The claim check, at the end of the first Exchange (R261, R275, R276). -/
def Dev.claimCheck (d : Dev) : Dev :=
  if d.net.checked then d
  else
    let d := { d with net := { d.net with checked := true } }
    let d :=
      if d.gb F.genNodeCfg_disc_only || d.quarantined then d
      else if d.gb F.genNodeCfg_auto_member && !d.gb F.netAddr_valid then d.takeMember d.firstMembers
      else match (d.rivals d.addr).find? (fun l => d.gb F.genNodeCfg_auto_member || !l.auto) with
        | some l =>
          let d := d.s F.netDup_serial l.serial.toNat
          if d.gb F.genNodeCfg_auto_member then d.yieldMember
          else (d.netEv d.addr.toNat 0 0).quarantine 192
        | none => (d.s F.netStatus_claim 2).sb F.netAddr_valid true
    d.originate.dupCheck

/-! ### Neighbours (R266 to R269, R291) -/

/-- A neighbour leaves Full or an exchange (R268, R271). -/
def Dev.leaveNbr (d : Dev) (p st : Nat) : Dev :=
  let full := d.nbrState p = 4
  let d := (d.setNbr p { d.nbr p with lastIn := false, reqs := [], unacked := [] }).s (F.netNbr_state p) st
  (d.whenD full Dev.lsaDue).sb F.netStatus_converged false

/-- A neighbour goes Down (R268). -/
def Dev.nbrDown (d : Dev) (p : Nat) : Dev := if d.nbrState p = 0 then d else (d.leaveNbr p 0).sb (F.netNbr_loop p) false

/-- An item of an egress is the last Summary of an exchange. -/
def lastSummary (b : List Byte) : Bool := b.headD 0#8 = 4#8 && (nth b 6 0#8).getLsbD 0

/-- The own last Summary has been received by the partner: none is queued or unacknowledged on the port (R268). -/
def Dev.ownSummaryDone (d : Dev) (p : Nat) : Bool :=
  !((d.egress p).net.any (fun q => match q.item with
      | .raw b => lastSummary b
      | .tp _ | .host _ | .hostW _ _ _ _ => false) ||
    (match d.ports.find? p with
      | some x => (x.link.txq.lk [] 0).any (·.last) || x.link.near.any (·.last) || x.link.far.any (·.last)
      | none => false))

/-- An exchange that is complete takes the neighbour to Full (R268, R271, R275). -/
def Dev.tryFull (d : Dev) (p : Nat) : Dev :=
  if d.nbrState p = 3 && (d.nbr p).lastIn && (d.nbr p).reqs.isEmpty && d.ownSummaryDone p
  then ((d.s (F.netNbr_state p) 4).lsaDue).claimCheck
  else d

/-- The Summary exchange starts (R268, R269). -/
def Dev.startExchange (d : Dev) (p : Nat) : Dev :=
  ((d.s (F.netNbr_state p) 3).sendKeys p 4 true (d.net.lsdb.vals.map lsaKey)).tryFull p

/-- A fabric port becomes Open: a Hello is sent at once (R267); it has no Full neighbour yet (R289). -/
def Dev.fabricOpen (d : Dev) (p : Nat) : Dev := (d.sb F.netStatus_converged false).sendHello p

/-- A fabric port's link is declared down (R268, R291). -/
def Dev.fabricDown (d : Dev) (p : Nat) : Dev :=
  let d := (d.nbrDown p).bump (F.netNbrCost_downs p)
  if 3 ≤ d.g (F.netNbrCost_downs p) && !d.gb (F.netNbr_damped p)
  then (((d.sb (F.netNbr_damped p) true).netEv d.addr.toNat 3 p).raise 194).lsaDue
  else d

/-- A damped link is shown again (R271, R291). -/
def Dev.undamp (d : Dev) (p : Nat) : Dev :=
  if d.gb (F.netNbr_damped p) then ((d.sb (F.netNbr_damped p) false).netEv d.addr.toNat 4 p).lsaDue else d

/-- The Hello cap of 8 in a millisecond (R139, R267): the entry counting it, and whether it is admitted. -/
def Dev.helloCap (d : Dev) (p : Nat) : Dev × Bool :=
  let n := d.nbr p
  let c := if n.helloMs = d.now / 1000 then n.helloCnt else 0
  if 8 ≤ c then (d.bump (if d.joined then F.netCntHelloCapped_count else F.pitHelloCapped_count), false)
  else (d.setNbr p { n with helloMs := d.now / 1000, helloCnt := c + 1 }, true)

/-- A message whose type, version or length is wrong is discarded (R292). -/
def Dev.netUndef (d : Dev) : Dev := d.bump F.netCntUndef_count

/-- The header of a message of a type and length (R262, R292). -/
def hdrOk (h : NetHdr) (typ len : Nat) : Bool := h.typ.toNat = typ && h.version = 1#8 && h.length.toNat = len

/-- A Hello that is admitted (R268, R274, R299). -/
def Dev.helloIn (d : Dev) (p : Nat) (h : Hello) : Dev :=
  if h.serial = d.serial then
    let was := d.gb (F.netNbr_loop p)
    ((if 1 < d.nbrState p then d.leaveNbr p 1 else d.s (F.netNbr_state p) 1).sb (F.netNbr_loop p) true).whenD (!was) (fun d => d.raise 196)
  else
    let isNew := d.nbrState p = 0 || d.g (F.netNbrSerial_serial p) ≠ h.serial.toNat
    let d := if d.nbrState p ≠ 0 && d.g (F.netNbrSerial_serial p) ≠ h.serial.toNat then d.nbrDown p else d
    let d := if d.nbrState p = 0 then d.s (F.netNbr_state p) 1 else d
    let d := d.setNbr p { d.nbr p with interval := h.interval.toNat, nbrPort := h.port.toNat, quarantined := h.hdr.quarantined }
    let d := (((d.s (F.netNbr_address p) h.hdr.sender.toNat).s (F.netNbrInc_incarnation p) h.incarnation.toNat).s (F.netNbrSerial_serial p) h.serial.toNat).sb (F.netNbr_loop p) false
    let d := d.noteInc h.hdr.sender h.hdr.noAddr h.serial h.incarnation
    let names := h.seenValid && h.seen = (d.netHdr 1 40).sender && h.seenPort.toNat = p && h.seenSerial = d.serial
    let d := d.whenD isNew (fun d => d.sendHello p)
    if names then (if d.nbrState p < 3 then (d.s (F.netNbr_state p) 2).startExchange p else d)
    else if 1 < d.nbrState p then d.leaveNbr p 1 else d

/-- A message that a port's receive side has handed over leaves its list (log entry 15). -/
def Dev.consumeRaw (d : Dev) (p : Nat) (b : List Byte) : Dev := match d.ports.find? p with
  | some x => { d with ports := d.ports.ins p { x with link := { x.link with done := x.link.done.eraseP (fun e => e.2 = b) } } }
  | none => d

/-- A Hello arrives (R139, R267, R268, R292). -/
def Dev.helloCmd (d : Dev) (p : Nat) (h : Hello) : Dev :=
  if !d.portOpen p || !d.netOn then d
  else if !hdrOk h.hdr 1 40 then d.netUndef
  else
    let c := d.helloCap p
    if c.2 then c.1.helloIn p h else c.1

/-- The dead time has passed (R268). -/
def Dev.nbrDead (d : Dev) (p : Nat) : Dev := d.nbrDown p

/-! ### LSAs (R270 to R273, R293, R296) -/

/-- A received LSA is installed (R270, R273, R274, R276). -/
def Dev.install (d : Dev) (l : Lsa) : Dev :=
  let d := d.noteInc l.origin l.noAddr l.serial l.incarnation
  (({ d with net := { d.net with lsdb := d.net.lsdb.ins l.serial.toNat l } }).bump F.netCntLsaRx_count).dbChanged

/-- An LSA is acknowledged on the port it came from (R273). -/
def Dev.ackLsa (d : Dev) (p : Nat) (l : Lsa) : Dev := d.sendKeys p 3 false [lsaKey l]

/-- A Request is answered by an LSA at least as new as its key (R269). -/
def answersReq (l : Lsa) (k : LsaKey) : Bool := k.serial = l.serial && (l.seq - k.seq).toNat < 2 ^ 31

/-- A received LSA of this node's own serial (R271, R293). -/
def Dev.ownBack (d : Dev) (p : Nat) (l : Lsa) : Dev := match d.net.lsdb.find? d.serial.toNat with
  | none => d.ackLsa p l
  | some h => match lsaOrder h l with
    | .older => d.floodOn h p
    | .equal => d.ackLsa p l
    | .newer | .conflict => ({ (d.ackLsa p l) with net := { (d.ackLsa p l).net with seq := l.seq } }).originate

/-- A received LSA of another serial (R273, R296). -/
def Dev.otherLsa (d : Dev) (p : Nat) (l : Lsa) : Dev := match d.net.lsdb.find? l.serial.toNat with
  | none =>
    if 4160 ≤ d.net.lsdb.length then d.raise 199
    else (((d.install l).ackLsa p l).flood l p).dupCheck
  | some h => match lsaOrder h l with
    | .newer => (((d.install l).ackLsa p l).flood l p).dupCheck
    | .older => d.floodOn h p
    | .equal | .conflict => d.ackLsa p l

/-- An LSA arrives (R264, R273, R292). -/
def Dev.lsaCmd (d : Dev) (p : Nat) (h : NetHdr) (l : Lsa) : Dev :=
  if !d.portOpen p || !d.netOn then d
  else if !(hdrOk h 2 (32 + 16 * l.links.length) && l.links.length ≤ 8) then d.netUndef
  else
    let n := d.nbr p
    let d := d.setNbr p { n with reqs := n.reqs.filter (fun k => !answersReq l k) }
    (if l.serial = d.serial then d.ownBack p l else d.otherLsa p l).tryFull p

/-- An Ack arrives: the LSAs it names are not sent again (R273). -/
def Dev.ackCmd (d : Dev) (p : Nat) (h : NetHdr) (ks : List LsaKey) : Dev :=
  if !d.portOpen p || !d.netOn then d
  else if !(hdrOk h 3 (8 + 24 * ks.length) && ks.length ≤ 172) then d.netUndef
  else
    let n := d.nbr p
    let done (s : Serial) : Bool := ks.any (fun k => k.serial = s && (match d.net.lsdb.find? s.toNat with
      | some l => lsaKey l = k
      | none => true))
    d.setNbr p { n with unacked := n.unacked.filter (fun s => !done s) }

/-- A key names an LSA absent from the database or newer than the held copy (R269, R270). -/
def Dev.wants (d : Dev) (k : LsaKey) : Bool := match d.net.lsdb.find? k.serial.toNat with
  | none => true
  | some l => 0 < (k.seq - l.seq).toNat && (k.seq - l.seq).toNat < 2 ^ 31

/-- A Summary arrives: Requests for what is absent or newer, and the end of the exchange after the last one (R268, R269). -/
def Dev.summaryCmd (d : Dev) (p : Nat) (h : NetHdr) (last : Bool) (ks : List LsaKey) : Dev :=
  if !d.portOpen p || !d.netOn then d
  else if !(hdrOk h 4 (8 + 24 * ks.length) && ks.length ≤ 172) then d.netUndef
  else if d.nbrState p = 0 then d
  else
    let n := d.nbr p
    let want := ks.filter d.wants
    let d := d.setNbr p { n with lastIn := n.lastIn || last, reqs := n.reqs ++ want.filter (fun k => !n.reqs.contains k) }
    (d.whenD (!want.isEmpty) (fun d => (d.sb F.netStatus_converged false).sendKeys p 5 false want)).tryFull p

/-- A Request arrives: it is answered with the LSAs it names (R269). -/
def Dev.requestCmd (d : Dev) (p : Nat) (h : NetHdr) (ks : List LsaKey) : Dev :=
  if !d.portOpen p || !d.netOn then d
  else if !(hdrOk h 5 (8 + 24 * ks.length) && ks.length ≤ 172) then d.netUndef
  else d.each ks (fun d k => match d.net.lsdb.find? k.serial.toNat with
    | some l => d.floodOn l p
    | none => d)

/-- Requests unanswered after 5 ms are sent again (R269). -/
def Dev.requestAgain (d : Dev) (p : Nat) : Dev :=
  if (d.nbr p).reqs.isEmpty || !d.portOpen p then d else d.sendKeys p 5 false (d.nbr p).reqs

/-- LSAs not acknowledged are sent again while the neighbour stays Full (R273). -/
def Dev.lsaAgain (d : Dev) (p : Nat) : Dev :=
  if d.nbrState p ≠ 4 then d
  else d.each (d.nbr p).unacked (fun d s => match d.net.lsdb.find? s.toNat with
    | some l => d.sendLsa p l
    | none => d)

/-- The combined changes, or 600 s, call for a new LSA (R271). -/
def Dev.originateCmd (d : Dev) : Dev := if d.net.checked && d.netOn then d.originate else d

/-- The LSA of an originator unreachable for 60 s is deleted (R273). -/
def Dev.deleteLsa (d : Dev) (s : Serial) : Dev :=
  if s = d.serial || d.net.tbl.reach.contains s.toNat || (d.net.lsdb.find? s.toNat).isNone then d
  else ({ d with net := { d.net with lsdb := d.net.lsdb.del s.toNat, incs := d.net.incs.del s.toNat, kept := d.net.kept.erase s.toNat } }).dbChanged

/-! ### Route runs and convergence (R278, R289, R295) -/

/-- A route run starts on a snapshot of the database (R278, R298). -/
def Dev.routeRun (d : Dev) : Dev :=
  if d.net.dirty && d.net.run.isNone && d.netOn
  then ({ d with net := { d.net with run := some (routesOf d.serial d.addr d.net.lsdb), dirty := false } }).bump F.netCntRuns_count
  else d

/-- Every Open fabric port has a Full neighbour (R289). -/
def Dev.allFull (d : Dev) : Bool := (List.range 8).all (fun p => !d.portOpen p || d.nbrState p = 4)

/-- No Request is outstanding, and a run has been installed since the last change of the database (R289). -/
def Dev.settledNet (d : Dev) : Bool :=
  d.net.checked && (List.range 8).all (fun p => (d.nbr p).reqs.isEmpty) && !d.net.dirty && d.net.run.isNone

/-- The node is converged (R289); a claim that stands then ends a row of yields (log entry 118). -/
def Dev.convergedNow (d : Dev) : Dev :=
  let d := d.sb F.netStatus_converged true
  if d.g F.netStatus_claim = 2 then { d with net := { d.net with yields := 0 } } else d

/-- The run's tables are installed, the route snapshot is written, and LIC event 548 fires (R275, R278, R287, R295, R480). -/
def Dev.routeInstall (d : Dev) : Dev := match d.net.run with
  | none => d
  | some r =>
    let lost := d.net.tbl.reach.any (fun s => !r.reach.contains s)
    let d := ((d.s F.netRoot_root r.root).s F.netRoot_level r.level).sb F.netStatus_root_self (decide (r.root = d.addr.toNat) && d.g F.netStatus_claim = 2)
    let d := ({ d with net := { d.net with tbl := r, shown := true, run := none } }).snapWrite
    let d := (d.licPulse 548).whenD lost (fun d => d.raise 195)
    if d.settledNet && d.allFull && d.net.chg + 2000 ≤ d.now then d.convergedNow else d

/-- The times of R289 have passed: a node that has met no neighbour makes its claim check, and a settled one is converged. -/
def Dev.convergenceCmd (d : Dev) : Dev :=
  if !d.netOn || d.g F.pitPitchStatus_step < 11 then d
  else if !d.net.checked then (if (List.range 8).any (fun p => 2 ≤ d.nbrState p) then d else d.claimCheck)
  else if d.settledNet then d.convergedNow else d

end Sys2Proof.Machine
end

