-- ==== Sys2Proof/Machine/Phy.lean ====
section
/-! DEFINITION. The Chrorath physical layer (06): training, lane lock, link down, calibration and the eye scan; and what a link going down and up does to its link layer (R239, R241, R253). -/
namespace Sys2Proof.Machine

/-- A port's state beside its registers. -/
def Dev.port (d : Dev) (p : Nat) : PortSt := d.ports.lk PortSt.empty p

/-- The device with a port's state replaced. -/
def Dev.setPort (d : Dev) (p : Nat) (x : PortSt) : Dev := { d with ports := d.ports.put PortSt.empty p x }

/-- A port's physical layer. -/
def Dev.phy (d : Dev) (p : Nat) : Phy := (d.port p).phy

/-- The device with a port's physical layer replaced. -/
def Dev.setPhy (d : Dev) (p : Nat) (x : Phy) : Dev := d.setPort p { d.port p with phy := x }

/-- A port's link layer. -/
def Dev.lnk (d : Dev) (p : Nat) : Link := (d.port p).link

/-- The device with a port's link layer replaced. -/
def Dev.setLnk (d : Dev) (p : Nat) (x : Link) : Dev := d.setPort p { d.port p with link := x }

/-- crl.phy_status.state (R218). -/
def Dev.phyState (d : Dev) (p : Nat) : Nat := d.g (F.crlPhyStatus_state p)

/-! ### The link layer at link down and link up -/

/-- A port leaves Open: its LIC event fires, and a fabric port's neighbour goes Down (R268, R480). -/
def Dev.leaveOpen (d : Dev) (p : Nat) : Dev :=
  if d.portOpen p then (d.licPulse (560 + p)).whenD (p < 8) (fun d => d.nbrDown p) else d

/-- The link layer learns that its link is down: a replay or an Init exchange is abandoned, the session held (R239, R253). -/
def Dev.linkDown (d : Dev) (p : Nat) : Dev :=
  let had := 2 ≤ d.linkState p || d.gb (F.crlLinkStatus_held p)
  let d := (d.leaveOpen p).whenD (p < 8) (fun d => d.fabricDown p)
  let d := ((d.s (F.crlLinkStatus_state p) 0).sb (F.crlLinkStatus_held p) had).sb (F.crlLinkStatus_replaying p) false
  d.setLnk p { d.lnk p with replay := [], init := none, nakSend := false }

/-- The link is up: the Init exchange begins (R240, R241). -/
def Dev.linkUp (d : Dev) (p : Nat) : Dev :=
  (d.s (F.crlLinkStatus_state p) 1).setLnk p { d.lnk p with init := some ⟨false, false, false, false, false, 0, 0#32, 0#16, 0⟩ }

/-! ### Training (R191, R192, R200 to R203, R209, R210, R217) -/

/-- The starting steps of a preset: pre-cursor, post-cursor (R218). -/
def presetTaps (n : Nat) : Nat × Nat := nth [(0, 0), (0, 4), (0, 8), (0, 12), (2, 0), (2, 6), (4, 8), (4, 12)] n (0, 0)

/-- Nothing received on a lane yet; the lane answers preset applied and asks its partner to hold (R200, R202). -/
def laneT0 : LaneT := ⟨0, 0, 0, false, 0, 0, 0, 0, false, false, 0, false, false, 0, 0, 0, false, 3, 0, 0⟩

/-- What lane l has received, and what it sends. -/
def Dev.laneT (d : Dev) (p l : Nat) : LaneT := (d.phy p).lanes.lk laneT0 l

/-- The device with a lane's record replaced. -/
def Dev.setLaneT (d : Dev) (p l : Nat) (x : LaneT) : Dev := d.setPhy p { d.phy p with lanes := (d.phy p).lanes.put laneT0 l x }

/-- Training may run: both domains On, the port neither Absent nor held down, pitch step 4 ended, no limited pitch and no Fence (R134, R152, R201, R216, R535). -/
def Dev.mayTrain (d : Dev) (p : Nat) : Bool :=
  d.pdSt (phyDomain p) = .on && d.pdSt (linkDomain p) = .on && !d.portHeld p && 5 ≤ d.g F.pitPitchStatus_step && !d.limited && !d.fence

/-- The port runs at a PAM4 rate (R193). -/
def Dev.pam4 (d : Dev) (p : Nat) : Bool := 2 ≤ d.portRate p

/-- The receive lane that carries the partner's logical lane k, as its frames name it (R200). -/
def Dev.laneOf (d : Dev) (p k : Nat) : Option Nat :=
  (List.range (lanesOf p)).find? (fun l => 0 < (d.laneT p l).run && (d.laneT p l).lane = k && !(d.phy p).off.contains l)

/-- The frame that transmit lane k sends now, with a Switch count: it reports, and asks for, the partner's logical lane k (R200 to R202, R214). -/
def Dev.txFrame (d : Dev) (p k count : Nat) : FrameF :=
  let r := match d.laneOf p k with
    | some l => d.laneT p l
    | none => laneT0
  { seq := (d.phy p).seq, lane := k, native := Nat.log2 (lanesOf p), rate := d.portRate p, fec := d.pam4 p || (d.phy p).fecReq, loc := 8 ≤ p,
    state := d.phyState p, ack := 8 ≤ r.sameRun, preReq := r.reqPre, postReq := r.reqPost, eqStat := (d.laneT p k).eqStat,
    widths := 2 * lanesOf p - 1, count := count }

/-- A port in training sends one frame on every lane not held out, from Config on the lanes of the width only, and its frame counter advances (R192, R200, R214). The frames between two commands of a port differ from these in their counter alone (log entry 112). -/
def Dev.sendFrame (d : Dev) (p count : Nat) : Dev :=
  let ks := (List.range (if d.phyState p = 5 then (d.phy p).width else lanesOf p)).filter (fun k => !(d.phy p).off.contains k)
  let d := d.each ks (fun d k => d.emit (.line p k (frameLevels (d.pam4 p) (d.txFrame p k count).bits)))
  d.setPhy p { d.phy p with seq := ((d.phy p).seq + 1) % 256 }

/-- A port in Sync to Config sends frames. -/
def Dev.sendFrames (d : Dev) (p : Nat) : Dev := if 1 ≤ d.phyState p && d.phyState p ≤ 4 then d.sendFrame p 0 else d

/-- One lane at the start of an attempt (R202). -/
def Dev.laneStart (d : Dev) (p l : Nat) : Dev :=
  let t := presetTaps (d.g (F.crlLaneCfg_tx_preset p l))
  ((d.wr (R.crlLaneStatus p l) 0#64).s (F.crlLaneStatus_pre p l) t.1).s (F.crlLaneStatus_post p l) t.2

/-- An attempt starts in Sync (R201): the lanes held out and the FEC request are those of this moment (R194, R214), and crl.phy_cfg.retrain clears (R218). -/
def Dev.attempt (d : Dev) (p : Nat) : Dev :=
  let off := (List.range (lanesOf p)).filter (fun l => d.gb (F.crlLaneCfg_disable p l))
  let d := d.setPhy p { d.phy p with idle := false, timer := false, lanes := [], lock := [], width := 0, off := off, fecReq := d.gb (F.crlPhyCfg_nrz_fec p), skew := [], tx := ⟨[], 0, []⟩, rx := ⟨[], [], [], false, []⟩ }
  let d := (d.each (List.range (lanesOf p)) (fun d l => d.laneStart p l)).bump (F.crlTrainCnt_attempts p)
  let d := (((d.s (F.crlPhyStatus_state p) 1).sb (F.crlPhyStatus_lock p) false).s (F.crlPhyStatus_width p) 0).sb (F.crlPhyStatus_reversed p) false
  ((d.sb (F.crlPhyStatus_fec_on p) false).sb (F.crlPhyCfg_retrain p) false).sendFrames p

/-- Training starts where it may (R201). -/
def Dev.trainStart (d : Dev) (p : Nat) : Dev :=
  if d.phyState p = 0 && !(d.phy p).idle && d.mayTrain p then d.attempt p else d

/-- The port's lanes go to electrical idle (R203, R215). -/
def Dev.toIdle (d : Dev) (p : Nat) : Dev :=
  let d := (((d.s (F.crlPhyStatus_state p) 0).sb (F.crlPhyStatus_lock p) false).s (F.crlPhyStatus_width p) 0).sb (F.crlPhyStatus_fec_on p) false
  let d := d.each (List.range (lanesOf p)) (fun d l => d.sb (F.crlLaneStatus_locked p l) false)
  d.setPhy p { d.phy p with timer := false, lock := [], width := 0, skew := [], tx := ⟨[], 0, []⟩, rx := ⟨[], [], [], false, []⟩ }

/-- An attempt fails: 10 ms of electrical idle; the third failure in a row is reported (R203). -/
def Dev.trainFail (d : Dev) (p : Nat) : Dev :=
  let n := (d.phy p).fails + 1
  let d := (d.toIdle p).bump (F.crlTrainCnt_failed p)
  let d := d.setPhy p { d.phy p with fails := n, idle := true }
  if n = 3 then (d.s (F.crlPhyStatus_last_down p) 5).raise (99 + 4 * p) else d

/-- The idle time after a failure ends (R203). -/
def Dev.trainIdleEnd (d : Dev) (p : Nat) : Dev :=
  if d.phyState p = 0 && (d.phy p).idle then (d.setPhy p { d.phy p with idle := false }).trainStart p else d

/-- Lanes that have synced and are not held out of this training (R214). -/
def Dev.syncedLanes (d : Dev) (p : Nat) : List Nat :=
  (List.range (lanesOf p)).filter (fun l => d.gb (F.crlLaneStatus_synced p l) && !(d.phy p).off.contains l)

/-- The partner's good frames still come on a lane: the last one was good, and it came in this microsecond or the one before (R201, log entry 113). -/
def Dev.hears (d : Dev) (p l : Nat) : Bool := 0 < (d.laneT p l).run && d.now ≤ (d.laneT p l).heard + 1

/-- The lanes are reversed: the mapping of the majority of synced lanes, in order on a tie (R191, R217). -/
def Dev.reversedBy (d : Dev) (p : Nat) : Bool :=
  let ls := d.syncedLanes p
  let n := lanesOf p
  decide ((ls.filter (fun l => (d.laneT p l).lane = l)).length < (ls.filter (fun l => (d.laneT p l).lane = n - 1 - l)).length)

/-- The synced lanes that fit the mapping, with the logical lane each carries (R217). -/
def Dev.mapped (d : Dev) (p : Nat) : List (Nat × Nat) :=
  let r := d.reversedBy p
  ((d.syncedLanes p).map (fun l => (l, if r then lanesOf p - 1 - l else l))).filter (fun e => (d.laneT p e.1).lane = e.2)

/-- The partner's native width, as its frames give it: 4 and 8 lanes are codes 2 and 3 (R200); codes 0 and 1 are taken as 1 and 2 lanes, the powers of two they continue, so that the 2-lane port of R3 trains (log entry 103, DEDUCED: no rule lists them). -/
def Dev.peerNative (d : Dev) (p : Nat) : Nat := match d.mapped p with
  | [] => 0
  | e :: _ => 2 ^ (d.laneT p e.1).native

/-- Both ends report logical lanes 0 to w − 1 as synced, frames still come on them, and both accept width w (R192, R201). -/
def Dev.widthOk (d : Dev) (p w : Nat) : Bool :=
  let ms := d.mapped p
  w ≤ lanesOf p && w ≤ d.peerNative p &&
  (List.range w).all (fun i => ms.any (fun e => e.2 = i && (d.laneT p e.1).rep && d.hears p e.1 && bitOf (d.laneT p e.1).widths (Nat.log2 w)))

/-- The trained width, none where no width exists (R192). -/
def Dev.widthOf (d : Dev) (p : Nat) : Option Nat := [8, 4, 2, 1].find? (fun w => d.widthOk p w)

/-- A synced lane's frames name another rate or another kind of port (R209, R210). -/
def Dev.mismatch (d : Dev) (p : Nat) : Bool :=
  (d.mapped p).any (fun e => (d.laneT p e.1).rate ≠ d.portRate p || (d.laneT p e.1).kind != decide (8 ≤ p))

/-- The physical lanes of the trained width. -/
def Dev.trainedLanes (d : Dev) (p : Nat) : List Nat :=
  (d.mapped p).filterMap (fun e => if e.2 < (d.phy p).width then some e.1 else none)

/-- A tap moved by a request: none where that would take it beyond its range (R202). A reserved request is taken as hold (log entry 104). -/
def tapMove (v req hi : Nat) : Option Nat :=
  if req = 1 then (if v < hi then some (v + 1) else none) else if req = 2 then (if 0 < v then some (v - 1) else none) else some v

/-- The tap requests of a frame applied to this end's transmitter, the pre-cursor's first, each judged by itself (R202); gives the new taps and the answer: 0 updated, 1 at limit. -/
def tapStep (pre post preReq postReq : Nat) : Nat × Nat × Nat :=
  let a := match tapMove pre preReq 15 with
    | some v => if v + post ≤ 40 then (v, 0) else (pre, 1)
    | none => (pre, 1)
  let b := match tapMove post postReq 31 with
    | some v => if a.1 + v ≤ 40 then (v, 0) else (post, 1)
    | none => (post, 1)
  (a.1, b.1, max a.2 b.2)

/-- A tap request of the partner for the transmit lane k (R202, log entry 16). -/
def Dev.steer (d : Dev) (p k preReq postReq : Nat) : Dev :=
  if lanesOf p ≤ k || (preReq % 3 = 0 && postReq % 3 = 0) then d
  else
    let t := tapStep (d.g (F.crlLaneStatus_pre p k)) (d.g (F.crlLaneStatus_post p k)) preReq postReq
    ((d.s (F.crlLaneStatus_pre p k) t.1).s (F.crlLaneStatus_post p k) t.2.1).setLaneT p k { d.laneT p k with eqStat := t.2.2 }

/-- What the receiver of a lane asks of its partner's taps, as its equaliser adapts: a free value (R202, log entry 114). -/
def Dev.adapt (d : Dev) (p l : Nat) : Dev :=
  let a := d.takeFree
  a.2.setLaneT p l { a.2.laneT p l with reqPre := a.1.toNat % 3, reqPost := a.1.toNat / 4 % 3 }

/-- A received frame as its lane's polarity corrects it, and whether it was inverted; none where it is bad (R200). -/
def goodFrame (f : BitVec 256) : Option (BitVec 256 × Bool) :=
  let c := if frameFld f 31 0 = frameMarker then some (f, false) else if frameFld (~~~f) 31 0 = frameMarker then some (~~~f, true) else none
  match c with
  | some x => if frameCrcGood x.1 then some x else none
  | none => none

/-- The lane's record after a good frame in microsecond `now` (R200, R201): an ack in Sync or Deskew reports the lane synced. -/
def LaneT.take (t : LaneT) (f : BitVec 256) (inv : Bool) (now : Nat) : LaneT :=
  let st := frameFld f 52 50
  let ack := frameFld f 53 53 = 1
  { t with
    run := t.run + 1, sameRun := if st = t.lastState then t.sameRun + 1 else 1, lastState := st, inv := inv, seq := frameFld f 39 32, lane := frameFld f 43 40,
    native := frameFld f 45 44, rate := frameFld f 47 46, fec := frameFld f 48 48 = 1, kind := frameFld f 49 49 = 1, widths := frameFld f 63 60,
    ack := ack, hold := frameFld f 55 54 % 3 = 0 && frameFld f 57 56 % 3 = 0, eqIn := frameFld f 59 58, count := frameFld f 71 64, heard := now, rep := t.rep || (st ≤ 2 && ack) }

/-- The lanes that Equalise works on: those of the width, or every mapped one where no width is decided (R201, R210). -/
def Dev.eqLanes (d : Dev) (p : Nat) : List Nat := if (d.phy p).width = 0 then (d.mapped p).map (·.1) else d.trainedLanes p

/-- Both ends send ack with hold requests on every lane of the width (R201 step 3); a partner in Config has seen this end's. -/
def Dev.equalised (d : Dev) (p : Nat) : Bool :=
  !(d.eqLanes p).isEmpty && (d.eqLanes p).all (fun l =>
    let t := d.laneT p l
    4 ≤ t.lastState || (t.lastState = 3 && t.ack && t.hold && 8 ≤ t.sameRun && t.reqPre = 0 && t.reqPost = 0))

/-- Sync has what it needs: a lane that is synced and that the partner has reported synced (R201, log entry 37). -/
def Dev.syncDone (d : Dev) (p : Nat) : Bool := (d.syncedLanes p).any (fun l => (d.laneT p l).rep)

/-- A received training frame (R200 to R202). -/
def Dev.frame (d : Dev) (p l : Nat) (f : BitVec 256) : Dev :=
  let st := d.phyState p
  if st = 0 || 5 < st || lanesOf p ≤ l then d
  else match goodFrame f with
  | none => d.setLaneT p l { d.laneT p l with run := 0, sameRun := 0 }
  | some (g, inv) =>
    let d := d.setLaneT p l ((d.laneT p l).take g inv d.now)
    let d := d.whenD (st ≤ 2 && 8 ≤ (d.laneT p l).run) (fun d => (d.sb (F.crlLaneStatus_synced p l) true).sb (F.crlLaneStatus_inverted p l) inv)
    let d :=
      if st = 1 then d.whenD (d.syncDone p) (fun d => d.s (F.crlPhyStatus_state p) 2)
      else if st = 3 then
        let d := (d.steer p (d.laneT p l).lane (frameFld g 55 54) (frameFld g 57 56)).adapt p l
        d.whenD (d.equalised p) (fun d => d.s (F.crlPhyStatus_state p) 4)
      else d
    d.sendFrames p

/-- A step passes its time limit: Sync, Equalise and data lock fail the attempt (R201). -/
def Dev.stepTimeout (d : Dev) (p : Nat) : Dev :=
  let st := d.phyState p
  if st = 1 || st = 3 || st = 6 then d.trainFail p else d

/-- The end of Deskew: the lanes aligned by seq, reversal and width decided, or the attempt failed (R191, R192, R201, R204, R210, R217). -/
def Dev.deskewed (d : Dev) (p : Nat) : Dev :=
  if d.phyState p ≠ 2 then d
  else if d.mismatch p then (d.s (F.crlPhyStatus_state p) 3).sendFrames p
  else match d.widthOf p with
  | none => d.trainFail p
  | some w =>
    let ms := d.mapped p
    let ref := (ms.head?.map (fun e => (d.laneT p e.1).seq)).getD 0
    let skew := ms.foldl (fun (m : SMap Nat) e => m.put 0 e.1 ((ref + 256 - (d.laneT p e.1).seq) % 256)) []
    let d := (d.sb (F.crlPhyStatus_reversed p) (d.reversedBy p)).setPhy p { d.phy p with width := w, skew := skew }
    let d := d.each ms (fun d e => d.s (F.crlLaneStatus_logical p e.1) e.2)
    (d.s (F.crlPhyStatus_state p) 3).sendFrames p

/-- The partner has reached Config on every lane of the width, and its frames still come (R201 step 4). -/
def Dev.configHeard (d : Dev) (p : Nat) : Bool := (d.trainedLanes p).all (fun l => d.hears p l && 4 ≤ (d.laneT p l).lastState)

/-- The end of Config: rate and kind must agree; width and FEC use are fixed, and the sixteen frames of Switch count down (R192, R194, R201, R209, R210). -/
def Dev.configured (d : Dev) (p : Nat) : Dev :=
  if d.phyState p ≠ 4 then d
  else if d.mismatch p || !d.configHeard p then d.trainFail p
  else
    let w := (d.phy p).width
    let tr := d.trainedLanes p
    let fec := d.pam4 p || (d.phy p).fecReq || tr.any (fun l => (d.laneT p l).fec)
    let d := d.each (List.range (lanesOf p)) (fun d l => d.sb (F.crlLaneStatus_excluded p l) (!tr.contains l))
    let d := ((d.s (F.crlPhyStatus_width p) w).sb (F.crlPhyStatus_fec_on p) fec).s (F.crlPhyStatus_state p) 5
    let d := d.whenD (w < min (lanesOf p) (d.peerNative p)) (fun d => d.raise (97 + 4 * p))
    d.each (List.range 16) (fun d i => d.sendFrame p (15 - i))

/-! ### The data coding (R195 to R199) -/

/-- The logical lane of a physical lane (R191). -/
def Dev.logical (d : Dev) (p l : Nat) : Nat := d.g (F.crlLaneStatus_logical p l)

/-- A lane's transmit coding starts: what its scrambler holds at the data switch is a free value (R197, log entry 114). -/
def Dev.laneCoding (d : Dev) (p k : Nat) : Dev :=
  let a := d.takeFree
  let x := (a.2.phy p).tx
  a.2.setPhy p { a.2.phy p with tx := { x with lanes := x.lanes.ins k ⟨a.1.setWidth 58, [], 0⟩ } }

/-- A lane's receive coding starts (R197). -/
def Dev.laneDecoding (d : Dev) (p l : Nat) : Dev :=
  let a := d.takeFree
  let x := (a.2.phy p).rx
  a.2.setPhy p { a.2.phy p with rx := { x with scr := x.scr.ins l (a.1.setWidth 58) } }

/-- The Switch count reaches 0: the data coding starts (R201 step 5). -/
def Dev.switched (d : Dev) (p : Nat) : Dev :=
  if d.phyState p ≠ 5 then d
  else
    let d := (d.each (List.range (d.phy p).width) (fun d k => d.laneCoding p k)).each (d.trainedLanes p) (fun d l => d.laneDecoding p l)
    d.s (F.crlPhyStatus_state p) 6

/-- One symbol of the stream on its lane (R197, R198): the lane's coding, and the codeword it completes. -/
def TxLane.symbol (x : TxLane) (gap : Nat) (bs : List Bool) : TxLane × Option (List (BitVec 10)) :=
  let r := scramble x.scr bs
  let msg := x.msg ++ [BitVec.ofNat 10 (ofBits r.2)]
  if 514 ≤ msg.length then (⟨r.1, [], (x.cw + 1) % gap⟩, some (rsCodeword msg (x.cw = 0))) else (⟨r.1, msg, x.cw⟩, none)

/-- The bits of a codeword in time: highest degree first, each symbol bit 0 first (R197). -/
def codewordBits (c : List (BitVec 10)) : List Bool := c.flatMap (fun s => bitsLE 10 s.toNat)

/-- One symbol of the stream goes to the next lane; a completed codeword is sent (R197, R198). -/
def Dev.sendSymbol (d : Dev) (p w : Nat) (bs : List Bool) : Dev :=
  let x := (d.phy p).tx
  match x.lanes.find? x.sym with
  | none => d
  | some t =>
    let r := t.symbol (512 / w) bs
    let d := d.setPhy p { d.phy p with tx := { x with sym := (x.sym + 1) % w, lanes := x.lanes.ins x.sym r.1 } }
    match r.2 with
    | some c => d.emit (.line p x.sym (lineLevels (d.pam4 p) (codewordBits c)))
    | none => d

/-- One 64-bit block of a flit on its lane, behind its sync header (R199). -/
def Dev.sendBlock (d : Dev) (p w k : Nat) (bs : List Bool) : Dev :=
  let x := (d.phy p).tx
  match x.lanes.find? (k % w) with
  | none => d
  | some t =>
    let r := scramble t.scr bs
    let d := d.setPhy p { d.phy p with tx := { x with lanes := x.lanes.ins (k % w) { t with scr := r.1 } } }
    d.emit (.line p (k % w) (lineLevels (d.pam4 p) ([decide (k < w), decide (w ≤ k)] ++ r.2)))

/-- A flit handed down is serialised and coded (R196 to R199). -/
def Dev.lineSend (d : Dev) (p : Nat) (bytes : List Byte) : Dev :=
  let w := (d.phy p).width
  if w = 0 then d
  else if d.gb (F.crlPhyStatus_fec_on p) then
    let c := cutEvery 10 206 ((d.phy p).tx.bits ++ streamBits bytes)
    (d.setPhy p { d.phy p with tx := { (d.phy p).tx with bits := c.2 } }).each c.1 (fun d b => d.sendSymbol p w b)
  else d.each ((List.range 32).zip (cutEvery 64 32 (streamBits bytes)).1) (fun d e => d.sendBlock p w e.1 e.2)

/-- The pieces of the lanes of one place, in stream order (R197, R199). -/
def rowBits (w : Nat) (row : SMap Piece) : List (Bool × Bool) :=
  let lane (k : Nat) : Piece := row.lk ⟨[], true⟩ k
  (List.range (lane 0).parts.length).flatMap (fun i => (List.range w).flatMap (fun k => ((lane k).parts.getD i []).map (fun b => (b, (lane k).err))))

/-- A flit of the received stream: its bytes, and whether a bit of it arrived with an error (R198, R199). -/
def flitOf (bs : List (Bool × Bool)) : UpFlit :=
  ⟨(cutEvery 8 256 (bs.map (·.1))).1.map (fun b => BitVec.ofNat 8 (ofBits b)), bs.any (·.2)⟩

/-- The received stream goes on by `bs`, whose first bit lies `start` bits after the start of a superframe or flit: whole flits are handed up (R198, R199). -/
def LineRx.stream (x : LineRx) (start : Nat) (bs : List (Bool × Bool)) : LineRx :=
  let skip := if x.aligned then 0 else (2048 - start % 2048) % 2048
  if bs.length < skip then x
  else
    let c := cutEvery 2048 bs.length (x.bits ++ bs.drop skip)
    { x with bits := c.2, aligned := true, up := x.up ++ c.1.map flitOf }

/-- What a locked link's logical lane k brings at place `r` of `gap`; the row of all w lanes goes into the stream (R197 to R199). -/
def LineRx.piece (x : LineRx) (w gap r k : Nat) (q : Piece) : LineRx :=
  let row := (x.rows.lk [] r).ins k q
  if (List.range w).all (fun i => (row.find? i).isSome) then
    let bs := rowBits w row
    { x with rows := x.rows.filter (fun e => e.1 ≠ r && (e.1 + gap - r) % gap < max 2 (gap / 2)) }.stream (r * bs.length) bs
  else { x with rows := x.rows.ins r row }

/-- While the link holds no lock nothing goes up (R205); the descramblers run on. -/
def Dev.lineUp (d : Dev) (p l gap : Nat) (since : Option Nat) (q : Piece) : Dev :=
  let x := (d.phy p).rx
  if d.phyState p = 7 && d.gb (F.crlPhyStatus_lock p) then
    match since with
    | some r => d.setPhy p { d.phy p with rx := x.piece (d.phy p).width gap r (d.logical p l) q }
    | none => d
  else d.setPhy p { d.phy p with rx := { x with rows := [], bits := [], aligned := false } }

/-- The link layer takes a flit handed up: the flit commands name it (log entry 115). -/
def Dev.takeUp (d : Dev) (p : Nat) : Dev :=
  let x := (d.phy p).rx
  if x.up.isEmpty then d else d.setPhy p { d.phy p with rx := { x with up := x.up.drop 1 } }

/-- Received bits of a lane through its descrambler (R197, R199). -/
def Dev.unscramble (d : Dev) (p l : Nat) (bs : List Bool) : Dev × List Bool :=
  let x := (d.phy p).rx
  let r := descramble (x.scr.lk 0#58 l) bs
  (d.setPhy p { d.phy p with rx := { x with scr := x.scr.put 0#58 l r.1 } }, r.2)

/-! ### Lock and link down (R204, R205, R211 to R215) -/

/-- Nothing tracked on a lane yet. -/
def laneL0 : LaneL := ⟨0, 0, none, 0, [], 0⟩

/-- Lock tracking of a lane. -/
def Dev.laneL (d : Dev) (p l : Nat) : LaneL := (d.phy p).lock.lk laneL0 l

/-- The device with a lane's lock tracking replaced. -/
def Dev.setLaneL (d : Dev) (p l : Nat) (x : LaneL) : Dev := d.setPhy p { d.phy p with lock := (d.phy p).lock.put laneL0 l x }

/-- A lane is locked. -/
def Dev.laneLocked (d : Dev) (p l : Nat) : Bool := d.gb (F.crlLaneStatus_locked p l)

/-- Every lane of the trained width is locked (R204). -/
def Dev.allLocked (d : Dev) (p : Nat) : Bool := !(d.trainedLanes p).isEmpty && (d.trainedLanes p).all (fun l => d.laneLocked p l)

/-- The link comes up (R201 step 6). -/
def Dev.phyUp (d : Dev) (p : Nat) : Dev :=
  let d := (d.s (F.crlPhyStatus_state p) 7).sb (F.crlPhyStatus_lock p) true
  (d.setPhy p { d.phy p with fails := 0 }).linkUp p

/-- Data lock on every lane of the trained width (R201, R204). -/
def Dev.dataLocked (d : Dev) (p : Nat) : Dev :=
  if d.phyState p ≠ 6 then d
  else (d.each (d.trainedLanes p) (fun d l => d.sb (F.crlLaneStatus_locked p l) true)).phyUp p

/-- A lane loses lock: an up link loses it too, and starts its lock-loss timer (R204, R205). A lane of an up link counts the loss when it ends (log entry 38), one of a training link at once (R208). -/
def Dev.laneLost (d : Dev) (p l : Nat) : Dev :=
  if d.phyState p < 6 || !d.laneLocked p l then d
  else
    let d := (d.sb (F.crlLaneStatus_locked p l) false).setLaneL p l laneL0
    let d := d.whenD (d.phyState p = 6) (fun d => d.bump (F.crlLockLoss_count p l))
    if d.gb (F.crlPhyStatus_lock p) then (d.sb (F.crlPhyStatus_lock p) false).setPhy p { d.phy p with timer := true } else d

/-- An up link goes down with a cause (R205, R212, R215, R218). -/
def Dev.phyDown (d : Dev) (p cause : Nat) : Dev :=
  if d.phyState p ≠ 7 then d
  else
    let d := d.each ((d.trainedLanes p).filter (fun l => !d.laneLocked p l)) (fun d l => d.bump (F.crlLockLoss_count p l))
    let d := ((d.toIdle p).bump (F.crlDownCnt_down p)).s (F.crlPhyStatus_last_down p) cause
    (d.linkDown p).whenD (cause = 1) (fun d => d.raise (98 + 4 * p))

/-- A lane gains lock: an up link whose timer runs recovers with its last lane, unless the timer expires in the same CORE cycle, and a training link comes up (R204, R205, R211). -/
def Dev.laneFound (d : Dev) (p l : Nat) (expiring : Bool) : Dev :=
  if d.phyState p < 6 || d.laneLocked p l || !(d.trainedLanes p).contains l then d
  else
    let d := d.sb (F.crlLaneStatus_locked p l) true
    if d.phyState p = 6 then d.whenD (d.allLocked p) (fun d => d.phyUp p)
    else
      let d := d.bump (F.crlLockLoss_count p l)
      if !d.allLocked p then d
      else if expiring && (d.phy p).timer then (d.phyDown p 1).trainStart p
      else ((d.sb (F.crlPhyStatus_lock p) true).setPhy p { d.phy p with timer := false }).bump (F.crlDownCnt_recovered p)

/-- The lock-loss timer expires: the link is declared down and training restarts at once (R205). -/
def Dev.lockTimer (d : Dev) (p : Nat) : Dev :=
  if d.phyState p = 7 && (d.phy p).timer then (d.phyDown p 1).trainStart p else d

/-- An up link is taken down and trains again (R212, R215). -/
def Dev.phyRetrain (d : Dev) (p cause : Nat) : Dev := if d.phyState p = 7 then (d.phyDown p cause).trainStart p else d

/-- A port's training stops and its lanes go idle; an up link goes down with a cause (R215). -/
def Dev.phyStop (d : Dev) (p cause : Nat) : Dev :=
  let d := if d.phyState p = 7 then d.phyDown p cause else d.toIdle p
  d.setPhy p { d.phy p with idle := false, lanes := [] }

/-! ### Codewords and blocks (R198, R199, R204, R206, R208) -/

/-- A codeword while the lane holds no lock (R204): codeword lock after three that decode in a row, lost after 8 in a row that do not; then two marked ones `gap` apart. -/
def LaneL.seek (t : LaneL) (gap : Nat) (ok marked : Bool) : LaneL × Bool :=
  if t.good < 3 then ((if ok then ⟨t.good + 1, 0, none, 0, [], 0⟩ else laneL0), false)
  else
    let next := t.since.map (· + 1)
    if !ok then ((if 8 ≤ t.bad + 1 then laneL0 else { t with bad := t.bad + 1, since := next }), false)
    else if marked then (⟨t.good, 0, some 0, 0, [], 0⟩, next = some gap)
    else ({ t with bad := 0, since := next }, false)

/-- A codeword while the lane is locked (R204): lost after 8 uncorrectable in a row, or 2 superframes without their mark. Where the lock came without the codewords before it, the first mark gives the place. -/
def LaneL.keepCw (t : LaneL) (gap : Nat) (ok marked : Bool) : LaneL × Bool :=
  let next := match t.since with
    | some n => some ((n + 1) % gap)
    | none => if marked then some 0 else none
  let bad := if ok then 0 else t.bad + 1
  let missed := if next = some 0 then (if marked then 0 else t.missed + 1) else t.missed
  (⟨t.good, bad, next, missed, [], 0⟩, 8 ≤ bad || 2 ≤ missed)

/-- What a read of a codeword adds to the counters of a locked lane (R206, R208). -/
def Dev.countCw (d : Dev) (p l : Nat) (k : Option (List (BitVec 10) × Nat × Bool)) : Dev := match k with
  | none => d.bump (F.crlUncorrCw_count p l)
  | some (_, n, _) =>
    if n = 0 then d
    else ((d.bumpBy (F.crlCorrSym_count p l) n).bump (F.crlCorrCw_count p l)).setPhy p { d.phy p with corr := (d.phy p).corr + n }

/-- A received codeword of 544 symbols (R197, R198, R204, R208): read, counted, tracked, and its flit bits passed up, with an error indication where it is uncorrectable. -/
def Dev.codeword (d : Dev) (p l : Nat) (c : List (BitVec 10)) : Dev :=
  if d.phyState p < 6 || !d.gb (F.crlPhyStatus_fec_on p) || !(d.trainedLanes p).contains l then d
  else
    let gap := 512 / max 1 (d.phy p).width
    let k := rsRead c
    let ok := k.isSome
    let marked := k.any (·.2.2)
    let u := d.unscramble p l (codewordBits ((k.map (·.1)).getD (c.take 514)))
    let d := u.1
    let locked := d.laneLocked p l
    let t := if locked then (d.laneL p l).keepCw gap ok marked else (d.laneL p l).seek gap ok marked
    let d := (d.whenD locked (fun d => d.countCw p l k)).setLaneL p l t.1
    let d := d.whenD t.2 (fun d => if locked then d.laneLost p l else d.laneFound p l false)
    d.lineUp p l gap t.1.since ⟨(cutEvery 10 514 u.2).1, !ok⟩

/-- A block header while the lane holds no lock (R204): `gap` blocks to a flit on a lane. -/
def LaneL.seekHdr (t : LaneL) (gap hdr : Nat) : LaneL × Bool :=
  let next := t.since.map (· + 1)
  if hdr = 2 then
    let good := if next = some gap then t.good + 1 else 1
    (⟨good, 0, some 0, 0, [], 0⟩, 64 ≤ good)
  else if hdr = 1 then
    match next with
    | none => (laneL0, false)
    | some n => if n = gap then (laneL0, false) else (⟨t.good + 1, 0, some n, 0, [], 0⟩, 64 ≤ t.good + 1)
  else (laneL0, false)

/-- A block header while the lane is locked (R204): lost on 16 invalid in 64 blocks, or 4 flits without their mark. -/
def LaneL.keepHdr (t : LaneL) (gap hdr : Nat) : LaneL × Bool :=
  let next := match t.since with
    | some n => some ((n + 1) % gap)
    | none => if hdr = 2 then some 0 else none
  let hist := (decide (hdr = 0 || hdr = 3) :: t.hist).take 64
  let miss := if next = some 0 then (if hdr = 2 then 0 else t.missHdr + 1) else t.missHdr
  (⟨t.good, 0, next, 0, hist, miss⟩, 16 ≤ (hist.filter id).length || 4 ≤ miss)

/-- A received 66-bit block (R199, R204, R208): its header checked and counted, its payload descrambled and passed up, with an error indication where the header is invalid. -/
def Dev.syncBlk (d : Dev) (p l hdr : Nat) (payload : W64) : Dev :=
  if d.phyState p < 6 || d.gb (F.crlPhyStatus_fec_on p) || !(d.trainedLanes p).contains l then d
  else
    let gap := 32 / max 1 (d.phy p).width
    let bad := hdr = 0 || hdr = 3
    let u := d.unscramble p l (bitsLE 64 payload.toNat)
    let d := u.1
    let locked := d.laneLocked p l
    let t := if locked then (d.laneL p l).keepHdr gap hdr else (d.laneL p l).seekHdr gap hdr
    let d := (d.whenD (locked && bad) (fun d => d.bump (F.crlHdrErr_count p l))).setLaneL p l t.1
    let d := d.whenD t.2 (fun d => if locked then d.laneLost p l else d.laneFound p l false)
    d.lineUp p l gap t.1.since ⟨[u.2], bad⟩

/-- The end of a 1 s interval of corrected symbols (R206). -/
def Dev.corrInterval (d : Dev) (p : Nat) : Dev :=
  let n := (d.phy p).corr
  (d.setPhy p { d.phy p with corr := 0 }).whenD (d.g (F.crlErrThresh_count p) < n) (fun d => d.raise (96 + 4 * p))

/-! ### Calibration, retrain and the eye scan (R207, R208, R212) -/

/-- A PHYCAL reading in units of 0.1 Ω is out of range: 180 to 220 Ω are good (R207). -/
def phycalBad (ohms : Nat) : Bool := ohms < 1800 || 2200 < ohms

/-- A PHYCAL measurement: the same value in every port; out of range raises F008 (R207, R218). -/
def Dev.phycal (d : Dev) (ohms : Nat) : Dev :=
  let bad := phycalBad ohms
  (d.each (List.range 12) (fun d p => (d.s (F.crlPhycal_ohms p) ohms).sb (F.crlPhycal_out_of_range p) bad)).srcCond 8 bad

/-- The codes at step 4 of a pitch: those of the reading, or the built-in ones where it is out of range (R207). -/
def Dev.calPitch (d : Dev) (ohms : Nat) : Dev :=
  let a := if phycalBad ohms then Config.termDefault else Config.termCode ohms
  let b := if phycalBad ohms then Config.swingDefault else Config.swingCode ohms
  { d.phycal ohms with codes := ⟨a, b, a, b⟩ }

/-- A measurement in service: the codes move to those of the reading; one out of range keeps the previous codes (R207). -/
def Dev.calService (d : Dev) (ohms : Nat) : Dev :=
  let c := d.codes
  { d.phycal ohms with codes := if phycalBad ohms then { c with termTo := c.term, swingTo := c.swing } else { c with termTo := Config.termCode ohms, swingTo := Config.swingCode ohms } }

/-- A code moves one step towards another. -/
def codeStep (c goal : Nat) : Nat := if c < goal then c + 1 else if goal < c then c - 1 else c

/-- Every 100 µs the codes move by at most one step (R207). -/
def Dev.calTick (d : Dev) : Dev :=
  if d.now % 100 = 0 then { d with codes := { d.codes with term := codeStep d.codes.term d.codes.termTo, swing := codeStep d.codes.swing d.codes.swingTo } } else d

/-- The judgement of a write of crl.phy_cfg (R194, R212, R218): retrain written 1 takes an up link down, and the bit clears when Sync starts; while training runs it is ignored; on an idle port it stays set until Sync starts (log entry 116, DEDUCED). -/
def Dev.judgePhyCfg (d : Dev) (p : Nat) (c : WCtx) : WOut := match regAt c.off with
  | none => .unmapped
  | some r => d.judgeRow r c (d.rd c.off) (fun v d =>
      let running := 1 ≤ d.phyState p && d.phyState p ≤ 6
      let d := d.wr c.off (if running then setField v 1 1 0 else v)
      if v.getLsbD 1 then d.phyRetrain p 2 else d)

/-- The judgement of a write of crl.eye_ctl (R208): a scan of eye 1 or 2 of an NRZ lane is a reserved encoding. -/
def Dev.judgeEye (d : Dev) (p : Nat) (c : WCtx) : WOut := match regAt c.off with
  | none => .unmapped
  | some r =>
    match d.judgeRow r c (d.rd c.off) (fun v d => d.wr c.off v) with
    | .ok old new rs ex eff =>
      if fieldOf new 5 4 = 3 || (d.portRate p < 2 && fieldOf new 5 4 ≠ 0 && fieldOf new 8 8 = 1) then .bad old rs ex else .ok old new rs ex eff
    | o => o

/-- The eye scan returns (R208, R218). -/
def Dev.eyeDone (d : Dev) (p w h : Nat) : Dev :=
  if d.gb (F.crlEyeCtl_go p) then
    (((d.sb (F.crlEyeCtl_go p) false).s (F.crlEyeResult_width p) w).s (F.crlEyeResult_height p) h).sb (F.crlEyeResult_valid p) true
  else d

end Sys2Proof.Machine
end

