-- ==== Sys2Proof/Machine/Link.lean ====
section
/-! DEFINITION. The Chrorath link layer (07): flits sent and received, acknowledgement and replay, credits, the Init exchange, fresh and resumed sessions, delivery to the switch. -/
namespace Sys2Proof.Machine

/-- A link counter of port p: 0 replay, 1 nak_sent, 2 nak_rcvd, 3 bad, 4 dup, 5 undef, 6 malformed, 7 framing, 8 resumed, 9 fresh, 10 lost_flits, 11 spill_stall, 12 u_stall, 13 landed (R259). -/
def Dev.cnt (d : Dev) (p i : Nat) : Dev := d.bump (F.crlCnt_count p i)

/-- E, the sequence number expected (R227). -/
def Dev.rxE (d : Dev) (p : Nat) : Nat := d.g (F.crlRxSeq_E p)

/-- next_seq (R226). -/
def Dev.nextSeq (d : Dev) (p : Nat) : Nat := d.g (F.crlTxSeq_next_seq p)

/-- acked (R226). -/
def Dev.acked (d : Dev) (p : Nat) : Nat := d.g (F.crlTxSeq_acked p)

/-- (a − b) mod 65,536. -/
def sub16 (a b : Nat) : Nat := (a + 65536 - b % 65536) % 65536

/-- U, the unacknowledged count (R226). -/
def unackedCount (next acked : Nat) : Nat := sub16 next ((acked + 1) % 65536)

/-- U of port p: the flits in its rings. -/
def Dev.uCount (d : Dev) (p : Nat) : Nat := (d.lnk p).far.length + (d.lnk p).near.length

/-- The virtual channels a port uses (R223, R224). -/
def Dev.portVcs (d : Dev) (p : Nat) : List Nat :=
  if 8 ≤ p then [0, 2, 4, 6] else if p = 7 && d.twinMember then [0, 1, 2, 3, 4, 5, 6, 7] else [0, 1, 2, 3, 4, 5, 6]

/-- Dedicated credits held for a VC (R234). -/
def Dev.ded (d : Dev) (p v : Nat) : Nat := d.g (F.crlTxDed_ded p v)

/-- Shared credits held (R234). -/
def Dev.sharedCr (d : Dev) (p : Nat) : Nat := d.g (F.crlTxShared_shared p)

/-- On-die flits of a VC (R237). -/
def Link.onDie (l : Link) (v : Nat) : Nat := ((l.rxBuf.lk [] v).filter (fun f : RxFlit => !f.shared && !f.abort)).length

/-- Landed flits of a VC (R237). -/
def Link.landed (l : Link) (v : Nat) : Nat := ((l.rxBuf.lk [] v).filter (fun f : RxFlit => f.shared && !f.abort)).length

/-- The landing slots that hold a flit (R237). -/
def Link.landSlots (l : Link) : List Nat := l.rxBuf.flatMap (fun e => (e.2.filter (fun f : RxFlit => f.shared && !f.abort)).map (·.slot))

/-- The landing slot the next flit of a VC takes, in segments of `s` slots of a ring of `n` (R237): the next of the VC's tail segment, or the first of a segment that holds no flit, the lowest such one (log entry 19). -/
def Link.landNext (l : Link) (v n s : Nat) : Nat :=
  let fresh := s * ((List.range (n / s)).find? (fun g => l.landSlots.all (fun k => k / s ≠ g))).getD 0
  match ((l.rxBuf.lk [] v).filter (fun f : RxFlit => f.shared && !f.abort)).getLast? with
  | some f => if (f.slot + 1) % s = 0 then fresh else f.slot + 1
  | none => fresh

/-- Landed flits of all VCs. -/
def Link.landedAll (l : Link) : Nat := ((List.range 8).map l.landed).foldl (· + ·) 0

/-- The abort that ends a packet left open (R243, R249). -/
def abortMark : RxFlit := ⟨0, false, false, false, true, [], 0, []⟩

/-- The VC carries posted requests (R223). -/
def postedVc (v : Nat) : Bool := v = 5 || v = 6

/-! ### Grants (R236) -/

/-- One flit of a kind leaves the receive side: its grant advances while the port is Open, on VC3 to VC6 until Bivouac begins (R608). -/
def Dev.grantOne (d : Dev) (p v : Nat) (shared : Bool) : Dev :=
  let l := d.lnk p
  if !d.portOpen p || (d.bvc.phase ≠ .none && 3 ≤ v && v ≤ 6) then d
  else if shared then d.setLnk p { l with gs := (l.gs + 1) % 65536, gsOut := l.gsOut + 1 }
  else d.setLnk p { l with gd := l.gd.put 0 v ((l.gd.lk 0 v + 1) % 256), gdOut := l.gdOut.put 0 v (l.gdOut.lk 0 v + 1) }

/-- One VC's grant at Open: its free on-die space (R236, R242). -/
def Dev.grantVc (d : Dev) (p v : Nat) : Dev :=
  let l := d.lnk p
  let add := 16 - l.onDie v - l.gdOut.lk 0 v
  d.setLnk p { l with gd := l.gd.put 0 v ((l.gd.lk 0 v + add) % 256), gdOut := l.gdOut.put 0 v (l.gdOut.lk 0 v + add) }

/-- The port becomes Open: the grants advance by the free space (R236, R241 step 5, R242). -/
def Dev.openGrants (d : Dev) (p : Nat) : Dev :=
  let d := d.each (d.portVcs p) (fun d v => d.grantVc p v)
  let l := d.lnk p
  let add := sharedPool d.limitL - l.landedAll - l.gsOut
  d.setLnk p { l with gs := (l.gs + add) % 65536, gsOut := l.gsOut + add }

/-- A Trained port passes to Open where the pitch has come far enough (R134 steps 11 and 13, R138, R241, R480). -/
def Dev.tryOpen (d : Dev) (p : Nat) : Dev :=
  if d.linkState p = 2 && (if p < 8 then d.pit.logOpen && !d.limited else d.complete) then
    let d := (((d.s (F.crlLinkStatus_state p) 3).licPulse (560 + p)).openGrants p).stamp 11
    d.whenD (p < 8) (fun d => d.fabricOpen p)
  else d

/-! ### Sessions (R239 to R244) -/

/-- Numbers listed without repeats. -/
def distinct (l : List Nat) : List Nat := l.foldl (fun a x => if a.contains x then a else a ++ [x]) []

/-- The posted packets with a discarded flit (R243). -/
def Link.lostPosted (l : Link) : Nat :=
  (distinct (((l.far ++ l.near).filter (·.posted)).map (·.pid) ++ (l.txq.flatMap (fun e => e.2.filter (fun t => t.started && t.posted))).map (·.pid))).length

/-- The end discards its session: what was unacknowledged, begun or left open is lost, and every variable returns to its first value (R226, R243); the largest round trip starts anew with it (R259). -/
def Dev.discardSession (d : Dev) (p : Nat) : Dev :=
  let l := d.lnk p
  let flits := l.far.length + l.near.length
  let openVcs := (l.lineOpen.filter (fun e : Nat × RxOpen => !e.2.skip)).map (·.1)
  let rest := l.txq.any (fun e => e.2.any (·.started))
  let posted := l.lostPosted + (openVcs.filter postedVc).length
  let rx := openVcs.foldl (fun (m : SMap (List RxFlit)) v => m.put [] v (m.lk [] v ++ [abortMark])) l.rxBuf
  let d := d.setLnk p { l with far := [], near := [], replay := [], lastReplay := none, stale := 0, nakSend := false, txq := l.txq.map (fun e : Nat × List TxPkt => (e.1, e.2.filter (fun t => !t.started))), gd := [], gs := 0, gdSeen := [], gsSeen := 0, gdSent := [], gdOut := [], gsOut := 0, rxBuf := rx, lineOpen := [], begun := false, stuck := false }
  let d := ((d.s (F.crlTxSeq_next_seq p) 0).s (F.crlTxSeq_acked p) 65535).s (F.crlRxSeq_E p) 0
  let d := (d.s (F.crlTxShared_shared p) 0).each (List.range 8) (fun d v => d.s (F.crlTxDed_ded p v) 0)
  let d := ((d.sb (F.crlLinkStatus_replaying p) false).sb (F.crlLinkStatus_nak_state p) false).s (F.crlLinkRtt_max p) 0
  let d := (d.bumpBy (F.crlCnt_count p 10) flits).lostPosted (linkDomain p) posted
  let d := d.whenD (8 ≤ p) (fun d => d.licSession (p - 8))
  d.whenD (0 < flits || rest || !openVcs.isEmpty) (fun d => d.raise (146 + 4 * p))

/-- A request in the queues of a local port, by class: posted, or not. -/
def queuedReq (posted : Bool) (q : QEnt) : Bool := match q.item with
  | .tp k => k.opcode ≠ 0x80#8 && k.posted = posted
  | .raw _ | .host _ | .hostW _ _ _ _ => false

/-- What waits for a local port and what it holds ends with GONE 1, posted writes are lost (R400, R592); gives the device, the lost and the answered. -/
def Dev.localEnd (d : Dev) (n : Nat) : Dev × Nat × Nat :=
  let waits (w : DWait) : Bool := w.res = .localTag (Fin.ofNat 4 n) || w.res = .deliveryStream (Fin.ofNat 4 n)
  let x := d.egress (8 + n)
  let l := d.lnk (8 + n)
  let ws := d.trn.dwait.filter waits
  let posted := (ws.filter (fun w => w.pkt.posted)).length + (x.groups.map (fun g => (g.q.filter (queuedReq true)).length)).foldl (· + ·) 0 + (l.txq.map (fun e => (e.2.filter (·.posted)).length)).foldl (· + ·) 0
  let d := { d with trn := { d.trn with dwait := d.trn.dwait.filter (fun w => !waits w) } }
  let d := (d.setEgress (8 + n) { x with groups := [] }).setLnk (8 + n) { l with txq := l.txq.map (fun e : Nat × List TxPkt => (e.1, if e.1 = 4 || e.1 = 6 then [] else e.2)) }
  let np := ws.filter (fun w => !w.pkt.posted)
  let d := d.each np (fun d w => d.answer w.pkt 3 1)
  let r := d.endLocalTags n 1
  (r.2.lostPosted (linkDomain (8 + n)) posted, posted, r.1 + np.length)

/-- A local port's session lapses (R400). -/
def Dev.localLapse (d : Dev) (n : Nat) : Dev :=
  let r := d.localEnd n
  r.1.whenD (0 < r.2.1 + r.2.2) (fun d => d.raise 222)

/-- A held session lapses (R244, R400); an exchange that runs can no longer resume it. -/
def Dev.lapse (d : Dev) (p : Nat) : Dev :=
  if d.gb (F.crlLinkStatus_held p) && d.linkState p < 2 then
    let d := (d.discardSession p).sb (F.crlLinkStatus_held p) false
    let d := d.setLnk p { d.lnk p with init := (d.lnk p).init.map (fun x => { x with ok := false }) }
    d.whenD (8 ≤ p) (fun d => d.localLapse (p - 8))
  else d

/-- The port retrains as under R233: last_down reads 2, down_cause the cause; the session stays held. -/
def Dev.linkRetrain (d : Dev) (p cause : Nat) : Dev := (d.phyRetrain p 2).s (F.crlLinkStatus_down_cause p) cause

/-! ### Acknowledgement and replay (R226 to R233) -/

/-- A replay starts from acked + 1; the fifth trigger without progress retrains instead (R231, R233). A second trigger before the replay has sent a flit comes in the same cycle and makes one replay with it (R252, log entry 117). -/
def Dev.startReplay (d : Dev) (p : Nat) : Dev :=
  let l := d.lnk p
  let all := (l.far ++ l.near).map (·.seq)
  if all.isEmpty then d
  else if l.begun then (d.setLnk p { l with replay := all, lastReplay := some ((d.acked p + 1) % 65536) }).sb (F.crlLinkStatus_replaying p) true
  else if 4 ≤ l.stale then d.linkRetrain p 1
  else
    let d := d.setLnk p { l with replay := all, lastReplay := some ((d.acked p + 1) % 65536), stale := l.stale + 1, replays := l.replays + 1, begun := true }
    (d.cnt p 0).sb (F.crlLinkStatus_replaying p) true

/-- The round trip of a flit that an ack frees now, in units of 64 ns, as the microseconds show it (R259, log entry 43). -/
def Dev.rttOf (d : Dev) (t : TxFlit) : Nat := min 65535 ((d.now - t.sent) * 1000 / 64)

/-- A valid ack frees the flits up to it (R229). -/
def Dev.freeTo (d : Dev) (p a : Nat) : Dev :=
  let l := d.lnk p
  let k := sub16 a (d.acked p)
  if k = 0 then d
  else
    let all := l.far ++ l.near
    let gone (t : TxFlit) : Bool := sub16 t.seq ((d.acked p + 1) % 65536) < k
    let rtts := (all.filter gone).map d.rttOf
    let rep := l.replay.filter (fun s => !decide (sub16 s ((d.acked p + 1) % 65536) < k))
    let d := d.setLnk p { l with far := l.far.filter (fun t => !gone t), near := l.near.filter (fun t => !gone t), replay := rep, lastReplay := none, stale := 0 }
    let d := (d.s (F.crlTxSeq_acked p) a).sb (F.crlLinkStatus_replaying p) (!rep.isEmpty)
    let d := (d.s (F.crlLinkRtt_last p) (rtts.getLast?.getD 0)).s (F.crlLinkRtt_max p) (rtts.foldl max (d.g (F.crlLinkRtt_max p)))
    d.whenD (p < 8) (fun d => d.tryFull p)

/-- The acknowledgement of a header (R228, R229, R231, R232, R251). -/
def Dev.takeAck (d : Dev) (p : Nat) (f : Flit) : Dev :=
  let a := f.ack.toNat
  if (f.ackKind ≠ 1#2 && f.ackKind ≠ 2#2) || d.uCount p < sub16 a (d.acked p) then (d.cnt p 6).raise (147 + 4 * p)
  else
    let d := d.freeTo p a
    if f.ackKind ≠ 2#2 then d
    else
      let d := d.cnt p 2
      if (d.lnk p).lastReplay = some ((a + 1) % 65536) then d else d.startReplay p

/-- The credits of a header (R236); a dedicated count never exceeds 16 (R234). -/
def Dev.takeCredits (d : Dev) (p : Nat) (f : Flit) : Dev :=
  let l := d.lnk p
  let v := f.crVc.toNat
  let dd := (f.crDed.toNat + 256 - l.gdSeen.lk 0 v) % 256
  let ds := sub16 f.crShared.toNat l.gsSeen
  let d := d.setLnk p { l with gdSeen := l.gdSeen.put 0 v f.crDed.toNat, gsSeen := f.crShared.toNat }
  (d.s (F.crlTxDed_ded p v) (min 16 (d.ded p v + dd))).s (F.crlTxShared_shared p) (d.sharedCr p + ds)

/-- The header of a good flit that is no Init (R228 to R232, R236, R251): the partner has ended its exchange (R254). -/
def Dev.takeHeader (d : Dev) (p : Nat) (f : Flit) : Dev := ((d.setLnk p { d.lnk p with tail := false }).takeAck p f).takeCredits p f

/-- The receiver enters NAK state (R227, R228). -/
def Dev.enterNak (d : Dev) (p : Nat) : Dev :=
  if d.gb (F.crlLinkStatus_nak_state p) then d
  else (d.sb (F.crlLinkStatus_nak_state p) true).setLnk p { d.lnk p with nakSend := true, nakAt := d.now }

/-- A sequenced flit with seq = E is accepted (R227). -/
def Dev.acceptSeq (d : Dev) (p : Nat) : Dev :=
  let d := d.s (F.crlRxSeq_E p) ((d.rxE p + 1) % 65536)
  if d.gb (F.crlLinkStatus_nak_state p) then (d.sb (F.crlLinkStatus_nak_state p) false).setLnk p { d.lnk p with nakSend := false } else d

/-- A sequence number in the duplicate range of E (R227). -/
def isDup (e seq : Nat) : Bool := sub16 (sub16 e 1) seq < 32768

/-! ### Receiving (R221, R227, R237, R248 to R250) -/

/-- A packet open on a VC of the line is ended with an abort (R249): a posted one is a lost posted write. -/
def Dev.abortLine (d : Dev) (p v : Nat) : Dev :=
  let l := d.lnk p
  let d := d.setLnk p { l with rxBuf := l.rxBuf.put [] v (l.rxBuf.lk [] v ++ [abortMark]), lineOpen := l.lineOpen.del v }
  d.whenD (postedVc v) (fun d => d.lostPosted (linkDomain p) 1)

/-- What is open on a VC of the line. -/
def Dev.lineAt (d : Dev) (p v : Nat) : Option RxOpen := (d.lnk p).lineOpen.find? v

/-- The device with what is open on a VC of the line replaced. -/
def Dev.setLine (d : Dev) (p v : Nat) (x : Option RxOpen) : Dev :=
  let l := d.lnk p
  d.setLnk p { l with lineOpen := match x with
    | some o => l.lineOpen.ins v o
    | none => l.lineOpen.del v }

/-- A framing error (R249). -/
def Dev.framing (d : Dev) (p : Nat) : Dev := (d.cnt p 7).raise (147 + 4 * p)

/-- A Data flit is placed in its buffer: on the die, or as received in the landing ring, which the port's spill engine writes in class 0 (R237, R238). -/
def Dev.place (d : Dev) (p : Nat) (f : Flit) (n : Nat) : Dev :=
  let v := f.vc.toNat
  let l := d.lnk p
  let slot := if f.shared then l.landNext v d.limitL (segSize d.limitL) else 0
  let r : RxFlit := ⟨f.seq.toNat, f.shared, f.sop, f.eop, false, f.payload.take (f.len.toNat + 1), slot, if f.shared then flitBytes f else []⟩
  let d := d.setLnk p { l with rxBuf := l.rxBuf.put [] v (l.rxBuf.lk [] v ++ [r]), lineOpen := if f.eop then l.lineOpen.del v else l.lineOpen.ins v ⟨n, [], false, false⟩ }
  d.whenD f.shared (fun d => ((d.cnt p 13).stoMove 0 256).touch (57 + p / 3) (57 + p / 3))

/-- A Data flit of a packet being discarded: its credit is granted back, and the discard ends with the packet (R249). -/
def Dev.dropFlit (d : Dev) (p : Nat) (f : Flit) : Dev :=
  let v := f.vc.toNat
  (d.setLine p v (if f.eop then none else some ⟨0, [], true, false⟩)).grantOne p v f.shared

/-- A Data flit of no packet: what follows on its VC is discarded up to the next sop, and its credit is granted back (R249). -/
def Dev.strayFlit (d : Dev) (p : Nat) (f : Flit) : Dev :=
  let v := f.vc.toNat
  (d.setLine p v (some ⟨0, [], true, true⟩)).grantOne p v f.shared

/-- An accepted Data flit that is well formed meets the packet open on its VC (R225, R249). -/
def Dev.frameData (d : Dev) (p : Nat) (f : Flit) : Dev :=
  let v := f.vc.toNat
  match d.lineAt p v with
  | some o =>
    if f.sop then (if o.skip then d.setLine p v none else (d.abortLine p v).framing p).place p f 1
    else if o.toSop then d.strayFlit p f
    else if o.skip then d.dropFlit p f
    else if 18 ≤ o.flits then ((d.abortLine p v).framing p).dropFlit p f
    else d.place p f (o.flits + 1)
  | none => if f.sop then d.place p f 1 else (d.framing p).strayFlit p f

/-- An accepted malformed Data flit: its packet is discarded up to eop (R249); without sop and with no packet open it is a framing error too. -/
def Dev.malformedData (d : Dev) (p : Nat) (f : Flit) : Dev :=
  let v := f.vc.toNat
  let d := (d.cnt p 6).raise (147 + 4 * p)
  if f.sop then
    let d := match d.lineAt p v with
      | some o => if o.skip then d else (d.abortLine p v).framing p
      | none => d
    (d.whenD (postedVc v) (fun d => d.lostPosted (linkDomain p) 1)).dropFlit p f
  else match d.lineAt p v with
    | some o => if o.toSop then d.strayFlit p f else (d.whenD (!o.skip) (fun d => d.abortLine p v)).dropFlit p f
    | none => (d.framing p).strayFlit p f

/-- The partner holds a credit of the kind a Data flit claims (R250). -/
def Dev.creditOut (d : Dev) (p : Nat) (f : Flit) : Bool :=
  if f.shared then 0 < (d.lnk p).gsOut else 0 < (d.lnk p).gdOut.lk 0 f.vc.toNat

/-- The credit of an accepted Data flit is used. -/
def Dev.useCredit (d : Dev) (p : Nat) (f : Flit) : Dev :=
  let l := d.lnk p
  if f.shared then d.setLnk p { l with gsOut := l.gsOut - 1 } else d.setLnk p { l with gdOut := l.gdOut.put 0 f.vc.toNat (l.gdOut.lk 0 f.vc.toNat - 1) }

/-- A credit overrun: the port retrains and drops its session (R250). -/
def Dev.overrun (d : Dev) (p : Nat) : Dev :=
  ((d.linkRetrain p 3).sb (F.crlLinkStatus_held p) false).raise (146 + 4 * p)

/-- The link layer receives flits: the link is up and locked (R205). -/
def Dev.receives (d : Dev) (p : Nat) : Bool := d.phyState p = 7 && d.gb (F.crlPhyStatus_lock p)

/-- A good sequenced flit is judged by its sequence number (R227): `f` handles the expected one. -/
def Dev.sequenced (d : Dev) (p : Nat) (f : Flit) (take : Dev → Dev) : Dev :=
  let e := d.rxE p
  if f.seq.toNat = e then take d
  else if isDup e f.seq.toNat then d.cnt p 4
  else d.enterNak p

/-- A good Data flit (R227, R235, R249, R250). -/
def Dev.dataIn (d : Dev) (p : Nat) (f : Flit) : Dev :=
  if !d.receives p || d.linkState p < 2 then d
  else (d.takeHeader p f).sequenced p f (fun d =>
    if !d.creditOut p f then d.overrun p
    else
      let d := (d.acceptSeq p).useCredit p f
      if 240 ≤ f.len.toNat then d.malformedData p f else d.frameData p f)

/-- A good Null flit (R227). -/
def Dev.nullIn (d : Dev) (p : Nat) (f : Flit) : Dev :=
  if !d.receives p || d.linkState p < 2 then d
  else
    let d := d.takeHeader p f
    let e := d.rxE p
    if f.seq.toNat = e || isDup e f.seq.toNat then d else d.enterNak p

/-- A good flit of an undefined type (R248). -/
def Dev.undefIn (d : Dev) (p : Nat) (f : Flit) : Dev :=
  if !d.receives p || d.linkState p < 2 then d
  else (d.takeHeader p f).sequenced p f (fun d => (((d.acceptSeq p).cnt p 5)).raise (147 + 4 * p))

/-- A bad flit (R220, R227). -/
def Dev.badIn (d : Dev) (p : Nat) : Dev := if !d.receives p then d else (d.cnt p 3).enterNak p

/-! ### The Init exchange (R240, R241, R254) -/

/-- The fields of an Init payload: incarnation, generation, expect, flags, limit (R240). -/
def initFields (f : Flit) : Nat × Nat × Nat × Nat × Nat :=
  let b (i n : Nat) : Nat := ofBytesLE ((f.payload.drop i).take n)
  (b 0 4, b 4 2, b 6 2, b 8 1, b 10 2)

/-- The four conditions of ok (R241). -/
def Dev.initOk (d : Dev) (p : Nat) (inc : W32) (gen : BitVec 16) (expect : Nat) (peerHeld : Bool) : Bool :=
  let l := d.lnk p
  d.gb (F.crlLinkStatus_held p) && peerHeld && l.peerKnown && inc = l.peerInc && gen = l.peerGen && sub16 expect ((d.acked p + 1) % 65536) ≤ d.uCount p

/-- The outcome is decided: resume or fresh; the port is Trained, and Open where it may be (R241 to R243). -/
def Dev.decideSession (d : Dev) (p : Nat) (x : InitX) : Dev :=
  let resume := x.ok && x.peerResume
  let d :=
    if resume then
      let d := (((d.freeTo p (sub16 x.expect 1)).cnt p 8).s (F.crlLinkStatus_session p) 2)
      (d.setLnk p { d.lnk p with stale := 0, lastReplay := none, begun := false }).startReplay p
    else (((d.discardSession p).cnt p 9).s (F.crlLinkStatus_session p) 1)
  let d := d.setLnk p { d.lnk p with init := none, peerInc := x.inc, peerGen := x.gen, peerKnown := true, tail := true }
  (((d.s (F.crlLinkStatus_state p) 2).sb (F.crlLinkStatus_held p) false).stamp 10).tryOpen p

/-- A good Init in an exchange (R241). -/
def Dev.initTake (d : Dev) (p : Nat) (f : Flit) (x : InitX) : Dev :=
  let (inc, gen, expect, flags, limit) := initFields f
  let i := BitVec.ofNat 32 inc
  let g := BitVec.ofNat 16 gen
  let d := d.s (F.crlRxSeq_partner_limit p) limit
  let x := if x.seen then x else { x with seen := true, ok := d.initOk p i g expect (bitOf flags 0) }
  let x := { x with inc := i, gen := g, expect := expect, peer := x.peer || bitOf flags 1, peerResume := if bitOf flags 1 then bitOf flags 2 else x.peerResume }
  d.setLnk p { d.lnk p with init := some x }

/-- A good Init flit (R241, R254): at an Open port it begins a new exchange, but for the rest of the exchange just decided, an Init with peer_seen that comes before the partner has sent anything else (log entry 24). -/
def Dev.initIn (d : Dev) (p : Nat) (f : Flit) : Dev :=
  if !d.receives p || (2 ≤ d.linkState p && (d.lnk p).tail && bitOf (initFields f).2.2.2.1 1) then d
  else if 2 ≤ d.linkState p then
    let d := (d.leaveOpen p).sb (F.crlLinkStatus_held p) true
    let d := (d.sb (F.crlLinkStatus_replaying p) false).setLnk p { d.lnk p with replay := [], nakSend := false, begun := false }
    let d := d.linkUp p
    match (d.lnk p).init with
    | some x => d.initTake p f x
    | none => d
  else match (d.lnk p).init with
    | some x => d.initTake p f x
    | none => d

/-! ### Sending (R222, R225, R226, R228, R230, R235) -/

/-- The next VC whose dedicated grant a header reports (R236): one that has changed since it was last reported, else the next in turn. -/
def Link.nextCrVc (l : Link) : Nat :=
  let order := (List.range 8).map (fun i => (l.crVc + i) % 8)
  match order.find? (fun v => l.gd.lk 0 v ≠ l.gdSent.lk 0 v) with
  | some v => v
  | none => l.crVc % 8

/-- The payload bits per second of a lane in kilobits (R193): RS(544,514) or 64b/66b of its rate. -/
def Dev.laneKbps (d : Dev) (p : Nat) : Nat :=
  let raw := nth [10312500, 25781250, 53125000, 106250000] (d.portRate p) 0
  if d.gb (F.crlPhyStatus_fec_on p) then raw * 514 / 544 else raw * 64 / 66

/-- The replay timeout T_r in ns: 2 × L flit times and 4 µs (R233). -/
def Dev.replayNs (d : Dev) (p : Nat) : Nat := 4000 + 2 * d.limitL * 2048 * 1000000 / max 1 (d.laneKbps p * (d.phy p).width)

/-- The next header carries a NAK: the first since NAK state was entered, or T_r has passed without E advancing (R228). -/
def Dev.nakDue (d : Dev) (p : Nat) : Bool :=
  (d.lnk p).nakSend || (d.gb (F.crlLinkStatus_nak_state p) && d.replayNs p ≤ (d.now - (d.lnk p).nakAt) * 1000)

/-- A flit with the current ack and credits (R219, R228, R236). -/
def Dev.stampFlit (d : Dev) (p : Nat) (f : Flit) : Flit :=
  let l := d.lnk p
  let v := l.nextCrVc
  { f with ack := BitVec.ofNat 16 (sub16 (d.rxE p) 1), ackKind := if d.nakDue p then 2#2 else 1#2, crVc := BitVec.ofNat 3 v, crDed := BitVec.ofNat 8 (l.gd.lk 0 v), crShared := BitVec.ofNat 16 l.gs }

/-- A flit leaves with the current ack and credits, and goes down to the line (R196, R219, R228, R236). -/
def Dev.emitFlit (d : Dev) (p : Nat) (f : Flit) : Dev :=
  let l := d.lnk p
  let v := l.nextCrVc
  let nak := d.nakDue p
  let f := d.stampFlit p f
  let d := d.whenD nak (fun d => d.cnt p 1)
  let l := d.lnk p
  let d := d.setLnk p { l with nakSend := false, nakAt := if nak then d.now else l.nakAt, gdSent := l.gdSent.put 0 v (l.gd.lk 0 v), crVc := (v + 1) % 8 }
  (d.emit (.flit p f (flitCrc f))).lineSend p (flitBytes f)

/-- A flit with no header but its type and sequence number. -/
def plainFlit (typ seq : Nat) (payload : List Byte) : Flit :=
  ⟨BitVec.ofNat 4 typ, 0#3, false, BitVec.ofNat 16 seq, 0#16, 0#2, false, false, 0#8, 0#3, 0#8, 0#16, payload⟩

/-- A Null flit (R221, R222). -/
def Dev.sendNull (d : Dev) (p : Nat) : Dev := d.emitFlit p (plainFlit 0 (d.nextSeq p) (pad240 []))

/-- An Init flit, and the end of the exchange after eight further ones (R240, R241). -/
def Dev.sendInit (d : Dev) (p : Nat) (x : InitX) : Dev :=
  let flags := b2n (d.gb (F.crlLinkStatus_held p)) + 2 * b2n x.seen + 4 * b2n (x.seen && x.ok)
  let d := d.emitFlit p (plainFlit 2 (d.nextSeq p) (initPayload d.incarnation (d.generation p) (d.rxE p) flags p d.limitL))
  let both := x.sent && x.peer
  let x := { x with sent := x.sent || x.seen, after := if both then x.after + 1 else x.after }
  let d := d.setLnk p { d.lnk p with init := some x }
  if 8 ≤ x.after then d.decideSession p x else d

/-- The next flit of a replay (R231): one of the far ring is read from the Store in class 0 (R230). -/
def Dev.sendReplay (d : Dev) (p : Nat) (s : Nat) (rest : List Nat) : Dev :=
  let l := d.lnk p
  let d := (d.setLnk p { l with replay := rest, begun := false }).sb (F.crlLinkStatus_replaying p) (!rest.isEmpty)
  let d := d.whenD (l.far.any (fun t => t.seq = s)) (fun d => (d.stoMove 0 256).touch (57 + p / 3) (57 + p / 3))
  match (l.far ++ l.near).find? (fun t => t.seq = s) with
  | some t => d.emitFlit p t.f
  | none => d.sendNull p

/-- A VC whose head packet may send a flit: a credit of either kind is held (R235). -/
def Dev.vcReady (d : Dev) (p v : Nat) : Bool := !((d.lnk p).txq.lk [] v).isEmpty && (0 < d.ded p v || 0 < d.sharedCr p)

/-- The VC that sends next: VC0, then responses, then the packet handed over first (R456, log entry 17). -/
def Dev.nextTxVc (d : Dev) (p : Nat) : Option Nat :=
  let ready := (List.range 8).filter (fun v => d.vcReady p v)
  match [0, 1, 2].find? (fun v => ready.contains v) with
  | some v => some v
  | none => (ready.foldl (fun (b : Option (Nat × Nat)) v =>
      let id := (((d.lnk p).txq.lk [] v).head?.map (·.pid)).getD 0
      match b with
      | none => some (id, v)
      | some m => if id < m.1 then some (id, v) else some m) none).map (·.2)

/-- A new Data flit of VC v is sent: it takes next_seq and a credit, and enters the near ring (R225, R226, R230, R235). -/
def Dev.sendData (d : Dev) (p v : Nat) : Dev :=
  let l := d.lnk p
  match l.txq.lk [] v with
  | [] => d.sendNull p
  | t :: q =>
    let bs := t.bytes.take 240
    let rest := t.bytes.drop 240
    let last := rest.isEmpty
    let ded := 0 < d.ded p v
    let seq := d.nextSeq p
    let f : Flit := ⟨1#4, BitVec.ofNat 3 v, !ded, BitVec.ofNat 16 seq, 0#16, 0#2, !t.started, last, BitVec.ofNat 8 (bs.length - 1), 0#3, 0#8, 0#16, pad240 bs⟩
    let spill := 32 ≤ l.near.length
    let far := if spill then l.far ++ l.near.take 1 else l.far
    let near := (if spill then l.near.drop 1 else l.near) ++ [(⟨seq, d.now, d.stampFlit p f, t.posted, t.pid, t.scope, t.last⟩ : TxFlit)]
    let q := if last then q else { t with bytes := rest, started := true } :: q
    let d := (d.setLnk p { l with far := far, near := near, txq := l.txq.put [] v q }).whenD spill (fun d => (d.stoMove 0 256).touch (57 + p / 3) (57 + p / 3))
    let d := if ded then d.s (F.crlTxDed_ded p v) (d.ded p v - 1) else d.s (F.crlTxShared_shared p) (d.sharedCr p - 1)
    (d.s (F.crlTxSeq_next_seq p) ((seq + 1) % 65536)).emitFlit p f

/-- The near ring is full and the Store refuses the write of its oldest flit (R230, R255). -/
def Dev.spillStuck (d : Dev) (p : Nat) (spillOk : Bool) : Bool := 32 ≤ (d.lnk p).near.length && !spillOk

/-- One flit slot of an up link (R222): an Init, the next replayed flit, a new Data flit, or a Null. -/
def Dev.slotOf (d : Dev) (p : Nat) (spillOk : Bool) : Dev :=
  if d.phyState p ≠ 7 then d
  else match (d.lnk p).init with
  | some x => d.sendInit p x
  | none =>
    if !d.portOpen p then d.sendNull p
    else match (d.lnk p).replay with
    | s :: rest => d.sendReplay p s rest
    | [] =>
      let d := d.setLnk p { d.lnk p with stuck := d.spillStuck p spillOk }
      if d.limitL ≤ d.uCount p || d.spillStuck p spillOk then d.sendNull p
      else match d.nextTxVc p with
      | some v => d.sendData p v
      | none => d.sendNull p

/-- A packet handed to a port's link layer by its egress (R225, R456). -/
def Dev.toLink (d : Dev) (p v : Nat) (bytes : List Byte) (posted : Bool) (scope : Option (Nat × Nat × Nat)) (last : Bool) : Dev :=
  let l := d.lnk p
  d.setLnk p { l with txq := l.txq.put [] v (l.txq.lk [] v ++ [(⟨bytes, false, posted, l.pid, scope, last⟩ : TxPkt)]), pid := l.pid + 1 }

/-! ### Timers and delivery (R228, R233, R238, R241, R247) -/

/-- The replay timer expires: it runs while U > 0 (R233, R252). -/
def Dev.replayTimer (d : Dev) (p : Nat) : Dev := if d.linkState p < 2 || d.uCount p = 0 then d else d.startReplay p

/-- The port takes flits from the switch: not while U is at L, nor while the near ring is full and a spill is refused (R255). -/
def Dev.takesFlits (d : Dev) (p : Nat) : Bool :=
  decide (d.uCount p < d.limitL) && !((d.lnk p).stuck && 32 ≤ (d.lnk p).near.length)

/-- A microsecond of CORE cycles, 1,250 (R33), in which a port's U is at L, or its spill write refused (R259). -/
def Dev.stallTick (d : Dev) : Dev :=
  d.each (List.range 12) (fun d p =>
    let d := d.whenD (decide (d.limitL ≤ d.uCount p)) (fun d => d.bumpBy (F.crlCnt_count p 12) 1250)
    d.whenD ((d.lnk p).stuck && 32 ≤ (d.lnk p).near.length) (fun d => d.bumpBy (F.crlCnt_count p 11) 1250))

/-- The Init exchange was not completed in time (R241). -/
def Dev.initTimer (d : Dev) (p : Nat) : Dev := if (d.lnk p).init.isSome then d.linkRetrain p 2 else d

/-- No new sequenced flit for 100 µs while traffic waits, for the U limit or a refused spill (R247). -/
def Dev.sendStalled (d : Dev) (p : Nat) : Dev :=
  let x := d.egress p
  let waits := (d.lnk p).txq.any (fun e => !e.2.isEmpty) || !x.net.isEmpty || !x.rsp.isEmpty || !x.groups.isEmpty
  if waits && !d.takesFlits p then d.raise (145 + 4 * p) else d

/-- The end of a 1 s interval of replays (R247). -/
def Dev.replayInterval (d : Dev) (p : Nat) : Dev :=
  let n := (d.lnk p).replays
  (d.setLnk p { d.lnk p with replays := 0 }).whenD (d.g (F.crlReplayThresh_count p) < n) (fun d => d.raise (144 + 4 * p))

/-- The abort marks at the head of a VC's receive queue end the packet open at delivery (R243, R249). -/
def dropAborts (q : List RxFlit) (cut : Bool) : List RxFlit × Bool := match q with
  | [] => ([], cut)
  | f :: t => if f.abort then dropAborts t true else (f :: t, cut)

/-- The flit that a VC delivers next, past the aborts (R238). -/
def Dev.nextFlit (d : Dev) (p v : Nat) : Option RxFlit := (dropAborts ((d.lnk p).rxBuf.lk [] v) false).1.head?

/-- The oldest flit of a VC leaves the receive side for the switch; a landed one is read by the port's spill engine in class 0 (R225, R236, R238). -/
def Dev.deliverFlit (d : Dev) (p v : Nat) : Dev :=
  let l := d.lnk p
  let a := dropAborts (l.rxBuf.lk [] v) false
  let l := if a.2 then { l with rxOpen := l.rxOpen.del v } else l
  match a.1 with
  | [] => d.setLnk p { l with rxBuf := l.rxBuf.put [] v [] }
  | f :: q =>
    let had := if f.sop then some ([] : List Byte) else (l.rxOpen.find? v).map (·.bytes)
    let l := { l with rxBuf := l.rxBuf.put [] v q }
    let l := match had with
      | none => l
      | some bs => if f.eop then { l with rxOpen := l.rxOpen.del v, done := l.done ++ [(v, bs ++ f.data)] } else { l with rxOpen := l.rxOpen.ins v ⟨0, bs ++ f.data, false, false⟩ }
    ((d.setLnk p l).whenD f.shared (fun d => (d.stoMove 0 256).touch (57 + p / 3) (57 + p / 3))).grantOne p v f.shared

/-! ### A link reset of the Store (R179, R215, R256) -/

/-- A receive queue without the packets that have a landed flit, an abort in place of each; gives how many complete ones went. -/
def cutLanded (q cur : List RxFlit) (bad : Bool) : List RxFlit × Nat := match q with
  | [] => (cur, 0)
  | f :: t =>
    let bad' := bad || (f.shared && !f.abort)
    if f.eop || f.abort then
      let r := cutLanded t [] false
      (if bad' then abortMark :: r.1 else cur ++ [f] ++ r.1, r.2 + (if bad' && !f.abort then 1 else 0))
    else cutLanded t (cur ++ [f]) bad'

/-- A link reset of the Store: cause 6, no session held, the unacknowledged and the landed flits lost (R179, R256). -/
def Dev.storeLinkReset (d : Dev) (p : Nat) : Dev :=
  let d := ((d.phyDown p 6).discardSession p).sb (F.crlLinkStatus_held p) false
  let l := d.lnk p
  let cut (v : Nat) : List RxFlit × Nat := cutLanded (l.rxBuf.lk [] v) [] false
  let lost := ((List.range 8).filter postedVc).foldl (fun a v => a + (cut v).2) 0
  let rx := (List.range 8).foldl (fun (m : SMap (List RxFlit)) v => m.put [] v (cut v).1) l.rxBuf
  ((d.setLnk p { l with rxBuf := rx }).lostPosted (linkDomain p) lost).trainStart p

end Sys2Proof.Machine
end

