-- ==== Sys2Proof/Machine/Egress.lean ====
section
/-! DEFINITION. The egress scheduler (R456 to R458), the move to the escape layer (R288), and the rate buckets' refill and limits (R453, R455). -/
namespace Sys2Proof.Machine

/-- Flits that packets waiting in a port's link layer still need. -/
def txFlits (q : List TxPkt) : Nat := (q.map (fun t : TxPkt => (t.bytes.length + 239) / 240)).foldl (· + ·) 0

/-- The VC of a port holds a credit for another packet, and the port takes flits (R235, R255, R457). -/
def Dev.vcCredit (d : Dev) (p v : Nat) : Bool :=
  d.portOpen p && d.takesFlits p && decide (txFlits ((d.lnk p).txq.lk [] v) < d.ded p v + d.sharedCr p)

/-- An item of egress e may leave: its VC holds a credit (R457); the path to the host needs the host link in L0 (R339, R377), the turn path nothing. -/
def Dev.mayLeave (d : Dev) (e : Nat) (q : QEnt) : Bool :=
  if e < 12 then d.vcCredit e q.vc else if e = 12 then d.hst.dlUp && decide (d.g F.hstStatus_ltssm = 3) else true

/-- An item leaves an egress (R31, R311, R356, R457): to a port's link layer, to the host, or on the turn path. -/
def Dev.leave (d : Dev) (e : Nat) (q : QEnt) : Dev := match q.item with
  | .tp k => if e = 13 then { d with iso := { d.iso with turn := d.iso.turn ++ [k] } } else d.toLink e q.vc (pktBytes k) k.posted k.scope false
  | .raw b => d.toLink e q.vc b false none (q.vc = 0 && lastSummary b)
  | .host o => d.emit o
  | .hostW o k _ last => (d.emit o).whenD last (fun d => d.respond k 0 0 [] 0 (d.generation (inboundBlk k.di)))

/-- Items of a strict queue that may leave, in order, and those that stay; an item without credit holds back its own VC only. -/
def Dev.drainStrict (d : Dev) (e : Nat) (q : List QEnt) : Dev × List QEnt := match q with
  | [] => (d, [])
  | x :: t =>
    if d.mayLeave e x then (d.leave e x).drainStrict e t
    else
      let r := d.drainStrict e t
      (r.1, x :: r.2)

/-- An MSI-X message of a function waits while another group holds a posted write to host memory of that function (R361). -/
def Dev.msixHeld (d : Dev) (q : QEnt) : Bool := match q.item with
  | .host (.msix fn _ _ _) => (d.egress 12).groups.any (fun g => g.id ≠ fn && g.q.any (fun x => match x.item with
    | .hostW _ k _ _ => k.di = fn
    | .tp _ | .raw _ | .host _ => false))
  | .tp _ | .raw _ | .host _ | .hostW _ _ _ _ => false

/-- The oldest packet of a group whose VC holds a credit (R457). -/
def Dev.groupHead (d : Dev) (e : Nat) (q : List QEnt) : Option QEnt := q.find? (fun x => d.mayLeave e x && !(e = 12 && d.msixHeld x))

/-- A group sends head packets while the deficit covers them (R457). -/
def Dev.groupSend (d : Dev) (e fuel : Nat) (g : EGroup) : Dev × EGroup := match fuel with
  | 0 => (d, g)
  | n + 1 => match d.groupHead e g.q with
    | none => (d, g)
    | some x => if x.size ≤ g.deficit then (d.leave e x).groupSend e n { g with deficit := g.deficit - x.size, q := g.q.erase x } else (d, g)

/-- The groups from the first one with a sendable head on, in cyclic order (R457). -/
def Dev.nextGroup (d : Dev) (e : Nat) (gs : List EGroup) : Option (EGroup × List EGroup) :=
  match gs.findIdx? (fun g => (d.groupHead e g.q).isSome) with
  | none => none
  | some i => match gs[i]? with
    | some g => some (g, gs.drop (i + 1) ++ gs.take i)
    | none => none

/-- A visit of an egress (R456, R457): VC0, responses, then the next group with its quantum. -/
def Dev.visit (d : Dev) (e : Nat) : Dev :=
  let a := d.drainStrict e (d.egress e).net
  let d := a.1.setEgress e { a.1.egress e with net := a.2 }
  let rs := (d.egress e).rsp
  let b := d.drainStrict e (rs.filter (fun q => q.vc = 1) ++ rs.filter (fun q => q.vc ≠ 1))
  let d := b.1.setEgress e { b.1.egress e with rsp := b.2 }
  match d.nextGroup e (d.egress e).groups with
  | none => d
  | some (g, rest) =>
    let s := d.groupSend e g.q.length { g with deficit := g.deficit + max 1 (d.groupWeight e g.id) * 256 }
    let d := s.1
    d.setEgress e { d.egress e with groups := if s.2.q.isEmpty then rest else rest ++ [s.2] }

/-! ### The escape layer (R288) -/

/-- A packet of the normal layer on a VC. -/
def escapable (vc : Nat) (q : QEnt) : Option Pkt := match q.item with
  | .tp k => if q.vc = vc && !k.esc && (vc = 2 || vc = 4 || vc = 6) then some k else none
  | .raw _ | .host _ | .hostW _ _ _ _ => none

/-- A packet takes the escape layer from this node (R287, R288); without a hop it is handled under R285. -/
def Dev.toEscape (d : Dev) (id vc : Nat) (k : Pkt) : Dev :=
  let d := d.bump F.netCntEscape_count
  let k := { k with esc := true, dn := false }
  match d.escHop k.dst false with
  | none => d.noForward (groupVia id) vc k 0
  | some (p, down) =>
    if d.fportUsable p then d.enqueue p id ⟨.tp { k with dn := down }, (vcClass vc).escVc, pktSize k⟩ else d.noForward (groupVia id) vc k 0

/-- A packet that has waited at a fabric port without credit moves to the escape layer (R288): the oldest of its VC there. -/
def Dev.escapeMove (d : Dev) (p vc : Nat) : Dev :=
  if 0 < d.ded p vc + d.sharedCr p && d.portOpen p then d
  else
    let x := d.egress p
    match (x.rsp.find? (fun q => (escapable vc q).isSome)) with
    | some q => match escapable vc q with
      | some k => (d.setEgress p { x with rsp := x.rsp.erase q }).toEscape k.si vc k
      | none => d
    | none => match x.groups.find? (fun g => g.q.any (fun q => (escapable vc q).isSome)) with
      | none => d
      | some g => match g.q.find? (fun q => (escapable vc q).isSome) with
        | none => d
        | some q => match escapable vc q with
          | none => d
          | some k =>
            let g' := { g with q := g.q.erase q }
            let gs := if g'.q.isEmpty then x.groups.filter (fun y => y.id ≠ g.id) else x.groups.map (fun y => if y.id = g.id then g' else y)
            (d.setEgress p { x with groups := gs }).toEscape g.id vc k

/-! ### Buckets (R453, R455) -/

/-- The quantities, by bucket × 4 + index, whose rate register is written or whose rate is in force (R453, R455). -/
def Dev.limited4 (d : Dev) : List Nat :=
  let rs := d.regs.filterMap (fun e => if R.insBucketLimits 0 ≤ e.1 && e.1 < R.insBucketLimits 4096 && e.1 % 8 = 0 then some ((e.1 - R.insBucketLimits 0) / 8) else none)
  rs ++ d.iso.rate.keys.filter (fun k => !rs.contains k)

/-- The refill of one quantity: the rate that its register holds comes into force, from 0 with the level at the cap; the level rises by it up to the cap (R453, R455). -/
def Dev.refillOne (d : Dev) (k : Nat) : Dev :=
  let r := d.g (bucketFld (k / 4) (2 * (k % 4)))
  let was := d.iso.rate.lk 0 k
  let cap := d.bucketCap (k / 4) (k % 4)
  let d := { d with iso := { d.iso with rate := d.iso.rate.put 0 k r } }
  if r = 0 then d else d.s (levelFld (k / 4) (k % 4)) (if was = 0 then cap else min cap (d.g (levelFld (k / 4) (k % 4)) + r))

/-- A microsecond of waiting for tokens, counted for each instance that has a request waiting for them (R478). -/
def Dev.countWaits (d : Dev) : Dev :=
  let is := (d.trn.waits.filter (fun w => w.stage = .tokens)).map (fun w => w.pkt.si)
  { d with ins := { d.ins with waitUs := is.eraseDups.foldl (fun m i => m.upd 0 i (fun n => satAdd 32 n 1)) d.ins.waitUs } }

/-- Every 1 µs each level rises by its rate up to its cap (R453), and the requests that can now pay are admitted. -/
def Dev.refill (d : Dev) : Dev := ((d.countWaits.each d.limited4 Dev.refillOne)).pump

/-- A level above its new cap falls to it at once (R455). -/
def Dev.capLevel (d : Dev) (b q : Nat) : Dev :=
  let cap := d.bucketCap b q
  if cap < d.g (levelFld b q) then d.s (levelFld b q) cap else d

/-- The judgement of a write of a bucket's rate or burst (R455, R477). -/
def Dev.judgeBucket (d : Dev) (b j : Nat) (c : WCtx) : WOut := match regAt c.off with
  | none => .unmapped
  | some r => d.judgeRow r c (d.rd c.off) (fun v d => (d.wr c.off v).capLevel b (j / 2))

end Sys2Proof.Machine
end

