-- ==== Sys2Proof/Machine/Windows.lean ====
section
/-! DEFINITION. Requests that enter at this node: the host's through outbound windows and the write-combining buffer (R352, R353, R355, R385, R386, R389 to R393, R406), the local design's (R398, R399, R409, R446, R448). -/
namespace Sys2Proof.Machine

/-! ### Outbound translation -/

/-- The size of a function's BAR2 (R106, R340, R341). -/
def Dev.bar2Size (d : Dev) (fn : Nat) : Nat := if fn = 0 then 2 ^ (36 + d.sizeLvl 12) else 2 ^ (24 + d.sizeLvl 16)

/-- The ordering key of an access at BAR2 offset `o` through a window (R381, R385). -/
def winKey (w : List W64) (o : Nat) : W32 :=
  BitVec.ofNat 32 (bget w 28 4 + (if bget w 36 1 = 1 then (o - bget w 0 8) / 4096 else 0))

/-- A request packet of this node (R302, R385). -/
def Dev.mkReq (d : Dev) (op inst : Nat) (dst : Addr) (dinst : Nat) (key : W32) (addr : W64) (len : Nat) (data : List Byte) (poison : Bool) : Pkt :=
  ⟨dst, d.addr, flowHash d.addr inst dst key, 255#8, false, false, BitVec.ofNat 8 op, BitVec.ofNat 8 (2 * b2n poison), 0#16, 0#8, 0#8,
    BitVec.ofNat 16 inst, BitVec.ofNat 16 dinst, 0#16, key, addr, BitVec.ofNat 16 len, 0#16, 0#8, 0#8, 0#16, d.incarnation, data, 0#14, 0#160⟩

/-- The request that an access at offset `o` of a function's BAR2 becomes through a window (R385). -/
def Dev.winReq (d : Dev) (op fn o : Nat) (w : List W64) (len : Nat) (data : List Byte) (poison : Bool) : Pkt :=
  d.mkReq op fn (BitVec.ofNat 12 (bget w 24 2)) (bget w 26 2 % 4096) (winKey w o)
    (BitVec.ofNat 64 (bget w 16 8 + (o - bget w 0 8))) len data poison

/-! ### The write-combining buffer (R389 to R392) -/

/-- The stream of a line (R310). -/
def WcLine.stream (l : WcLine) : Nat × Nat × W32 := (l.inst, l.dst, l.key)

/-- A line is still sending: one of its WRPs waits at admission (R392). -/
def Dev.lineBusy (d : Dev) (l : WcLine) : Bool := d.trn.waits.any (fun w => w.who = .line l.id)

/-- Lines whose last WRP has been admitted are free (R392). -/
def Dev.gcLines (d : Dev) : Dev :=
  if d.win.lines.any (fun l => l.sending) then
    { d with win := { d.win with lines := d.win.lines.filter (fun l => !l.sending || d.lineBusy l) } }
  else d

/-- The contiguous runs of enabled bytes, in ascending order: start and bytes (R392). -/
def runsOf (m : SMap Byte) : List (Nat × List Byte) :=
  m.foldr (fun e acc => match acc with
    | (s, bs) :: t => if e.1 + 1 = s then (e.1, e.2 :: bs) :: t else (e.1, [e.2]) :: (s, bs) :: t
    | [] => [(e.1, [e.2])]) []

/-- A line is sent: one WRP for each contiguous run of enabled bytes (R392). -/
def Dev.sendLine (d : Dev) (l : WcLine) : Dev :=
  let d := { d with win := { d.win with lines := d.win.lines.map (fun x : WcLine => if x.id = l.id then { x with sending := true } else x) } }
  let d := d.bump F.winCntWcLines_count
  (d.each (runsOf l.data) (fun d r =>
    d.submit (.line l.id) (d.mkReq 2 l.inst (BitVec.ofNat 12 l.dst) l.dinst l.key (l.addr + BitVec.ofNat 64 r.1) r.2.length r.2 false))).gcLines

/-- Every open line that passes a test is sent, in the order the lines were opened. -/
def Dev.flushLines (d : Dev) (p : WcLine → Bool) : Dev :=
  d.each (d.win.lines.filter (fun l => !l.sending && p l)) Dev.sendLine

/-- A line is sent, every older open line of its stream first (R391). -/
def Dev.flushTo (d : Dev) (l : WcLine) : Dev := d.flushLines (fun x => x.stream = l.stream && x.id ≤ l.id)

/-- The youngest open line of a stream. -/
def Dev.youngest (d : Dev) (st : Nat × Nat × W32) : Option WcLine :=
  (d.win.lines.filter (fun l => !l.sending && l.stream = st)).getLast?

/-- Bytes laid into a line by their enables. -/
def layBytes (m : SMap Byte) (i : Nat) (bs : List Byte) (be : List Bool) : SMap Byte :=
  match bs, be with
  | b :: bt, e :: et => layBytes (if e then m.ins i b else m) (i + 1) bt et
  | _, _ => m

/-- A line with every byte enabled is sent (R391). -/
def Dev.sendIfFull (d : Dev) (l : WcLine) : Dev := if l.data.length = 64 then d.flushTo l else d

/-- A combinable MWr merges into the youngest open line of its stream, or opens a line (R390); with no line free or open it waits. -/
def Dev.combine (d : Dev) (fn wi o : Nat) (w : List W64) (bs : List Byte) (be : List Bool) : Dev :=
  let d := d.touch (sliceDomain fn) (sliceDomain fn)
  let base := o / 64 * 64
  let st : Nat × Nat × W32 := (fn, bget w 24 2 % 4096, winKey w o)
  let merge : Option WcLine := match d.youngest st with
    | some l => if l.win = wi && l.off = base then some l else none
    | none => none
  match merge with
  | some l =>
    let l' := { l with data := layBytes l.data (o - base) bs be }
    ({ d with win := { d.win with lines := d.win.lines.map (fun x : WcLine => if x.id = l.id then l' else x) } }).sendIfFull l'
  | none =>
    let d := d.flushLines (fun l => l.stream = st)
    let d := if 256 ≤ d.win.lines.length then (match d.win.lines.find? (fun l => !l.sending) with
      | some l => d.flushTo l
      | none => d) else d
    if 256 ≤ d.win.lines.length then { d with win := { d.win with stalled := d.win.stalled ++ [.write fn o bs be false] } }
    else
      let l : WcLine := ⟨fn, wi, base, bget w 24 2 % 4096, bget w 26 2 % 4096, winKey w o,
        BitVec.ofNat 64 (bget w 16 8 + (base - bget w 0 8)), layBytes [] (o - base) bs be, d.win.lineNext, false, d.now⟩
      ({ d with win := { d.win with lines := d.win.lines ++ [l], lineNext := d.win.lineNext + 1 } }).sendIfFull l

/-- An MWr that is not combined: its runs of enabled bytes as WRPs, after the open lines of its stream (R391, R393, log entry 132). -/
def Dev.directWrite (d : Dev) (fn o : Nat) (w : List W64) (bs : List Byte) (be : List Bool) (ep : Bool) : Dev :=
  let st : Nat × Nat × W32 := (fn, bget w 24 2 % 4096, winKey w o)
  let d := d.flushLines (fun l => l.stream = st)
  d.each (runsOf (layBytes [] 0 bs be)) (fun d r => d.submit .none (d.winReq 2 fn (o + r.1) w r.2.length r.2 ep))

/-! ### Host requests to BAR2 -/

/-- What stops a host request to BAR2 before its window is looked up. -/
inductive Stop2 where
  | ur | ca | drain | slice
  deriving DecidableEq, Repr

/-- The checks of R352, R373, R535, R591, R609 and R621 on a host request to BAR2 (log entry 130). -/
def Dev.bar2Stop (d : Dev) (fn : Nat) : Option Stop2 :=
  if d.fence || d.restoring then some .ca
  else if d.limited || !d.hostMem fn || d.inFlr fn then some .ur
  else if d.draining then some .drain
  else if d.istate fn ≠ 1 then some .ur
  else if d.sliceShut fn then some .slice
  else none

/-- A host non-posted request is completed Unsupported Request or Completer Abort (R352, R386). -/
def Dev.hostRefuse (d : Dev) (fn : Nat) (rt : BitVec 16) (ca : Bool) : Dev :=
  if ca then (d.aerCa fn).completeHost (.cpl fn rt .ca [] false) else (d.aerUr fn true).completeHost (.cpl fn rt .ur [] false)

/-- A poisoned host write (R355, R367). -/
def Dev.hostPoison (d : Dev) (fn : Nat) : Dev := ((d.bump F.hstCntPoisonRx_count).aerUnc fn 12 true).raise 212

/-- A host MWr to BAR2 is performed (R355, R386, R390, R393, R609). -/
def Dev.hostWriteNow (d : Dev) (fn o : Nat) (bs : List Byte) (be : List Bool) (ep : Bool) : Dev :=
  if d.bar2Size fn ≤ o then d
  else match d.bar2Stop fn with
  | some .ur => d.aerUr fn false
  | some .ca => d.aerCa fn
  | some .drain => d.lostPosted 6 1
  | some .slice => d.lostPosted (sliceDomain fn) 1
  | none => match d.winLookup fn 1 o with
    | none => (((d.bump F.winCntMissPosted_count).bump F.hstCntUr_count).aerUnc fn 20 false).raise 216
    | some (wi, w) =>
      if !bitOf (bget w 35 1) 1 then (d.bump F.winCntPermPosted_count).raise 216
      else
        let d := if ep then d.hostPoison fn else d
        if bitOf (bget w 35 1) 3 && o / 64 = (o + bs.length - 1) / 64 && !ep then d.combine fn wi o w bs be
        else d.directWrite fn o w bs be ep

/-- A host non-posted request to BAR2 is performed: after its checks, every open line of its stream is sent, and it becomes the transport request `op` (R385, R386, R406). -/
def Dev.hostNpNow (d : Dev) (op fn : Nat) (rt : BitVec 16) (o len : Nat) (data : List Byte) (perm : Nat) : Dev :=
  if d.bar2Size fn ≤ o then d
  else match d.bar2Stop fn with
  | some .ur => d.hostRefuse fn rt false
  | some .ca | some .drain | some .slice => d.hostRefuse fn rt true
  | none => match d.winLookup fn 1 o with
    | none => (d.bump F.winCntMiss_count).hostRefuse fn rt false
    | some (_, w) =>
      if !bitOf (bget w 35 1) perm then (d.bump F.winCntPerm_count).hostRefuse fn rt true
      else
        let st : Nat × Nat × W32 := (fn, bget w 24 2 % 4096, winKey w o)
        let n := (d.win.lines.filter (fun l => !l.sending && l.stream = st)).length
        let d := (d.bumpBy F.winCntWcNpFlush_count n).flushLines (fun l => l.stream = st)
        let d := { d with hst := { d.hst with reqs := d.hst.reqs.ins (fn * 65536 + rt.toNat) ⟨fn, rt, o, len⟩ } }
        d.submit (.host fn rt) (d.winReq op fn o w len data false)

/-- A host MWr to BAR2: behind a write that waits for a line it waits too (R390). -/
def Dev.hostWrite2 (d : Dev) (fn o : Nat) (bs : List Byte) (be : List Bool) (ep : Bool) : Dev :=
  if d.win.stalled.isEmpty then d.hostWriteNow fn o bs be ep else { d with win := { d.win with stalled := d.win.stalled ++ [.write fn o bs be ep] } }

/-- A host non-posted request to BAR2: behind a write that waits for a line it waits too (R390). -/
def Dev.hostNp2 (d : Dev) (op fn : Nat) (rt : BitVec 16) (o len : Nat) (data : List Byte) (perm : Nat) : Dev :=
  if d.win.stalled.isEmpty then d.hostNpNow op fn rt o len data perm else { d with win := { d.win with stalled := d.win.stalled ++ [.np op fn rt o len data perm] } }

/-- The waiting host requests are tried again, in order, once a line is free (R390). -/
def Dev.stallRun (d : Dev) : Dev :=
  if d.win.stalled.isEmpty || 256 ≤ d.win.lines.length then d
  else
    let l := d.win.stalled
    ({ d with win := { d.win with stalled := [] } }).each l (fun d q => match q with
      | .write fn o bs be ep => d.hostWrite2 fn o bs be ep
      | .np op fn rt o len data perm => d.hostNp2 op fn rt o len data perm)

/-- A host AtomicOp to BAR2 (R352): 64 bits, or a 128-bit CAS. -/
def Dev.hostAtomic2 (d : Dev) (fn : Nat) (rt : BitVec 16) (o : Nat) (kind : AtomicKind) (width : Nat) (ops : List Byte) : Dev :=
  let op := match kind with
    | .fetchAdd => 4
    | .swap => 5
    | .cas => 6
  if width = 8 ∨ (width = 16 ∧ kind = .cas) then d.hostNp2 op fn rt o width ops 2 else d.hostRefuse fn rt false

/-- A host request is not answered within hst.cpl_limit (R353, R354). -/
def Dev.cplLimit (d : Dev) (fn : Nat) (rt : BitVec 16) : Dev :=
  match d.hst.reqs.find? (fn * 65536 + rt.toNat) with
  | none => d
  | some _ => (({ d with hst := { d.hst with reqs := d.hst.reqs.del (fn * 65536 + rt.toNat) } }).hostRefuse fn rt true).raise 215

/-! ### Requests of the local design -/

/-- A non-posted request of the local design answered at its port. -/
def Dev.localReply (d : Dev) (p : Nat) (k : Pkt) (code detail retry : Nat) : Dev :=
  (d.whenD (code = 4) (fun d => d.bump F.trnCntUnsup_count)).turnAway (.loc p 0 k.tag k.tagUse) k code detail retry

/-- The tag is already outstanding on its port (R409). -/
def Dev.localTagBusy (d : Dev) (p : Nat) (t : BitVec 16) : Bool :=
  let mine (w : Who) : Bool := match w with
    | .loc q _ u _ => q = p && u = t
    | _ => false
  d.trn.tags.any (fun e => mine e.2.who) || d.trn.waits.any (fun w => mine w.who && !w.pkt.posted)

/-- The key of a local admission stream (R399). -/
def admitKey (p : Nat) (k : Pkt) : Nat := streamKey p k.dst.toNat k.si k.key.toNat

/-- An order break or gap skip at a local port (R399). -/
def Dev.localBreak (d : Dev) (p : Nat) : Dev := (d.bump (F.winLpOrder_order_break p)).raise 221

/-- An admitted request of the local design goes on to admission (R398). -/
def Dev.localSubmit (d : Dev) (p : Nat) (k : Pkt) : Dev :=
  d.submit (.loc p 0 k.tag k.tagUse) { k with ttl := 255#8, esc := false, dn := false, flags := BitVec.ofNat 8 (k.flags.toNat % 4), code := 0#8 }

/-- The expected number of a local admission stream set; the entry also holds the microsecond of its last use, above bit 16. -/
def Dev.setAdmit (d : Dev) (x e : Nat) : Dev := { d with trn := { d.trn with admitExp := d.trn.admitExp.ins x (e % 65536 + 65536 * d.now) } }

/-- The expected number of a local admission stream that has an entry. -/
def Dev.admitAt (d : Dev) (x : Nat) : Option Nat := (d.trn.admitExp.find? x).map (· % 65536)

/-- An admission stream entry of port p can be made: one is free, or the oldest of those idle for 2 ms with nothing parked is evicted (R313, R399). -/
def Dev.admitRoom (d : Dev) (p : Nat) : Option Dev :=
  let mine := d.trn.admitExp.keep (fun x _ => x / 2 ^ 56 = p)
  if mine.length < 1024 then some d
  else
    let idle := mine.keep (fun x e => e / 65536 + 2000 ≤ d.now && !d.trn.lpark.any (fun q => q.key = x))
    (idle.foldl olderEntry none).map (fun e => { d with trn := { d.trn with admitExp := d.trn.admitExp.del e.1 } })

/-- Parked requests of a local stream go on while their number is the expected one. -/
def Dev.drainAdmit (d : Dev) (fuel p x : Nat) : Dev :=
  match fuel with
  | 0 => d
  | fuel + 1 => match d.admitAt x with
    | none => d
    | some e => match d.trn.lpark.find? (fun q => q.key = x && q.pkt.sseq.toNat = e) with
      | none => d
      | some q => Dev.drainAdmit ((({ d with trn := { d.trn with lpark := d.trn.lpark.erase q } }).setAdmit x (e + 1)).localSubmit p q.pkt) fuel p x

/-- The local design's requests of a stream are put in order (R399). -/
def Dev.localOrder (d : Dev) (p : Nat) (vc : Nat) (k : Pkt) : Dev :=
  let x := admitKey p k
  let s := k.sseq.toNat
  let d := if k.laneOpen then
      match d.admitAt x with
      | some _ => d.setAdmit x 0
      | none => match d.admitRoom p with
        | some d' => d'.setAdmit x 0
        | none => d
    else d
  match d.admitAt x with
  | none =>
    if k.laneOpen then d.localSubmit p k
    else match d.admitRoom p with
    | some d' => (d'.setAdmit x (s + 1)).localSubmit p k
    | none => d.localSubmit p k
  | some e =>
    let g := (s + 65536 - e) % 65536
    if g = 0 then ((d.setAdmit x (e + 1)).localSubmit p k).drainAdmit 17 p x
    else if g < 32768 ∧ (d.trn.lpark.filter (fun q => q.key / 2 ^ 56 = p)).length < 16 then
      { d with trn := { d.trn with lpark := d.trn.lpark ++ [⟨x, .loc ⟨p % 4, Nat.mod_lt _ (by decide)⟩, vc, k⟩] } }
    else (d.localBreak p).localSubmit p k

/-- A request of the local design on port p (R326, R327, R398, R409, R446, R448, R609). -/
def Dev.localReq (d : Dev) (p : LPort) (vc : Nat) (k : Pkt) : Dev :=
  let d := d.consume (.loc p) k
  let cls := vcClass vc
  let reply (d : Dev) (code detail retry : Nat) : Dev := if cls = .nonPosted then d.localReply p.val k code detail retry else d
  if d.draining then
    if cls = .posted then d.lostPosted (linkDomain (8 + p.val)) 1 else reply d 2 0 50
  else match (if k.opcode = 0x14#8 then none else opClass k.opcode) with
  | none => match cls with
    | .nonPosted => reply d 4 0 0
    | .posted => (d.bump F.trnCntUndefPosted_count).raise 200
    | .response => d.lateRsp false
  | some c =>
    if c ≠ cls || malformed k || reservedEnc k then match cls with
      | .nonPosted => (reply d 4 (if c ≠ cls || malformed k then 1 else 3) 0).raise 220
      | .posted => ((d.bump F.trnCntMalformedPosted_count).raise 201).raise 220
      | .response => d.lateRsp false
    else match d.localSpoof p.val k with
    | some x => reply (d.spoofCount p.val k.si x (cls = .posted)) 7 0 0
    | none =>
      if cls = .nonPosted && d.localTagBusy p.val k.tag then ((reply d 4 1 0).bump (F.winLpReq_bad_req p.val)).raise 220
      else d.localOrder p.val vc k

/-- A local admission stream stalled for 1 ms skips to its lowest parked packet (R399). -/
def Dev.localSkip (d : Dev) (p x : Nat) : Dev :=
  match d.admitAt x with
  | none => d
  | some e =>
    let low := (d.trn.lpark.filter (fun q => q.key = x)).foldl (fun (a : Option Nat) q =>
      let g := (q.pkt.sseq.toNat + 65536 - e) % 65536
      match a with
      | none => some g
      | some m => some (min m g)) none
    match low with
    | none => d
    | some m => ((d.localBreak p).setAdmit x (e + m)).drainAdmit 17 p x

end Sys2Proof.Machine
end

