-- ==== Sys2Proof/Machine/Ins.lean ====
section
/-! DEFINITION. Instances (12) and the window and tracker commands of the manager (R382 to R384, R463 to R473): descriptors, mailboxes, events, FLR and destroy, the harvest switch. -/
namespace Sys2Proof.Machine

/-! ### Manager events (R428, R442) -/

/-- Some event bit of some instance is set. -/
def Dev.anyEv (d : Dev) : Bool := d.regs.any (fun e => 0x500000 ≤ e.1 && e.1 < 0x600000 && e.1 % 256 = 8 && e.2 ≠ 0#64)

/-- An event bit of an instance is set; a first event, and with rearm every new one, fires the manager's vector (R428). -/
def Dev.setEv (d : Dev) (n : Nat) (f : Nat → Fld) : Dev :=
  if d.gb (f n) then d
  else
    let fire := !d.anyEv || d.gb F.insMgrCfg_rearm
    (d.sb (f n) true).whenD fire (fun d => d.fireVec 0 (d.g F.insMgrCfg_vector))

/-! ### Mailboxes (R425 to R427, R435) -/

/-- Byte `b` of mbx_state: 36 inbox full, 37 inbox overflow, 38 outbox full, 39 outbox overflow (R417). -/
def Dev.mbxByte (d : Dev) (n b : Nat) : Nat := d.ig n b 1

/-- A mailbox slot read: 0 to 7 inbox, 8 to 15 outbox; a slot with its error bit set reads zero (R427). -/
def Dev.slot (d : Dev) (n s : Nat) : W64 := if bitOf (d.ins.mbxErr.lk 0 n) s then 0#64 else d.ins.mbx.lk 0#64 (n * 16 + s)

/-- Slot data stored; over a full slot it is an overflow (R426). -/
def Dev.slotWrite (d : Dev) (n s : Nat) (data : W64) : Dev :=
  let fullB := if s < 8 then 36 else 38
  let full := bitOf (d.mbxByte n fullB) (s % 8)
  let d := ({ d with ins := { d.ins with mbx := d.ins.mbx.put 0#64 (n * 16 + s) data } }).stoMove 1 64
  d.whenD full (fun d => ((d.isFlop n (fullB + 1) 1 (d.mbxByte n (fullB + 1) ||| 2 ^ (s % 8))).bump F.insCntMbxOvf_count).raise 224)

/-- A ring of the inbox: full bits set, the tenant's vector fired (R426). -/
def Dev.ringInbox (d : Dev) (n m : Nat) : Dev :=
  if m = 0 then d else (d.isFlop n 36 1 (d.mbxByte n 36 ||| m)).fireVec n (d.ig n 14 2)

/-- A ring of the outbox: full bits set, the manager's event set (R426). -/
def Dev.ringOutbox (d : Dev) (n m : Nat) : Dev :=
  if m = 0 then d else (d.isFlop n 38 1 (d.mbxByte n 38 ||| m)).setEv n F.insEv_obx

/-- The mailbox zeroed: slots, full and overflow bits, slot errors (R422, R423). -/
def Dev.clearMailbox (d : Dev) (n : Nat) : Dev :=
  let d := { d with ins := { d.ins with mbx := d.ins.mbx.keep (fun k _ => k / 16 ≠ n), mbxErr := d.ins.mbxErr.del n } }
  d.isFlop n 36 4 0

/-! ### Windows as the manager sees them (R382, R384) -/

/-- A window descriptor stored. -/
def Dev.putWdesc (d : Dev) (i : Nat) (w : List W64) : Dev :=
  ({ d with win := { d.win with desc := d.win.desc.put (List.replicate 8 0#64) i w } }).stoMove 1 64

/-- Before a descriptor changes, every open line looked up in it is sent (R384, R408). -/
def Dev.flushWin (d : Dev) (i : Nat) : Dev := d.flushLines (fun l => l.win = i)

/-- A window disabled: kind 0, every other byte kept (R382). -/
def Dev.disableWin (d : Dev) (i : Nat) : Dev := (d.flushWin i).putWdesc i (bput (d.wdesc i) 34 1 0)

/-- Every window of a range disabled. -/
def Dev.disableRange (d : Dev) (lo hi : Nat) : Dev :=
  d.each (d.win.desc.keys.filter (fun i => lo ≤ i && i < hi && bget (d.wdesc i) 34 1 ≠ 0)) Dev.disableWin

/-- A window descriptor with its reserved bits zero (R16, R381). -/
def winClean (w : List W64) : List W64 :=
  let a := bput (bput (bput w 24 2 (bget w 24 2 % 4096)) 26 2 (bget w 26 2 % 4096)) 32 2 (bget w 32 2 % 4096)
  bput (bput a 35 1 (bget w 35 1 % 16)) 37 27 0

/-- The staged window descriptor, its reserved bits dropped. -/
def Dev.winStage (d : Dev) : List W64 := winClean ((List.range 8).map (fun i => d.rd (R.winStage i)))

/-- The staged instance descriptor, bytes 0 to 127. -/
def Dev.insStage (d : Dev) : List W64 := (List.range 16).map (fun i => d.rd (R.insStage i))

/-- A tracker configuration with its reserved bits zero (R16, R477). -/
def dlClean (w : List W64) : List W64 := bput (bput (bput w 38 2 (bget w 38 2 % 4096)) 40 2 (bget w 40 2 % 2048)) 42 6 0

/-- The staged tracker configuration, its reserved bits dropped. -/
def Dev.dlStage (d : Dev) : List W64 := dlClean ((List.range 6).map (fun i => d.rd (R.insDlStage i)))

/-- Words laid into a row of staging registers. -/
def Dev.toStage (d : Dev) (r : Nat → Nat) (i : Nat) (ws : List W64) : Dev :=
  match ws with
  | [] => d
  | w :: t => (d.wr (r i) w).toStage r (i + 1) t

/-- A standby member refuses ins.cmd and win.cmd other than read (R628). -/
def Dev.standby (d : Dev) : Bool := d.g F.pitTwinStatus_role = 3

/-- The outcome of a win command in its status register. -/
def Dev.winStatus (d : Dev) (result index : Nat) : Dev := (d.s F.winCmdStatus_result result).s F.winCmdStatus_index index

/-- The first check of R382 that a commit of window i fails. -/
def Dev.winCheck (d : Dev) (i : Nat) (w : List W64) : Option Nat :=
  let o := bget w 32 2 % 4096
  let kind := bget w 34 1
  let b := bget w 0 8
  let sz := bget w 8 8
  if i < d.ig o 4 4 ∨ d.ig o 4 4 + d.ig o 8 4 ≤ i then some 2
  else if 2 < kind ∨ 1 < bget w 36 1 then some 3
  else if b % 4096 ≠ 0 ∨ bget w 16 8 % 4096 ≠ 0 ∨ sz = 0 ∨ sz % 4096 ≠ 0 then some 4
  else if kind = 1 ∧ d.bar2Size o < b + sz then some 4
  else if d.gb F.winCmdStatus_busy then some 5
  else none

/-- The judgement of win.cmd (R382, R384, R561, R628). -/
def Dev.judgeWinCmd (d : Dev) (c : WCtx) : WOut :=
  let i := c.data.toNat % 65536
  let op := c.data.toNat / 65536 % 4
  if !woOk c.be 0x3FFFF || op = 3 then .bad 0#64 (262144 ≤ c.data.toNat % 2 ^ 32) false
  else if op = 1 then
    if d.gb F.winCmdStatus_busy then d.readBusy c (fun d => d.winStatus 5 i)
    else .ok 0#64 0#64 false true (fun d => (d.toStage R.winStage 0 (d.wdesc i)).winStatus 1 i)
  else if d.standby then .bad 0#64 false false
  else
    let old := d.wdesc i
    let new := if op = 0 then d.winStage else bput old 34 1 0
    let chk := if op = 0 then d.winCheck i new else if d.gb F.winCmdStatus_busy then some 5 else none
    match chk with
    | some r => .badEff 0#64 (fun d => d.winStatus r i)
    | none => .group 4 i old new (fun d =>
        let d := (d.flushWin i).putWdesc i new
        ({ d with win := { d.win with cmd := some ⟨op, i, new⟩ } }).sb F.winCmdStatus_busy true)

/-- The command under way completes (R384). -/
def Dev.winDone (d : Dev) : Dev := match d.win.cmd with
  | none => d
  | some c => (({ d with win := { d.win with cmd := none } }).sb F.winCmdStatus_busy false).winStatus 1 c.index

/-! ### Instance commands (R421, R422) -/

/-- Instances that are not absent. -/
def Dev.present (d : Dev) : List Nat := d.ins.desc.keys.filter (fun n => d.stateByte n ≠ 0)

/-- Vectors held by tenants (R416). -/
def Dev.vfVectors (d : Dev) : Nat := d.present.foldl (fun a n => if n = 0 then a else a + d.ig n 12 2) 0

/-- A reserved encoding among the manager's fields of a descriptor (R417, R421, R450). -/
def insReserved (w : List W64) : Bool :=
  (3 < bget w 1 1 && bget w 1 1 ≠ 255) || bget w 2 1 = 0 || 1 < bget w 3 1 || (4095 < bget w 18 2 && bget w 18 2 ≠ 0xFFFF) ||
  65536 < bget w 20 4 || bget w 72 56 ≠ 0

/-- A window range overlaps that of another instance that is not absent (R416, R421). -/
def Dev.rangeClash (d : Dev) (n base count : Nat) : Bool :=
  65536 < base + count ||
  d.present.any (fun m => m ≠ n && base < d.ig m 4 4 + d.ig m 8 4 && d.ig m 4 4 < base + count)

/-- The first check of R421 that a command fails: op 0 pitch, 1 resize, 2 destroy. -/
def Dev.insCheck (d : Dev) (n op : Nat) (w : List W64) : Option Nat :=
  let st := d.istate n
  let vecs := if n = 0 then d.pfVectors else bget w 12 2
  let sum := d.pfVectors + d.vfVectors - (if op = 1 ∧ n ≠ 0 then d.ig n 12 2 else 0) + (if n = 0 then 0 else bget w 12 2)
  if d.g F.genHostCfg_total_vfs < n ∨ (n = 0 ∧ op ≠ 1) then some 2
  else if (op = 0 ∧ st ≠ 0) ∨ (op = 1 ∧ (st = 0 ∨ st = 3)) ∨ (op = 2 ∧ st = 0) then some 3
  else if op ≠ 2 ∧ insReserved w then some 4
  else if op ≠ 2 ∧ d.rangeClash n (bget w 4 4) (bget w 8 4) then some 5
  else if op ≠ 2 ∧ 32768 < sum then some 6
  else if op ≠ 2 ∧ ((n ≠ 0 ∧ (vecs = 0 ∨ 2048 < vecs)) ∨ (op = 1 ∧ n ≠ 0 ∧ vecs ≠ d.ig n 12 2) ∨ vecs ≤ bget w 14 2 ∨ vecs ≤ bget w 16 2) then some 7
  else if op ≠ 2 ∧ bget w 1 1 < 4 ∧ d.lpAbsent (bget w 1 1) then some 8
  else if d.sliceShut n then some 9
  else if d.gb F.insCmdStatus_busy then some 10
  else none

/-- The outcome of an ins command in its status register. -/
def Dev.insStatus (d : Dev) (result index : Nat) : Dev := (d.s F.insCmdStatus_result result).s F.insCmdStatus_index index

/-- A descriptor with the manager's fields of the staged one (R417): the device's fields kept. -/
def mergeM (old w : List W64) : List W64 :=
  let a := bput old 1 23 (bget w 1 23)
  bput a 48 80 (bget w 48 80)

/-- The descriptor an accepted pitch leaves (R422). -/
def Dev.pitched (d : Dev) (n : Nat) (w : List W64) : List W64 :=
  let a := mergeM (d.idesc n) w
  let a := bput a 0 1 1
  let a := bput a 24 4 ((d.ig n 24 4 + 1) % 2 ^ 32)
  let a := bput a 28 8 d.tally.toNat
  let a := bput a 36 12 0
  bput a 128 4 0

/-- A pitch takes effect (R422). -/
def Dev.doPitch (d : Dev) (n : Nat) (new : List W64) : Dev :=
  let d := d.disableRange (bget new 4 4) (bget new 4 4 + bget new 8 4)
  let d := d.clearMailbox n
  let d := { d with hst := { d.hst with msix := d.hst.msix.keep (fun k _ => k / 8192 ≠ n), pba := d.hst.pba.keep (fun k _ => k / 2048 ≠ n) } }
  (d.ringOvf n false).setIdesc n new

/-- The waiting requests of an instance are charged again, against the bucket it now has (R455). -/
def Dev.rebill (d : Dev) (n : Nat) : Dev :=
  { d with trn := { d.trn with waits := d.trn.waits.map (fun w => if w.pkt.si = n then { w with paid := false } else w) } }

/-- A resize takes effect (R422, R439, R455): windows that leave or enter the range are disabled, before it where they enter. -/
def Dev.doResize (d : Dev) (n : Nat) (new : List W64) : Dev :=
  let ob := d.ig n 4 4
  let oe := ob + d.ig n 8 4
  let nb := bget new 4 4
  let ne := nb + bget new 8 4
  let change := d.win.desc.keys.filter (fun i => bget (d.wdesc i) 34 1 ≠ 0 &&
    ((decide (ob ≤ i) && decide (i < oe)) != (decide (nb ≤ i) && decide (i < ne))))
  (((d.each change Dev.disableWin).whenD (d.ig n 18 2 ≠ bget new 18 2) (fun d => d.rebill n)).setIdesc n new).pump

/-! ### FLR and destroy (R423, R424, R436 to R438) -/

/-- Steps 1 and 2 of R423. -/
def Dev.flrStart (d : Dev) (n : Nat) (destroy : Bool) : Dev :=
  match d.ins.flr.find? n with
  | some f =>
    if destroy && !f.destroy then ({ d with ins := { d.ins with flr := d.ins.flr.ins n { f with destroy := true } } }).freeHome n else d
  | none =>
    let d := d.flushLines (fun l => l.inst = n)
    let seen (e : Nat × Tracker) : Nat × Tracker := if e.2.inst = n && !destroy then (e.1, { e.2 with flrSeen := true, oldFlr := e.2.oldFlr || e.2.closing }) else e
    let d := { d with hst := { d.hst with reqs := d.hst.reqs.keep (fun k _ => k / 65536 ≠ n) } }
    let d := { d with ins := { d.ins with flr := d.ins.flr.ins n ⟨destroy, d.istate n⟩ } }
    let d := { d with iso := { d.iso with dl := d.iso.dl.map seen } }
    (d.dropOwned n).whenD destroy (fun d => d.freeHome n)

/-- A tracked write of an instance has not been issued to host memory: its MWr waits at the egress, or its atomic has no tag yet or waits there (R464). -/
def Dev.notIssued (d : Dev) (k : Pkt) : Bool :=
  (d.egress 12).groups.any (fun g => g.q.any (fun q => match q.item with
    | .hostW _ j _ _ => j = k
    | .host (.atomic _ t _ _ _) => (d.hst.tags.find? t).any (fun h => (d.hst.ops.find? h.op).any (fun o => o.pkt = k))
    | .host _ | .tp _ | .raw _ => false)) ||
  d.hst.ops.any (fun e => e.2.pkt = k && e.2.todo ≠ [] && k.opcode ≠ 1#8)

/-- The tracked writes of instance i that wait to be issued (R464). -/
def Dev.unissued (d : Dev) (i : Nat) : List Pkt :=
  ((d.egress 12).groups.flatMap (fun g => g.q.filterMap (fun q => match q.item with
    | .hostW _ j _ _ => if j.di = i then some j else none
    | .host _ | .tp _ | .raw _ => none))) ++
  ((d.hst.ops.vals.map (·.pkt)).filter (fun k => k.di = i && k.opcode ≠ 1#8 && d.notIssued k))

/-- Step 1 of the harvest switch, or of a stop (R464, R468): the counts of the closing epoch are set aside. -/
def Dev.dlClose (d : Dev) (t : Nat) (stop : Bool) : Dev :=
  match d.iso.dl.find? t with
  | none => d
  | some tr =>
    let tr' := { tr with closing := true, stop := stop, tally := d.tally, oldMarked := d.g (F.insDlMarked_marked t), oldWords := tr.words, oldOutside := d.g (F.insDlOutside_outside t), oldFlr := tr.flrSeen, oldAll := tr.allDirty, due := d.unissued tr.inst, words := 0, flrSeen := false, allDirty := false }
    let d := { d with iso := { d.iso with dl := d.iso.dl.ins t tr' } }
    let d := d.s (F.insDlStatus_state t) 2
    if stop then d
    else
      let d := d.sb (F.insDlStatus_half t) (!d.gb (F.insDlStatus_half t))
      ((d.wr (R.insDlEpoch t) (d.rd (R.insDlEpoch t) + 1)).wr (R.insDlMarked t) 0#64).wr (R.insDlOutside t) 0#64

/-- The trackers of a destroyed instance act as at a stop, a switch in progress first (R470). -/
def Dev.dlDestroyed (d : Dev) (n : Nat) : Dev :=
  d.each d.iso.dl (fun d e =>
    if e.2.inst = n then
      let d := { d with iso := { d.iso with dl := d.iso.dl.ins e.1 { e.2 with destroyed := true } } }
      if d.dlState e.1 = 1 then d.dlClose e.1 true else d
    else d)

/-- Steps 4 and 5 of R423: completion. -/
def Dev.flrFinish (d : Dev) (n : Nat) : Dev :=
  match d.ins.flr.find? n with
  | none => d
  | some f =>
    let d := d.endOps (fun o => o.fn = n) 3 (if f.destroy then 0 else 5)
    let d := { d with hst := { d.hst with msix := d.hst.msix.keep (fun k _ => k / 8192 ≠ n), pba := d.hst.pba.keep (fun k _ => k / 2048 ≠ n) } }
    let d := { d with ins := { d.ins with flr := d.ins.flr.del n } }
    let absent := d.istate n = 0
    let life := (d.ig n 24 4 + 1) % 2 ^ 32
    if f.destroy then
      let b := d.ig n 4 4
      let d := (d.disableRange b (b + d.ig n 8 4)).clearMailbox n
      let d := (((d.memZero n).ringOvf n false).is n 40 8 0).isFlop n 128 4 0
      let d := (((d.is n 24 4 life).is n 0 1 0).wr (R.insEv n) 0#64).dlDestroyed n
      if d.ins.cmd.any (fun c => c.op = 2 && c.index = n) then
        (({ d with ins := { d.ins with cmd := none } }).sb F.insCmdStatus_busy false).insStatus 1 n
      else d
    else
      let d := d.bump F.insCntFlr_count
      if absent then d
      else
        let d := (((d.clearMailbox n).ringOvf n false).isFlop n 40 8 0).isFlop n 128 4 0
        (d.is n 24 4 life).setEv n F.insEv_flr

/-- The judgement of ins.cmd (R421, R422, R423, R561, R628). -/
def Dev.judgeInsCmd (d : Dev) (c : WCtx) : WOut :=
  let n := c.data.toNat % 4096
  let op := c.data.toNat / 65536 % 8
  if !woOk c.be 0x70FFF || 3 < op then .bad 0#64 (c.data.toNat % 2 ^ 32 &&& 0xFFF8F000 ≠ 0) false
  else if op = 3 then
    if d.gb F.insCmdStatus_busy then d.readBusy c (fun d => (d.insStatus 10 n).bump F.insCntCmdRefused_count)
    else .ok 0#64 0#64 false true (fun d => (d.toStage R.insStage 0 ((d.idesc n).take 16)).insStatus 1 n)
  else if d.standby then .bad 0#64 false false
  else
    let w := d.insStage
    match d.insCheck n op w with
    | some r => .badEff 0#64 (fun d => (d.insStatus r n).bump F.insCntCmdRefused_count)
    | none =>
      let old := d.idesc n
      let new := if op = 0 then d.pitched n w else if op = 1 then mergeM old w
        else bput (bput (bput old 0 1 0) 24 4 ((d.ig n 24 4 + 1) % 2 ^ 32)) 36 12 0
      .group 5 n (old.take 16) (new.take 16) (fun d =>
        let d := { d with ins := { d.ins with cmd := some ⟨op, n, new⟩ } }
        let d := d.sb F.insCmdStatus_busy true
        if op = 0 then d.doPitch n new else if op = 1 then d.doResize n new else d.flrStart n true)

/-- An accepted pitch or resize completes; a destroy completes with R423 (R422). -/
def Dev.insDone (d : Dev) : Dev := match d.ins.cmd with
  | none => d
  | some c => if c.op = 2 then d.flrFinish c.index
    else (({ d with ins := { d.ins with cmd := none } }).sb F.insCmdStatus_busy false).insStatus 1 c.index

/-! ### Dirty-page trackers (R463 to R473) -/

/-- Every tracker is aborted (R471). -/
def Dev.dlAbort (d : Dev) : Dev :=
  d.each d.iso.dl (fun d e => if d.dlState e.1 = 1 ∨ d.dlState e.1 = 2 then (d.s (F.insDlStatus_state e.1) 3).raise 234 else d)

/-- The outcome of a tracker command in its status register. -/
def Dev.dlStat (d : Dev) (result t : Nat) : Dev := (d.s F.insDlCmdStatus_result result).s F.insDlCmdStatus_tracker t

/-- The first check of R472 that a command on tracker t fails: op 0 start, 1 switch, 2 stop. -/
def Dev.dlCheck (d : Dev) (t op : Nat) (w : List W64) : Option Nat :=
  let st := d.dlState t
  let i := bget w 38 2 % 4096
  let g := bget w 32 4
  let gran := if bget w 36 1 = 0 then 4096 else if bget w 36 1 = 1 then 65536 else 2097152
  if (op = 0 ∧ st ≠ 0 ∧ st ≠ 3) ∨ (op ≠ 0 ∧ st ≠ 1 ∧ st ≠ 2) then some 2
  else if op = 0 ∧ (2 < bget w 36 1 ∨ 1 < bget w 37 1 ∨ d.pfVectors ≤ bget w 40 2 % 2048) then some 3
  else if op = 0 ∧ (bget w 0 8 % gran ≠ 0 ∨ g = 0 ∨ 262144 < g ∨ bget w 8 8 % 64 ≠ 0 ∨ bget w 16 8 % 64 ≠ 0 ∨ bget w 24 8 % 32 ≠ 0 ∨
      d.istate i = 0 ∨ d.istate i = 3) then some 4
  else if (op ≠ 0 ∧ st = 2) ∨ d.gb F.insDlCmdStatus_busy then some 5
  else none

/-- A tracker starts on half A at epoch 1, both halves zero (R463). -/
def Dev.dlBegin (d : Dev) (t : Nat) (w : List W64) : Dev :=
  let d := { d with iso := { d.iso with dl := d.iso.dl.ins t ⟨w, [], [], [], [], 0, 0, 0, false, false, false, false, false, 0#64, 0, 0, 0, false, false, []⟩ } }
  (((d.wr (R.insDlStatus t) 1#64).wr (R.insDlEpoch t) 1#64).wr (R.insDlMarked t) 0#64).wr (R.insDlOutside t) 0#64

/-- The judgement of ins.dl_cmd (R463, R464, R468, R472, R473, R477, R561). -/
def Dev.judgeDlCmd (d : Dev) (c : WCtx) : WOut :=
  let t := c.data.toNat % 1024
  let op := c.data.toNat / 65536 % 4
  if !woOk c.be 0x303FF then .bad 0#64 (c.data.toNat % 2 ^ 32 &&& 0xFFFCFC00 ≠ 0) false
  else if op = 3 then
    if d.gb F.insDlCmdStatus_busy then d.readBusy c (fun d => d.dlStat 5 t)
    else .ok 0#64 0#64 false true (fun d => (d.toStage R.insDlStage 0 (match d.iso.dl.find? t with
      | some tr => tr.cfg
      | none => List.replicate 6 0#64)).dlStat 1 t)
  else
    let w := d.dlStage
    match d.dlCheck t op w with
    | some r => .badEff 0#64 (fun d => d.dlStat r t)
    | none =>
      if op = 0 then .group 0 (R.insDlStage 0) (List.replicate 6 0#64) w (fun d => (d.dlBegin t w).dlStat 1 t)
      else .ok 0#64 0#64 (c.data.toNat % 2 ^ 32 &&& 0xFFFCFC00 ≠ 0) false (fun d => (d.dlClose t (op = 2)).dlStat 1 t)

/-- One word of a half written to its bitmap (R461): an 8-byte MWr of the PF, issued by the tracker's inbound engine. -/
def Dev.dlWord (d : Dev) (tr : Tracker) (half : Bool) (word : Nat) (v : W64) : Dev :=
  let base := if half then bget tr.cfg 16 8 else bget tr.cfg 8 8
  d.toHost 0 (.mwr 0 (BitVec.ofNat 64 (base + 8 * word)) (bytesLE 8 v.toNat) false) 72

/-- A word due in a half is written (R461). -/
def Dev.dlWriteDue (d : Dev) (t : Nat) (half : Bool) (word : Nat) : Dev :=
  match d.iso.dl.find? t with
  | none => d
  | some tr =>
    let due := if half then tr.dirtyB else tr.dirtyA
    if !due.contains word || d.dlState t = 3 then d
    else
      let v := (if half then tr.b else tr.a).lk 0#64 word
      let old := tr.closing && (if tr.stop then half = d.gb (F.insDlStatus_half t) else half ≠ d.gb (F.insDlStatus_half t))
      let tr' := if half then { tr with dirtyB := due.filter (· ≠ word) } else { tr with dirtyA := due.filter (· ≠ word) }
      let tr' := if old then { tr' with oldWords := satAdd 32 tr.oldWords 1 } else { tr' with words := satAdd 32 tr.words 1 }
      ({ d with iso := { d.iso with dl := d.iso.dl.ins t tr' } }).dlWord tr half word v

/-- The completion record of an epoch (R466). -/
def dlRecord (epoch t flags : Nat) (tr : Tracker) : List Byte :=
  bytesLE 4 epoch ++ bytesLE 2 t ++ bytesLE 1 flags ++ bytesLE 1 0 ++ bytesLE 8 tr.tally.toNat ++ bytesLE 4 tr.oldMarked ++
  bytesLE 4 tr.oldWords ++ bytesLE 4 tr.oldOutside ++ bytesLE 4 0

/-- Steps 2 to 6 of the harvest switch once every write marked in the old half has been issued (R464 to R468). -/
def Dev.dlFinish (d : Dev) (t : Nat) : Dev :=
  match d.iso.dl.find? t with
  | none => d
  | some tr0 =>
    if !tr0.closing || d.dlState t ≠ 2 || tr0.due.any d.notIssued then d
    else
      let half := if tr0.stop then d.gb (F.insDlStatus_half t) else !d.gb (F.insDlStatus_half t)
      let nw := (tr0.granules + 63) / 64
      let d := if tr0.oldAll then d.each (List.range nw) (fun d w => d.dlWord tr0 half w (BitVec.allOnes 64))
        else d.each (if half then tr0.dirtyB else tr0.dirtyA) (fun d w => d.dlWriteDue t half w)
      let tr := (d.iso.dl.find? t).getD tr0
      let tr := if tr0.oldAll then { tr with oldWords := satAdd 32 tr.oldWords nw } else tr
      let closed := if tr.stop then d.g (F.insDlEpoch_epoch t) else (d.g (F.insDlEpoch_epoch t) + 2 ^ 32 - 1) % 2 ^ 32
      let flags := b2n half + 2 * b2n tr.oldAll + 4 * b2n tr.oldFlr + 8 * b2n (tr.destroyed && tr.stop) + 16 * b2n tr.stop
      let d := d.toHost 0 (.mwr 0 (BitVec.ofNat 64 (bget tr.cfg 24 8)) (dlRecord closed t flags tr) false) 96
      let d := d.whenD (bitOf (bget tr.cfg 37 1) 0) (fun d => d.fireVec 0 (bget tr.cfg 40 2 % 2048))
      if tr.stop then
        (({ d with iso := { d.iso with dl := d.iso.dl.del t } }).wr (R.insDlStatus t) 0#64)
      else
        let tr' := if half then { tr with b := [], dirtyB := [], closing := false } else { tr with a := [], dirtyA := [], closing := false }
        let d := ({ d with iso := { d.iso with dl := d.iso.dl.ins t tr' } }).s (F.insDlStatus_state t) 1
        if tr.destroyed then d.dlClose t true else d

end Sys2Proof.Machine
end

