-- ==== Sys2Proof/Machine/Cfg.lean ====
section
/-! DEFINITION. Configuration space (R344 to R350): which dwords it holds, which of their bits are writable, what a read of one returns (R107, R108, R142, R346). Offsets inside a structure and values that no rule names are the Base Specification's (log entry 11). -/
namespace Sys2Proof.Machine

/-! ### The writable bits -/

/-- A writable dword of configuration space: offset, RW mask, W1C mask (R344, R346, R349; log entry 11). -/
structure CfgRow where
  off : Nat
  rw : Nat
  w1c : Nat
  deriving DecidableEq, Repr

/-- The writable dwords of a VF (R345, R347). -/
def cfgRowsVf : List CfgRow := [⟨0x04, 0x4, 0xF9000000⟩, ⟨0x44, 3, 0⟩, ⟨0x50, 0xC0000000, 0⟩, ⟨0x78, 0x8000, 0xF0000⟩, ⟨0x104, 0, 0x7FFF030⟩, ⟨0x110, 0, 0xF1C1⟩]

/-- The writable dwords of a function. -/
def Dev.cfgRows (d : Dev) (fn : Nat) : List CfgRow :=
  if fn ≠ 0 then cfgRowsVf
  else
    [⟨0x04, 0x546, 0xF9000000⟩, ⟨0x0C, 0xFF, 0⟩, ⟨0x10, 0xFF000000, 0⟩, ⟨0x14, 0xFFFFFFFF, 0⟩, ⟨0x18, 0, 0⟩, ⟨0x1C, 2 ^ 32 - 2 ^ (4 + d.sizeLvl 12), 0⟩,
      ⟨0x20, 0xFFFF0000, 0⟩, ⟨0x24, 0xFFFFFFFF, 0⟩, ⟨0x3C, 0xFF, 0⟩, ⟨0x44, 3, 0⟩, ⟨0x50, 0xC0000000, 0⟩, ⟨0x78, 0xFFFF, 0xF0000⟩, ⟨0x80, 0xDCB, 0⟩,
      ⟨0x98, 0x175F, 0⟩, ⟨0xA0, 0xFFFF, 0⟩, ⟨0x104, 0, 0x7FFF030⟩, ⟨0x108, 0x7FFF030, 0⟩, ⟨0x10C, 0x7FFF030, 0⟩, ⟨0x110, 0, 0xF1C1⟩, ⟨0x114, 0xF1C1, 0⟩,
      ⟨0x294, 0x1FFF1FFF, 0⟩, ⟨0x2A0, 0xFFFFFF1F, 0⟩, ⟨0x2A4, 0xFB, 0⟩, ⟨0x2C8, 0x4, 0⟩] ++
    (if d.gb F.genHostCfg_sriov then [⟨0x2D8, 0x39, 0⟩, ⟨0x2E0, 0xFFFF, 0⟩, ⟨0x2F0, 0xFFFFFFFF, 0⟩, ⟨0x2F4, 0xFFFE0000, 0⟩, ⟨0x2F8, 0xFFFFFFFF, 0⟩,
      ⟨0x2FC, 2 ^ 32 - 2 ^ (min 32 (24 + d.sizeLvl 16)), 0⟩, ⟨0x300, 2 ^ 32 - 2 ^ (d.sizeLvl 16 - 8), 0⟩, ⟨0x304, 0xFFFF0000, 0⟩, ⟨0x308, 0xFFFFFFFF, 0⟩] else [])

/-- Offsets that R344 and R345 cover. -/
def Dev.cfgCovered (d : Dev) (fn off : Nat) : Bool :=
  off < 0x48 || (0x50 ≤ off && off < 0x5C) || (0x70 ≤ off && off < 0xAC) || (0x100 ≤ off && off < 0x150) || (0x2B0 ≤ off && off < 0x2BC) ||
  (fn = 0 && ((0x150 ≤ off && off < 0x2B0) || (0x2C0 ≤ off && off < 0x2CC) || (d.gb F.genHostCfg_sriov && 0x2D0 ≤ off && off < 0x310)))

/-- The value of an implemented dword's writable bits rejected whole: reserved encodings (R348) and the SR-IOV rules (R350). -/
def Dev.cfgReject (d : Dev) (fn off : Nat) (old new : Nat) : Bool :=
  (off = cfgPmcsr && (new % 4 = 1 || new % 4 = 2)) ||
  (off = cfgDevCtl && fn = 0 && (3 < new / 32 % 8 || 5 < new / 4096 % 8)) ||
  (off = cfgDevCtl2 && fn = 0 && !([0, 1, 2, 5, 6, 9, 10, 13, 14].contains (new % 16))) ||
  (off = cfgLinkCtl2 && (new % 16 = 0 || 6 < new % 16)) ||
  (off = 0x294 && (5 < new / 2 ^ 10 % 8 || 5 < new / 2 ^ 26 % 8)) ||
  (off = cfgL1ss && 5 < new / 2 ^ 29) ||
  (off = 0x2A4 && new % 4 = 3) ||
  (off = cfgNumVfs && (d.vfEnable || d.g F.genHostCfg_total_vfs < new % 65536)) ||
  (off = cfgPageSize && (d.vfEnable || !([1, 2, 16, 64, 256, 1024].contains new))) ||
  (0x2F4 ≤ off && off < 0x30C && d.vfEnable) ||
  (off = cfgSriovCtl && d.vfEnable && bitOf old 4 != bitOf new 4)

/-! ### What a read returns (R344 to R346, R349) -/

/-- The Subsystem ID: 0x7400 with bits 7:4 from SV13 and bits 3:0 from SV14 (R107). -/
def Dev.subsystemId (d : Dev) : Nat := 0x7400 + d.g F.genStrapSvHi_level / 2 ^ 20 % 16 * 16 + d.g F.genStrapSvHi_level / 2 ^ 24 % 16

/-- The lanes of a width code (R92). -/
def widthLanes (c : Nat) : Nat := nth [1, 2, 4, 8, 16] c 1

/-- The first dword of an extended capability. -/
def extCap (id ver next : Nat) : Nat := id + ver * 2 ^ 16 + next * 2 ^ 20

/-- A field of Readiness Time Reporting: Value × 32^Scale ns (R142). -/
def readyTime (value scale : Nat) : Nat := value + scale * 512

/-- Link Capabilities of the PF (R108, R339, R346). -/
def Dev.linkCap (d : Dev) : Nat :=
  (d.g F.genHostCfg_speed + 1) + widthLanes (d.g F.genHostCfg_width) * 2 ^ 4 + 2 * 2 ^ 10 + 4 * 2 ^ 15 + 2 ^ 22

/-- Link Status: the speed and width in force. -/
def Dev.linkStatus (d : Dev) : Nat :=
  if d.hst.dlUp then (d.g F.hstStatus_speed + 1) + widthLanes (d.g F.hstStatus_width) * 2 ^ 4 + 2 ^ 12 else 2 ^ 12

/-- A function has a non-posted request of its own outstanding. -/
def Dev.transPending (d : Dev) (fn : Nat) : Bool := d.hst.ops.any (fun e => e.2.fn = fn)

/-- The read-only bits of a dword that every function holds (R345, R346). -/
def Dev.cfgRoAll (d : Dev) (fn off : Nat) : Nat :=
  let vf := fn ≠ 0
  if off = 0x04 then 2 ^ 20
  else if off = 0x08 then d.g F.genSilicon_stepping + 0x058000 * 2 ^ 8
  else if off = 0x2C then 0x1D9F + d.subsystemId * 2 ^ 16
  else if off = 0x34 then 0x40
  else if off = 0x40 then 0x01 + 0x50 * 2 ^ 8 + 3 * 2 ^ 16
  else if off = 0x44 then 8
  else if off = 0x50 then 0x11 + 0x70 * 2 ^ 8 + (d.vectors fn - 1) * 2 ^ 16
  else if off = 0x54 then 4
  else if off = 0x58 then 0x8004
  else if off = 0x70 then 0x10 + 2 * 2 ^ 16
  else if off = 0x74 then 3 + 2 ^ 5 + 6 * 2 ^ 9 + 2 ^ 15 + 2 ^ 28
  else if off = 0x78 then b2n (d.transPending fn) * 2 ^ 21
  else if off = 0x94 then (if vf then 2 ^ 8 + 2 ^ 9 + 2 ^ 16 else 0xF + 2 ^ 4 + 2 ^ 8 + 2 ^ 9 + 2 ^ 11 + 2 ^ 16 + 2 ^ 17)
  else if off = 0x100 then extCap 1 2 0x148
  else if off = 0x148 then extCap 0xE 1 (if vf then 0x2B0 else 0x150)
  else if off = 0x2B0 then extCap 0x22 1 (if vf then 0 else 0x2C0)
  else if off = 0x2B4 then readyTime 80 4 + readyTime 0 0 * 2 ^ 12 + 2 ^ 31
  else if off = 0x2B8 then readyTime 306 3 + readyTime 31 3 * 2 ^ 12
  else 0

/-- The read-only bits of a dword that the PF alone holds (R344, R346, R349). -/
def Dev.cfgRoPf (d : Dev) (off : Nat) : Nat :=
  let sriov := d.gb F.genHostCfg_sriov
  if off = 0x10 || off = 0x20 then 4
  else if off = 0x18 then 0xC
  else if off = 0x7C then d.linkCap
  else if off = 0x80 then d.linkStatus * 2 ^ 16
  else if off = 0x9C then 2 ^ (d.g F.genHostCfg_speed + 2) - 2
  else if off = 0xA0 then b2n (d.gb F.hstStatus_flit) * 2 ^ 26
  else if off = 0x150 then extCap 3 1 0x160
  else if off = 0x154 then d.serial.toNat % 2 ^ 32
  else if off = 0x158 then d.serial.toNat / 2 ^ 32
  else if off = 0x160 then extCap 0x19 1 0x1B0
  else if off = 0x1B0 then extCap 0x25 1 0x1C0
  else if off = 0x1B4 then 1 + 2 ^ 31
  else if off = 0x1C0 then extCap 0x26 1 0x1F0
  else if off = 0x1F0 then extCap 0x2A 1 0x220
  else if off = 0x220 then extCap 0x31 1 0x240
  else if off = 0x240 then extCap 0x27 1 0x290
  else if off = 0x290 then extCap 0x18 1 0x298
  else if off = 0x298 then extCap 0x1E 1 0x2B0
  else if off = 0x29C then 0x1C + 1 * 2 ^ 16 + 4 * 2 ^ 19
  else if off = 0x2C0 then extCap 0x2F 1 (if sriov then 0x2D0 else 0)
  else if off = 0x2C4 then 6
  else if !sriov then 0
  else if off = 0x2D0 then extCap 0x10 1 0
  else if off = 0x2D4 then 6
  else if off = 0x2DC then d.g F.genHostCfg_total_vfs * (1 + 2 ^ 16)
  else if off = 0x2E4 then 1 + 2 ^ 16
  else if off = 0x2E8 then 0x7401 * 2 ^ 16
  else if off = 0x2EC then 0x553
  else if off = 0x2F4 || off = 0x304 then 4
  else if off = 0x2FC then 0xC
  else 0

/-- What a configuration read of a dword returns: every offset not covered reads zero (R344). -/
def Dev.cfgView (d : Dev) (fn off : Nat) : W32 :=
  if !d.cfgCovered fn off then 0#32
  else if off = 0 then (if fn = 0 then 0x74001D9F#32 else 0xFFFFFFFF#32)
  else BitVec.ofNat 32 (d.cfgRoAll fn off + (if fn = 0 then d.cfgRoPf off else 0)) ||| d.cfgW fn off

end Sys2Proof.Machine
end

