-- ==== Sys2Proof/Machine/Hst.lean ====
section
/-! DEFINITION. The host port (10): configuration space, MSI-X tables, resets, completions from host memory, link events. -/
namespace Sys2Proof.Machine

/-! ### MSI-X unmasking (R361, R362, R372) -/

/-- Every pending vector of a function that is no longer masked is sent, in vector order. -/
def Dev.msixSweep (d : Dev) (fn : Nat) : Dev :=
  d.each (d.hst.pba.keys.filter (fun k => k / 2048 = fn)) (fun d k => if d.msixMasked fn (k % 2048) then d else d.sendMsix fn (k % 2048))

/-- One dword of an MSI-X table written by a function's host (R360, R374, R568). -/
def Dev.msixDwWrite (d : Dev) (fn off be : Nat) (data : W64) : Dev :=
  let c : WCtx := ⟨if fn = 0 then .manager else .tenant fn, 3, fn, off, false, be, data⟩
  let vec := off / 16
  let k := off % 16 / 4
  if 0x8000 ≤ off ∨ d.vectors fn ≤ vec then (d.commitS c .unmapped).1
  else
    let old := d.msixDw fn vec k
    let legal := if k = 0 then 0xFFFFFFFC else if k = 3 then 1 else 0xFFFFFFFF
    let m := c.mask
    let x := data.toNat &&& m
    let new := BitVec.ofNat 32 ((x &&& legal) ||| (old.toNat &&& (0xFFFFFFFF ^^^ m)))
    let eff (d : Dev) : Dev :=
      let d := { d with hst := { d.hst with msix := d.hst.msix.put (if k = 3 then 1#32 else 0#32) ((fn * 2048 + vec) * 4 + k) new } }
      if d.hst.pba.lk false (fn * 2048 + vec) && !d.msixMasked fn vec then d.sendMsix fn vec else d
    (d.commitS c (.ok (old.setWidth 64) (new.setWidth 64) (x &&& legal ≠ x) false eff)).1

/-- A write to BAR4 of a function (R39, R352, R360, R374). -/
def Dev.msixWrite (d : Dev) (fn off : Nat) (size8 : Bool) (be : Nat) (data : W64) : Dev :=
  if !d.hostMem fn then d.aerUr fn false
  else if d.onlyWatch then (d.commitS ⟨if fn = 0 then .manager else .tenant fn, 3, fn, off, size8, be, data⟩ .unmapped).1
  else if off % (if size8 then 8 else 4) ≠ 0 then d.bump F.hstCntCa_count
  else if size8 then (d.msixDwWrite fn off (be % 16) (BitVec.ofNat 64 (data.toNat % 2 ^ 32))).msixDwWrite fn (off + 4) (be / 16) (BitVec.ofNat 64 (data.toNat / 2 ^ 32))
  else d.msixDwWrite fn off (be % 16) (BitVec.ofNat 64 (data.toNat % 2 ^ 32))

/-! ### Resets (R363 to R366, R370) -/

/-- The AER status, severity, mask and header log registers: kept by every reset but PERST_N (R363). -/
def stickyCfg (off : Nat) : Bool := 0x104 ≤ off && off < 0x12C && off ≠ 0x118

/-- A function's configuration back to its defaults (R363). -/
def Dev.cfgReset (d : Dev) (fn : Nat) (sticky : Bool) : Dev :=
  { d with hst := { d.hst with cfg := d.hst.cfg.keep (fun k _ => k / 4096 ≠ fn || (sticky && stickyCfg (k % 4096))) } }

/-- The enabled VFs, in ascending order. -/
def Dev.enabledVfs (d : Dev) : List Nat := if d.vfEnable then (List.range d.numVfs).map (· + 1) else []

/-- A VF FLR: its configuration to defaults but for the sticky bits, the FLR of its instance (R363, R423, R437). -/
def Dev.vfFlr (d : Dev) (n : Nat) : Dev := (d.flrStart n false).cfgReset n true

/-- The push registers back to their reset values (R573). -/
def Dev.pushReset (d : Dev) : Dev :=
  ((((d.unset R.clgPushCtl).unset R.clgPushBase).unset R.clgPushProd).unset R.clgPushCons).unset R.clgPushPos

/-- FLR effects on instance 0 and on every enabled VF, the PF's configuration to defaults (R363, R471, R573). -/
def Dev.pfReset (d : Dev) (sticky : Bool) : Dev :=
  let vfs := d.enabledVfs
  let d := (d.each vfs Dev.vfFlr).flrStart 0 false
  ((d.cfgReset 0 sticky).dlAbort).pushReset

/-- The posted writes that an item waiting for the host link holds. -/
def hostPosted (q : QEnt) : Bool := match q.item with
  | .host (.mwr _ _ _ _) | .host (.msix _ _ _ _) | .hostW _ _ _ _ => true
  | .host _ | .tp _ | .raw _ => false

/-- The host path loses what waits for the link (R366, R377): posted writes are lost of D6, host-directed requests end GONE 1. -/
def Dev.hostPathLost (d : Dev) : Dev :=
  let e := d.egress 12
  let n := (e.groups.map (fun g => (g.q.filter hostPosted).length)).foldl (· + ·) 0
  let d := (d.setEgress 12 Egress.empty)
  let d := if n = 0 then d else ((d.bumpBy F.hstCntLostPosted_count n).lostPosted 6 n).raise 213
  let wra := e.groups.flatMap (fun g => g.q.filterMap (fun q => match q.item with
    | .hostW _ k _ true => if k.posted then none else some k
    | _ => none))
  let k := d.hst.ops.length + wra.length
  let d := d.each wra (fun d k => d.answer k 3 1)
  ((d.endOps (fun _ => true) 3 1).bumpBy F.trnCntGoneSynth_count k)

/-- The data link goes down (R366): the host path's losses, and the reset of R363. -/
def Dev.linkLost (d : Dev) (ltssm : Nat) : Dev :=
  let d := d.hostPathLost
  let d := { d with hst := { d.hst with dlUp := false, l1 := .l1 } }
  let d := ((d.s F.hstStatus_ltssm ltssm).sb F.hstStatus_dl_up false).s F.hstStatus_flit 0
  ((d.s F.hstStatus_speed 0).s F.hstStatus_width 0).pfReset true

/-- The block reset of D6 by a hot reset: the hst counters take their reset values (R363, R380). -/
def Dev.hstCounters (d : Dev) : Dev := d.each (List.range 8) (fun d i => d.unset (R.hstCntUr + 4 * i))

/-! ### Configuration space (R344 to R350) -/

/-- VFs 1 to NumVFs become visible, or disappear as by a VF FLR of each (R351, R152). -/
def Dev.setVfEnable (d : Dev) (b : Bool) : Dev :=
  let was := d.vfEnable
  if b then d.setCfgBit 0 cfgSriovCtl 0 (!d.limited)
  else if was then (d.each d.enabledVfs Dev.vfFlr).setCfgBit 0 cfgSriovCtl 0 false
  else d

/-- A PF FLR (R363). -/
def Dev.pfFlr (d : Dev) : Dev := d.pfReset true

/-- What an accepted configuration write does beyond its bits: FLR, VF Enable, MSI-X unmasking, power state. -/
def Dev.cfgEffect (d : Dev) (fn off : Nat) (data : Nat) (new : W32) : Dev :=
  let store (d : Dev) : Dev := d.setCfg fn off new
  if off = cfgDevCtl then
    let d := d.setCfg fn off (new &&& 0xFFFF7FFF#32)
    if bitOf data 15 then (if fn = 0 then d.pfFlr else d.vfFlr fn) else d
  else if off = cfgSriovCtl then
    let d' := d.setCfg 0 off (BitVec.ofNat 32 (setBit new.toNat 0 d.vfEnable))
    if new.getLsbD 0 = d.vfEnable then d' else d'.setVfEnable (new.getLsbD 0)
  else if off = cfgMsix || off = cfgPmcsr then (store d).msixSweep fn
  else store d

/-- A configuration write (R137, R344, R348, R350, R568). -/
def Dev.cfgWrite (d : Dev) (fn off be : Nat) (data : W32) : Dev :=
  if !d.pit.ready then (d.bump F.pitFirstCounts_rrs).emit (.rrs fn)
  else if !d.fnEnabled fn then d.aerUr 0 true
  else
    let c : WCtx := ⟨.manager, 1, fn, off / 4 * 4, false, be % 16, data.setWidth 64⟩
    let o := off / 4 * 4
    if !d.cfgCovered fn o then (d.commitS c .unmapped).1
    else match (d.cfgRows fn).find? (fun r => r.off = o) with
    | none => d
    | some r =>
      let old := (d.cfgW fn o).toNat
      let m := c.mask
      let x := data.toNat &&& m
      let kept := old &&& (0xFFFFFFFF ^^^ (x &&& r.w1c))
      let new := (x &&& r.rw) ||| (kept &&& (0xFFFFFFFF ^^^ (m &&& r.rw)))
      if d.cfgReject fn o old new then (d.commitS c (.bad (BitVec.ofNat 64 old) false false)).1
      else (d.commitS c (.ok (BitVec.ofNat 64 old) (BitVec.ofNat 64 new) false false (fun d => d.cfgEffect fn o x (BitVec.ofNat 32 new)))).1

/-- The vectors of the PF set: while MSI-X is disabled, within the pool (R359, R416). -/
def Dev.judgePfVectors (d : Dev) (c : WCtx) : WOut :=
  let cur := d.rd R.hstPfVectors
  let m := c.mask
  let v := ((c.data.toNat &&& m) ||| (cur.toNat &&& (0xFFFFFFFF ^^^ m))) % 2048
  let rs := (c.data.toNat &&& m) / 2048 ≠ 0
  if d.msixEnabled 0 || 32768 < v + 1 + d.vfVectors then .bad cur rs false
  else .ok cur (BitVec.ofNat 64 v) rs false (fun d => d.wr R.hstPfVectors (BitVec.ofNat 64 v))

/-! ### Completions and messages (R352, R358, R365, R367) -/

/-- A completion of host memory, as a whole piece (R356, R358). -/
def Dev.hostCpl (d : Dev) (t : Nat) (st : HostStatus) (data : List Byte) : Dev :=
  if (d.sto.quar.find? (65536 + t)).isSome then d
  else match d.hst.tags.find? t with
  | none => (d.bump F.hstCntUnexpCpl_count).aerUnc 0 16 true
  | some h =>
    let d := d.freeHostTag t
    if h.stale then d.pumpHost
    else
      let r := match st with
        | .sc => d.pieceDone h data none
        | .poisoned => d.pieceDone h data (some (6#8, 0#8))
        | .ur => d.pieceDone h [] (some (4#8, 2#8))
        | .ca => d.pieceDone h [] (some (7#8, 1#8))
      r.pumpHost

/-- A completion of host memory is overdue: GONE 2, F210 (R358, R367). -/
def Dev.hostCplTimeout (d : Dev) (t : Nat) : Dev :=
  match d.hst.tags.find? t with
  | none => d
  | some h =>
    let d := ((d.freeHostTag t).bump F.hstCntCplTimeout_count).aerUnc h.fn 14 false
    ((if h.stale then d else d.pieceDone h [] (some (3#8, 2#8))).raise 210).pumpHost

/-- A message or a request type of R352 that is no memory or configuration access. -/
def Dev.hostMsg (d : Dev) (fn : Nat) (m : HostMsg) : Dev := match m with
  | .setSlotPowerLimit | .vendorType1 | .ltr | .ptm => d
  | .vendorType0 | .other => d.aerUr fn false
  | .ioRequest | .cfgType1 => d.aerUr fn true

/-- An error of the host link (R367, R368). -/
def Dev.hostError (d : Dev) (e : HostErr) (fn : Nat) : Dev :=
  let cor (bit : Nat) : Dev := { d.aerCor 0 bit with hst := { (d.aerCor 0 bit).hst with corr := d.hst.corr + 1 } }
  let retrain (d : Dev) : Dev := (d.s F.hstStatus_ltssm 4).raise 211
  match e with
  | .receiver => cor 0
  | .badTlp => cor 6
  | .badDllp => cor 7
  | .replayRollover => cor 8
  | .replayTimer => cor 12
  | .dataLink => retrain (d.aerUnc 0 4 false)
  | .flowControl => retrain (d.aerUnc 0 13 false)
  | .overflow => retrain (d.aerUnc 0 17 false)
  | .malformed => (d.aerUnc fn 18 false).raise 211
  | .unexpectedCpl => (d.bump F.hstCntUnexpCpl_count).aerUnc 0 16 true

/-- The end of a 1 s interval of corrected host link errors (R368). -/
def Dev.hostCorrEnd (d : Dev) : Dev :=
  let n := d.hst.corr
  ({ d with hst := { d.hst with corr := 0 } }).whenD (d.g F.hstCorrThresh_count < n) (fun d => d.raise 214)

/-- Host link training completes (R336, R338): at the speed and width of the two ends that both support, this one's by its straps; in Flit Mode where it was negotiated, and always at 64.0 GT/s. -/
def Dev.hostUp (d : Dev) (speed width : Nat) (flit : Bool) : Dev :=
  let speed := min speed (d.g F.genHostCfg_speed)
  let width := min width (d.g F.genHostCfg_width)
  let d := { d with hst := { d.hst with dlUp := true, l1 := .l1 } }
  let d := ((d.s F.hstStatus_ltssm 3).s F.hstStatus_speed speed).s F.hstStatus_width width
  let d := (d.sb F.hstStatus_flit (flit || speed = 5)).sb F.hstStatus_dl_up true
  d.whenD (decide (speed < d.g F.genHostCfg_speed) || decide (width < d.g F.genHostCfg_width)) (fun d => d.raise 209)

end Sys2Proof.Machine
end

