-- ==== Sys2Proof/Machine/Store.lean ====
section
/-! DEFINITION. The State Store (05): where an address lies, what an error does there, scrub, the diagnostic port. -/
namespace Sys2Proof.Machine

/-! ### The region map (R159, R161) -/

/-- The region of a Store address (R159). -/
def regionOf (a : Nat) : Nat := ((List.range 23).filter (fun i => regionBase i ≤ a)).length - 1

/-- The pseudo-channel of a Store address (R157). -/
def storePc (a : Nat) : Nat := (a / 2 ^ 8 % 32) ^^^ (a / 2 ^ 13 % 32)

/-- The power domain of the Store PHY that serves an address: two pseudo-channels to a channel, channels 0 to 7 on PHY A (R157). -/
def storePhy (a : Nat) : Nat := if storePc a / 2 < 8 then 31 else 32

/-- The regions marked Page CRC (R159). -/
def pageCrcRegion (r : Nat) : Bool := [2, 5, 6, 7, 8, 9, 10, 11, 12, 16].contains r

/-- The port of an offset in the far or landing rings (R159). -/
def ringPort (o : Nat) : Nat := o / 0x800000

/-- An offset of a region within its used size (R159, R161, R190). -/
def Dev.inUsed (d : Dev) (r o : Nat) : Bool :=
  if r = 18 || r = 19 then o % 0x800000 < d.regionUsed r else if r = 20 then true else o < d.regionUsed r

/-- The live hold entries by table index: home entries first, then owned ones (log entry 19). -/
def Dev.holdIndex (d : Dev) (i : Nat) : Option (HoldEnt ⊕ OwnedEnt) := match d.trn.home[i]? with
  | some e => some (.inl e)
  | none => (d.trn.owned[i - d.trn.home.length]?).map .inr

/-- The quarantine key of a tag's unit: fabric tags, then host-directed tags, then local-port tags by port × 4,096 (R159). -/
def tagKey (r o : Nat) : Nat :=
  if r = 8 then o / 64 else if r = 9 then 65536 + o / 64 else 131072 + o / 0x40000 * 4096 + o % 0x40000 / 64

/-- The tag of a unit is held. -/
def Dev.tagHeld (d : Dev) (r o : Nat) : Bool :=
  let k := tagKey r o
  if r = 8 then (d.trn.tags.find? k).isSome else if r = 9 then (d.hst.tags.find? (k - 65536)).isSome else (d.trn.ltags.find? (k - 131072)).isSome

/-- The unit at an offset of a region is in use (R179, R185). A far-ring flit lies in slot seq mod (L − 32) (log entry 19). -/
def Dev.unitUsed (d : Dev) (r o : Nat) : Bool :=
  d.inUsed r o &&
  (if r = 5 then d.stateByte (o / 128) ≠ 0
   else if r = 6 then bget (d.wdesc (o / 64)) 34 1 ≠ 0
   else if r = 7 then (d.holdIndex (o / 64)).isSome
   else if 8 ≤ r ∧ r ≤ 10 then d.tagHeld r o
   else if r = 16 then decide (o / 64 < d.clgN)
   else if r = 17 then d.stateByte (o / 65536) ≠ 0
   else if r = 18 then (d.lnk (ringPort o)).far.any (fun t : TxFlit => t.seq % (d.limitL - 32) = o % 0x800000 / 256)
   else if r = 19 then (d.lnk (ringPort o)).landSlots.contains (o % 0x800000 / 256)
   else if r = 20 then d.dlState (o / 65536) = 2 || (d.dlState (o / 65536) = 1 && decide (o % 65536 / 32768 = b2n (d.gb (F.insDlStatus_half (o / 65536)))))
   else if r = 21 then d.twin.staging.isSome
   else r < 3 || r = 3 || r = 4 || (11 ≤ r && r ≤ 14))

/-- The source an uncorrectable error raises (R179). -/
def ueSource (r : Nat) (used : Bool) : Nat :=
  if r = 2 || r = 16 then 46
  else if r < 5 || r = 13 || r = 14 then 41
  else if !used || r = 11 || r = 12 || r = 15 || r = 22 then 48
  else if r = 5 || r = 6 || r = 7 || r = 20 then 44
  else if 8 ≤ r && r ≤ 10 then 43
  else if r = 18 || r = 19 then 42
  else 47

/-! ### Actions (R179, R182) -/

/-- An instance whose two descriptor copies failed is stopped, with its event (R182, R442). -/
def Dev.stopInstance (d : Dev) (n : Nat) : Dev :=
  let d := (d.isFlop n 0 1 3).raise 45
  let old := d.rd (R.insEv n)
  let d' := d.setEv n F.insEv_stopped
  d'.log (d'.recOf ⟨.hardware 0x0C 0, 0, 0, R.insEv n, false, 0, 0#64⟩ 0 old (d'.rd (R.insEv n)))

/-- A hold entry lost (R179): a home entry is released with a broken mark, an owned one forgotten. -/
def Dev.loseHold (d : Dev) (i : Nat) : Dev := match d.holdIndex i with
  | some (.inl e) => d.breakHold e
  | some (.inr e) => { d with trn := { d.trn with owned := d.trn.owned.erase e } }
  | none => d

/-- A tag quarantined until the next pitch (R179). -/
def Dev.quarTag (d : Dev) (k : Nat) : Dev :=
  if (d.sto.quar.find? k).isSome then d
  else ({ d with sto := { d.sto with quar := d.sto.quar.ins k true } }).bump F.stoTagQuarantined_count

/-- A record of the ring reads with its bad flag (R179). -/
def Dev.badRecord (d : Dev) (slot : Nat) : Dev :=
  let hit (e : Nat × LogEnt) : Nat × LogEnt := if e.1 % d.clgN = slot then (e.1, { e.2 with bad := true }) else e
  { d with clg := { d.clg with ring := d.clg.ring.map hit } }

/-- The action of an uncorrectable error on a unit in use (R179, R186). -/
def Dev.ueAct (d : Dev) (r o : Nat) : Dev :=
  if r = 2 then d.logHeader
  else if r = 5 then
    let n := o / 128
    let m := if o % 128 < 64 then 0xFF else 0xFF00
    { d with ins := { d.ins with mbxErr := d.ins.mbxErr.upd 0 n (· ||| m), mbx := d.ins.mbx.keep (fun k _ => k / 8 ≠ o / 64) } }
  else if r = 6 then d.putWdesc (o / 64) (bput (d.wdesc (o / 64)) 34 1 0)
  else if r = 7 then d.loseHold (o / 64)
  else if r = 11 || r = 12 then d.snapMend (r = 12)
  else if 8 ≤ r ∧ r ≤ 10 then d.quarTag (tagKey r o)
  else if r = 16 then d.badRecord (o / 64)
  else if r = 17 then { d with sto := { d.sto with errUnits := d.sto.errUnits.ins (o / 64) true } }
  else if r = 18 || r = 19 then (if d.bvc.phase = .none then d.storeLinkReset (ringPort o) else d)
  else if r = 20 then
    let t := o / 65536
    let active := decide (o % 65536 / 32768 = b2n (d.gb (F.insDlStatus_half t)))
    let hit (e : Nat × Tracker) : Nat × Tracker := if e.1 ≠ t then e
      else if e.2.closing && (!active || e.2.stop) then (e.1, { e.2 with oldAll := true }) else (e.1, { e.2 with allDirty := true })
    { d with iso := { d.iso with dl := d.iso.dl.map hit } }
  else if r = 21 then (if 2 ≤ d.role && d.role ≤ 4 then d.reform 0 hwPit else { d with twin := { d.twin with staging := none } })
  else d

/-- The address and description of the last error (R168, R190). -/
def Dev.ueRecord (d : Dev) (r a : Nat) (crc used : Bool) : Dev :=
  let port := if r = 18 || r = 19 then ringPort (a - regionBase r) else 0
  (d.wr R.stoUeAddr (BitVec.ofNat 64 (a / 64 * 64))).wr R.stoUeInfo (BitVec.ofNat 64 (r + b2n crc * 32 + b2n used * 64 + port * 256 + 2 ^ 31))

/-- A source raised for a Store error; F042 names the port (R520). -/
def Dev.raiseUe (d : Dev) (r o : Nat) (used : Bool) : Dev :=
  let n := ueSource r used
  if n = 42 then d.raiseAt 42 (ringPort o) else d.raise n

/-- A mismatch of the two copies resolved (R172, R183). -/
def Dev.copyFixed (d : Dev) : Dev := (d.bump F.stoCopyMismatch_count).raise 41

/-- An uncorrectable ECC error of a unit, met in a unit in use or not (R168, R179). -/
def Dev.ueMet (d : Dev) (a : Nat) (used : Bool) : Dev :=
  let r := regionOf a
  let o := a - regionBase r
  let d := (d.bump F.stoErrUe_count).ueRecord r a false used
  if r = 0 || r = 1 || r = 3 || r = 4 || r = 13 || r = 14 then d.copyFixed
  else (if used || r = 2 || r = 16 then d.ueAct r o else d).raiseUe r o used

/-- An uncorrectable ECC error of a unit, by its use at that moment (R179, R697). -/
def Dev.ueUnit (d : Dev) (a : Nat) : Dev := let r := regionOf a; d.ueMet a (d.unitUsed r (a - regionBase r))

/-- A page CRC failure found at step 7w: every entry is about to be used (R170, R697). -/
def Dev.crcHeld (d : Dev) (a : Nat) : Dev :=
  let r := regionOf a
  let base := (a - regionBase r) / 4096 * 4096
  let d := (d.bump F.stoCrcFail_count).ueRecord r a true true
  (d.each ((List.range 64).map (fun i => base + 4032 - 64 * i)) (fun d o => d.ueAct r o)).raiseUe r base true

/-- A page CRC failure (R170, R179): the action for every unit of the page. -/
def Dev.crcPage (d : Dev) (a : Nat) : Dev :=
  let r := regionOf a
  let base := (a - regionBase r) / 4096 * 4096
  let units := (List.range 64).map (fun i => base + 64 * i)
  let used := units.any (fun o => d.unitUsed r o)
  let free := units.any (fun o => !d.unitUsed r o)
  let d0 := (d.bump F.stoCrcFail_count).ueRecord r a true used
  let d1 := d0.each units.reverse (fun x o => if d.unitUsed r o || r = 16 then x.ueAct r o else x)
  let d2 := if used then d1.raiseUe r base true else d1
  if free && (!used || ueSource r false ≠ ueSource r true) then d2.raiseUe r base false else d2

/-- Seal B is newer than seal A: the sequences are compared modulo 2^32 as signed differences (R172). -/
def sealNewer (a b : Option Seal) : Bool := match a, b with
  | some x, some y => decide (x.seq ≠ y.seq) && decide ((y.seq - x.seq).toNat < 2 ^ 31)
  | none, some _ => true
  | _, none => false

/-- The two seal copies read and compared (R172, R178, R182). -/
def Dev.sealCopies (d : Dev) (aOk bOk : Bool) : Dev :=
  if d.sto.sealA.isNone && d.sto.sealB.isNone then d
  else if !aOk && !bOk then ({ d with sto := { d.sto with sealA := none, sealB := none } }).bump F.stoCopyMismatch_count
  else if aOk && bOk && d.sto.sealA = d.sto.sealB then d
  else
    let w := if bOk && (!aOk || sealNewer d.sto.sealA d.sto.sealB) then d.sto.sealB else d.sto.sealA
    ({ d with sto := { d.sto with sealA := w, sealB := w } }).copyFixed

/-- A copy of instance n's descriptor in region r passes its CRC-64 (R171). -/
def copyGood (r n : Nat) (w : List W64) : Bool := w.length = 32 && nth w 31 0#64 = envelopeCrc (regionBase r + 256 * n) (w.take 31 ++ [0#64])

/-- The write sequence of a descriptor copy (R171). -/
def copySeq (w : List W64) : Nat := (nth w 30 0#64).toNat

/-- The descriptor that a copy holds; the fields that the slice keeps in flops stay as they are while it serves (R417, R418). -/
def Dev.fromCopy (d : Dev) (n : Nat) (live : Bool) (w : List W64) : List W64 :=
  let x := w.take 30 ++ [0#64, 0#64]
  if live then bput (bput x 36 12 (d.ig n 36 12)) 128 4 (d.ig n 128 4) else x

/-- The two copies of instance n's descriptor read and compared over every stored bit (R172, R173, R182, log entry 131); `live` while the slice holds it. -/
def Dev.descCopies (d : Dev) (n : Nat) (live : Bool) (a b : List W64) : Dev :=
  let aOk := copyGood 3 n a
  let bOk := copyGood 4 n b
  if aOk && bOk && a.take 31 = b.take 31 then d
  else if !aOk && !bOk then (d.bump F.stoCopyMismatch_count).stopInstance n
  else
    let w := if bOk && (!aOk || decide (copySeq a < copySeq b)) then b else a
    let x := d.fromCopy n live w
    ({ d with ins := { d.ins with desc := d.ins.desc.put (List.replicate 32 0#64) n x, wseq := d.ins.wseq.put 0 n (copySeq w) } }).copyFixed

/-- The two directory copies differ (R183): at a page, the copy that matches the page wins, and with none the page fails; at a directory unit that fails in both copies its CRCs are recomputed. -/
def Dev.dirDiffer (d : Dev) (a : Nat) (aOk bOk : Bool) : Dev :=
  let r := regionOf a
  if aOk || bOk then d.copyFixed
  else if r = 13 || r = 14 then ((d.bumpBy F.stoErrUe_count 2).ueRecord r a false true).raise 46
  else (d.bump F.stoCopyMismatch_count).crcPage a

/-- What a read of one unit met (R168 to R173, R179, R183). -/
def Dev.unitRead (d : Dev) (a : Nat) (x : UnitRead) : Dev :=
  let r := regionOf a
  match x with
  | .clean => d
  | .corrected => (d.bump F.stoErrCe_count).raise 40
  | .uncorrectable => d.ueUnit a
  | .pageCrc => if pageCrcRegion r then d.crcPage a else d
  | .copies x y => if r = 3 || r = 4 then d.descCopies ((a - regionBase r) / 256) true x y else d
  | .seals aOk bOk => if r < 2 then d.sealCopies aOk bOk else d
  | .directories aOk bOk => if pageCrcRegion r || r = 13 || r = 14 then d.dirDiffer a aOk bOk else d

/-! ### Errors met at the rings (R179, R230, R237, R256) -/

/-- The Store address of the far-ring slot of a sequence number. -/
def Dev.farAddr (d : Dev) (p s : Nat) : Nat := regionBase 18 + p * 0x800000 + s % (d.limitL - 32) * 256

/-- The Store address of a landing slot. -/
def landAddr (p k : Nat) : Nat := regionBase 19 + p * 0x800000 + k * 256

/-- A flit slot (R222); where its replay reads the far ring and meets an uncorrectable error or a flit CRC that fails, the error acts on the port instead (R179, R230, R256). -/
def Dev.flitSlot (d : Dev) (p : Nat) (spillOk readBad : Bool) : Dev :=
  match (d.lnk p).replay with
  | s :: _ => if readBad && d.phyState p = 7 && d.portOpen p && (d.lnk p).far.any (fun t => t.seq = s) then d.ueMet (d.farAddr p s) true else d.slotOf p spillOk
  | [] => d.slotOf p spillOk

/-- The admission queue of a port and class of VC is full: as many of its requests wait for a resource as the queue holds beside the first (R36, log entry 122). -/
def Dev.admissionFull (d : Dev) (p v : Nat) : Bool :=
  let n :=
    if p < 8 then
      let here (x : Via) : Bool := match x with
        | .fabric q => q.val = p
        | .turn | .loc _ => false
      (d.trn.dwait.filter (fun w => here w.via && w.pkt.posted = postedVc v)).length +
        (d.hst.ops.filter (fun e : Nat × HOp => here e.2.via && !e.2.todo.isEmpty && !postedVc v)).length
    else (d.trn.waits.filter (fun w => w.pkt.posted = postedVc v && (match w.who with
      | .loc q _ _ _ => 8 + q = p
      | .host _ _ | .twin _ | .line _ | .none => false))).length
  3 ≤ v && v ≤ 6 && 0 < n && decide (Config.admissionDepth < n)

/-- A delivery (R238), withheld with its credits while the admission queue it goes to is full (R36); where a landed flit reads with an uncorrectable error or a flit CRC that fails, the error acts on the port instead (R179, R237, R256). -/
def Dev.deliverSlot (d : Dev) (p v : Nat) (readBad : Bool) : Dev :=
  if d.admissionFull p v then d
  else match d.nextFlit p v with
  | some f => if readBad && f.shared then d.ueMet (landAddr p f.slot) true else d.deliverFlit p v
  | none => d.deliverFlit p v

/-! ### Scrub (R174, R175) -/

/-- The units of the Store. -/
def stoUnits : Nat := 0x10000000

/-- Scrub reads the next unit (R174, R190). -/
def Dev.scrub (d : Dev) (x : UnitRead) : Dev :=
  if !d.gb F.stoStatus_scrub_on then d
  else
    let u := d.sto.scrubPos
    let d := (d.unitRead (64 * u) x).stoMove 6 64
    let n := (u + 1) % stoUnits
    let d := { d with sto := { d.sto with scrubPos := n } }
    let d := if n / 0x100000 = u / 0x100000 then d else d.s F.stoScrubStatus_progress (n / 0x100000)
    if n = 0 then d.bump F.stoScrubStatus_passes else d

/-! ### The diagnostic port (R187, R190) -/

/-- Bytes 0 to 111 of a seal copy, as words (R171, R612): the CRC of CRC directory A is `dir`, of the warm image `img` with its length in bytes. -/
def Seal.words (s : Seal) (dir img : W64) (len : Nat) : List W64 :=
  let w (n : Nat) : W64 := BitVec.ofNat 64 n
  [w (s.seq.toNat + s.inc.toNat * 2 ^ 32), s.tally, w (s.trigger + (b2n s.incomplete + 2 * b2n (s.token ≠ 0#64)) * 2 ^ 8 + s.sd.toNat * 2 ^ 32), s.sv,
   s.token, s.head, s.chain, dir, img, w (len + s.lost % 2 ^ 32 * 2 ^ 32), w (s.role + b2n s.imageOk * 2 ^ 8), s.epoch, s.boundary, s.peer]

/-- A register that the warm image holds: a writable field of it has reset code W, and no Store table gives it (R614). -/
def RegDef.inImage (r : RegDef) (off : Nat) : Bool :=
  r.codes.w && r.fields.any (fun f => f.acc ≠ .ro) && !(0x500000 ≤ off && off < 0x600000 && off % 256 ≠ 8)

/-- The bytes of the warm image: each register whole, in ascending offset order, 4 or 8 bytes (R614); none before an image was written. -/
def Dev.imageBytes (d : Dev) : List Byte :=
  if d.sto.image.isEmpty then []
  else (List.range 0x400000).flatMap (fun i => match regAt (4 * i) with
    | some r => if r.inImage (4 * i) then bytesLE (if r.wide then 8 else 4) (d.sto.image.lk (BitVec.ofNat 64 r.reset) (4 * i)).toNat else []
    | none => [])

/-- Eight words of a 64-byte unit in a region whose layout the specification gives; none where it gives none. The seal copies and the CRC directories are laid over these. -/
def Dev.tableWords (d : Dev) (a : Nat) : Option (List W64) :=
  let r := regionOf a
  let o := a - regionBase r
  let desc (n : Nat) : List W64 :=
    let w := (d.idesc n).take 30 ++ [BitVec.ofNat 64 (d.ins.wseq.lk 0 n)]
    w ++ [envelopeCrc (a / 256 * 256) (w ++ [0#64])]
  if r = 15 || r = 22 || !d.inUsed r o then some (List.replicate 8 0#64)
  else if r = 3 || r = 4 then some (((desc (o / 256)).drop (o % 256 / 8)).take 8)
  else if r = 5 then
    some ((List.range 8).map (fun i => d.ins.mbx.lk 0#64 (o / 128 * 16 + o % 128 / 8 + i)))
  else if r = 6 then some (d.wdesc (o / 64))
  else if r = 2 then
    if o = 0 then some [BitVec.ofNat 64 (d.sto.hdrLevel.getD 0), d.sto.hdrHead, d.sto.hdrTail, d.sto.hdrAnchor, 0#64, 0#64, 0#64, 0#64]
    else some (List.replicate 8 0#64)
  else if r = 16 then
    (List.find? (fun e : Nat × LogEnt => e.1 % d.clgN = o / 64) d.clg.ring).map (fun e => recWords (BitVec.ofNat 64 e.1) e.2.body ++ [e.2.chain])
  else if r = 17 then some (wordsOfBytes 8 ((List.range 64).map (fun i => d.memRd (o + i))))
  else if r = 21 && o < 0x100000 then some (wordsOfBytes 8 ((d.imageBytes.drop o).take 64 ++ List.replicate 64 0#8))
  else none

/-- The CRC-64 of a page (R169): its Store address, then its 4,096 bytes; none where a unit of it is laid out by no rule. -/
def Dev.pageCrc (d : Dev) (page : Nat) : Option W64 :=
  ((List.range 64).foldr (fun i acc => match d.tableWords (4096 * page + 64 * i), acc with
    | some ws, some t => some (ws ++ t)
    | _, _ => none) (some [])).map (fun ws => crc64 (bytesLE 8 (4096 * page) ++ bytesOfWords ws))

/-- An entry of the CRC directories: kept equal to its page with every write of the page; zero for a page outside the protected regions (R169, R170). -/
def Dev.dirEntry (d : Dev) (page : Nat) : Option W64 := if pageCrcRegion (regionOf (4096 * page)) then d.pageCrc page else some 0#64

/-- The eight directory entries of a unit of region 13 or 14. -/
def Dev.dirWords (d : Dev) (o : Nat) : Option (List W64) :=
  (List.range 8).foldr (fun i acc => match d.dirEntry (o / 8 + i), acc with
    | some w, some t => some (w :: t)
    | _, _ => none) (some [])

/-- The CRC-64 over the whole of CRC directory A (R612). -/
def Dev.dirCrc (d : Dev) : Option W64 :=
  ((List.range 0x10000).foldr (fun i acc => match d.dirWords (64 * i), acc with
    | some ws, some t => some (ws ++ t)
    | _, _ => none) (some [])).map (fun ws => crc64 (bytesLE 8 (regionBase 13) ++ bytesOfWords ws))

/-- A unit of a seal copy (R171, R612): its fields, zeros, and in its last 8 bytes the CRC-64 of the copy. -/
def Dev.sealUnit (d : Dev) (r o : Nat) (s : Seal) : Option (List W64) :=
  if 128 ≤ o ∧ o < 0xFFC0 then some (List.replicate 8 0#64)
  else d.dirCrc.map (fun dir =>
    let img := d.imageBytes
    let body := s.words dir (crc64 (bytesLE 8 (regionBase 21) ++ img)) img.length
    let crc := crc64 (bytesLE 8 (regionBase r) ++ bytesOfWords body ++ List.replicate 65416 0#8)
    if o < 128 then ((body ++ List.replicate 2 0#64).drop (o / 8)).take 8 else List.replicate 7 0#64 ++ [crc])

/-- Eight words of a byte string, from an offset on. -/
def wordsAt (bs : List Byte) (o : Nat) : List W64 := (List.range 8).map (fun i => BitVec.ofNat 64 (ofBytesLE ((bs.drop (o + 8 * i)).take 8)))

/-- Eight words of a 64-byte unit of the Store; none where no rule lays them out (log entry 4). -/
def Dev.unitWords (d : Dev) (a : Nat) : Option (List W64) :=
  let r := regionOf a
  let o := a - regionBase r
  if r = 0 || r = 1 then
    match (if r = 0 then d.sto.sealA else d.sto.sealB) with
    | some s => d.sealUnit r o s
    | none => none
  else if (r = 13 || r = 14) then d.dirWords o
  else if r = 18 then ((d.lnk (ringPort o)).far.find? (fun t : TxFlit => t.seq % (d.limitL - 32) = o % 0x800000 / 256)).map (fun t => wordsAt (flitBytes t.f) (o % 256))
  else if r = 19 then
    (((d.lnk (ringPort o)).rxBuf.flatMap (fun e => e.2)).find? (fun f : RxFlit => f.shared && !f.abort && f.slot = o % 0x800000 / 256)).map (fun f => wordsAt f.wire (o % 256))
  else d.tableWords a

/-- Free values, one after another (log entry 4). -/
def Dev.takeFrees (d : Dev) (n : Nat) : List W64 × Dev :=
  ((List.range n).map (fun i => Config.freeValue (d.free + i)), { d with free := d.free + n })

/-- The judgement of a write of sto.dbg_ctl: go starts a read (R190). -/
def Dev.judgeDbg (d : Dev) (c : WCtx) : WOut := match regAt c.off with
  | none => .unmapped
  | some r => d.judgeRow r c (d.rd c.off) (fun v d =>
      if fieldOf v 0 0 = 1 && fieldOf c.data 0 0 = 1 then
        let at_ := (d.rd R.stoDbgAddr).toNat / 64 * 64
        { (d.wr c.off v).sb F.stoDbgCtl_busy true with sto := { d.sto with dbgAt := at_ } }
      else d.wr c.off v)

/-- The device knows a unit to hold an uncorrectable error: a commons unit, a record read with its bad flag (R179, R187). -/
def Dev.knownBad (d : Dev) (a : Nat) : Bool :=
  let r := regionOf a
  let o := a - regionBase r
  (r = 17 && (d.sto.errUnits.find? (o / 64)).isSome) || (r = 16 && d.clg.ring.any (fun e : Nat × LogEnt => e.1 % d.clgN = o / 64 && e.2.bad))

/-- The diagnostic read of the unit that dbg_addr named at go completes (R187, R190): data the specification lays out, free values elsewhere; poison where the read met an uncorrectable error or the device knows of one. -/
def Dev.dbgDone (d : Dev) (poison : Bool) : Dev :=
  if !d.gb F.stoDbgCtl_busy then d
  else
    let a := d.sto.dbgAt
    let r := match d.unitWords a with
      | some ws => (ws, d)
      | none => d.takeFrees 8
    let d := (List.zip (List.range 8) r.1).foldl (fun (d : Dev) e => d.wr (R.stoDbgData e.1) e.2) r.2
    (((d.sb F.stoDbgCtl_go false).sb F.stoDbgCtl_busy false).sb F.stoDbgCtl_poison (poison || d.knownBad a)).stoMove 7 64

/-- A channel stops responding in service (R127, R180): the stack is not brought back with its contents. -/
def Dev.channelFail (d : Dev) : Dev := if d.gb F.stoStatus_ready then ({ d with sto := { d.sto with live := false } }).raise 49 else d

end Sys2Proof.Machine
end

