-- ==== Sys2Proof/Machine/Straps.lean ====
section
/-! DEFINITION. Straps (03): what the samples decide, illegal values and combinations, the effective values, re-reads and drift. -/
namespace Sys2Proof.Machine

/-! ### Digital straps (R100) -/

/-- What 32 samples of a digital strap decide. -/
structure SdDecision where
  value : Bool
  floating : Bool
  unstable : Bool

/-- The decision of a digital strap: bits 15:0 were read with the pull-up, bits 31:16 with the pull-down (R99, R100). -/
def sdDecide (w : BitVec 32) : SdDecision :=
  if w = BitVec.allOnes 32 then ⟨true, false, false⟩
  else if w = 0#32 then ⟨false, false, false⟩
  else if w = 0xFFFF#32 then ⟨false, true, false⟩
  else ⟨16 < (bitsOf w.toNat 32).length, false, true⟩

/-! ### Resistor straps (R96 to R98, R101) -/

/-- The window boundaries in units of 10 Ω (R96). -/
def svBounds : List Nat := [50, 124, 191, 298, 464, 715, 1100, 1720, 2670, 4120, 6340, 9880, 15400, 23700, 45000]

/-- The level that a reading decides; a reading on a boundary falls in the upper window, 450 kΩ itself in level 14 (R96, log entry 8). -/
def svLevel (r : Nat) : Nat := ((svBounds.take 14).filter (fun b => b ≤ r)).length + b2n (decide (45000 < r))

/-- A reading within 5 % of a boundary (R98). -/
def svMarginal (r : Nat) : Bool := svBounds.any (fun b => decide (20 * (r - b) ≤ b) && decide (20 * (b - r) ≤ b))

/-- A reading as gen.strap_meas shows it: above 600 kΩ it is open (R97, R124). -/
def svShown (r : Nat) : Nat := if 60000 < r then 0xFFFF else r

/-- The fallback level of strap k, 0 for SV0 to SV5 (R101, R102). -/
def svFallback (k : Nat) : Nat := if k = 6 then 10 else 0

/-- What the measurements of a resistor strap decide: the level shown, marginal, unstable, the last reading. -/
structure SvDecision where
  level : Nat
  marginal : Bool
  unstable : Bool
  last : Nat

/-- The decision of strap k over its two or three measurements (R101). -/
def svDecide (k : Nat) (m : Nat × Nat × Nat) : SvDecision :=
  let a := svLevel m.1
  let b := svLevel m.2.1
  let c := svLevel m.2.2
  let two := svMarginal m.1 || svMarginal m.2.1
  if a = b then ⟨a, two, false, m.2.1⟩
  else
    let mg := two || svMarginal m.2.2
    if a = c then ⟨a, mg, false, m.2.2⟩
    else if b = c then ⟨b, mg, false, m.2.2⟩
    else ⟨svFallback k, mg, true, m.2.2⟩

/-- A level that is reserved for strap k (R106). -/
def svReserved (k level : Nat) : Bool := (k = 9 && 10 < level) || (k = 10 && 12 < level) || (k = 12 && 8 < level)

/-- The level in force: a reserved one falls back (R102, R106). -/
def svForce (k level : Nat) : Nat := if svReserved k level then svFallback k else level

/-- TotalVFs of an SV8 level (R105). -/
def totalVfs (lvl : Nat) : Nat := nth [0, 3, 7, 15, 31, 63, 127, 255, 511, 1023, 1535, 2047, 2559, 3071, 3583, 4095] lvl 0

/-! ### Latching (R99 step 7, R117, R124) -/

/-- Four-bit fields laid side by side, the first lowest. -/
def packNibbles (l : List Nat) : Nat := l.foldr (fun x a => x % 16 + 16 * a) 0

/-- Bits laid side by side, the first lowest. -/
def packBits (l : List Bool) : Nat := l.foldr (fun b a => b2n b + 2 * a) 0

/-- The strap registers and effective values latched at step 7 of sampling, the strapped address in force, its claim pending (R103, R261, log entry 23); F005, F006 and F007 are asserted where called for (R100 to R102, R117, R124, R698). Until the first confirmed re-read the now registers show what was decided, the fallback level of an unstable strap among it (log entry 111). -/
def Dev.latchStraps (d : Dev) (x : StrapSamples) : Dev :=
  let sd := (List.range 24).map (fun i => sdDecide (x.sd.getD i 0#32))
  let te := sdDecide x.testEn
  let sv := (List.range 16).map (fun k => svDecide k (x.sv.getD k (0, 0, 0)))
  let v (i : Nat) : Bool := ((sd.map (fun s => s.value)).getD i false)
  let sdw := packBits (sd.map (fun s => s.value))
  let lvl (k : Nat) : Nat := ((sv.map (fun s => s.level)).getD k 0)
  let uns (k : Nat) : Bool := ((sv.map (fun s => s.unstable)).getD k false)
  let flt := packBits (sd.map (fun s => s.floating))
  let width := sdw % 8
  let speed := sdw / 8 % 8
  let twin0 := sdw / 128 % 4
  let member := twin0 = 1 || twin0 = 2
  let twinAuto := member && v 13
  let twinFp7 := member && uns 4
  let sriov := v 6 && lvl 8 ≠ 0
  let sdBad := sd.any (fun s => s.floating || s.unstable) || te.floating || te.unstable
  let svRsvd := (List.range 16).any (fun k => !uns k && svReserved k (lvl k))
  let svBad := sv.any (fun s => s.unstable)
  let rows := packBits [decide (4 < width), decide (5 < speed), v 6 && lvl 8 = 0, twinAuto, twinFp7, decide (sdw / 2 ^ 20 ≠ 0), sdBad, svRsvd, svBad, v 14 != te.value]
  let disc := uns 0 || uns 1 || uns 2
  let addr := if disc then 0 else lvl 0 * 256 + lvl 1 * 16 + lvl 2
  let twin := if twinAuto || twinFp7 then 0 else twin0
  let node := addr + b2n (v 13) * 2 ^ 12 + twin * 2 ^ 13 + b2n (v 12) * 2 ^ 15 + (sdw / 2 ^ 16 % 16) * 2 ^ 16 +
    b2n (te.value && v 14) * 2 ^ 20 + b2n disc * 2 ^ 21 + b2n (v 10) * 2 ^ 22 + b2n (v 11) * 2 ^ 23 + b2n (v 9) * 2 ^ 24 + b2n (v 15) * 2 ^ 25
  let host := (if 4 < width then 0 else width) + (if 5 < speed then 0 else speed) * 16 + b2n sriov * 256 + (if sriov then totalVfs (lvl 8) else 0) * 2 ^ 16
  let group (g : Nat) : Nat := let k := 3 + g / 2; if uns k then 0 else lvl k / 4 ^ (g % 2) % 4
  let rate := (List.range 12).foldr (fun p a => group (p / 2) + 4 * a) 0
  let held := packBits ((List.range 6).map (fun g => uns (3 + g / 2)))
  let size := packNibbles [lvl 6, lvl 7, lvl 8, svForce 9 (lvl 9), svForce 10 (lvl 10), lvl 11, svForce 12 (lvl 12), lvl 15]
  let lo := packNibbles ((List.range 8).map lvl)
  let hi := packNibbles ((List.range 8).map (fun k => lvl (k + 8)))
  let put (d : Dev) (o n : Nat) : Dev := d.wr o (BitVec.ofNat 64 n)
  let d := put (put (put d R.genStrapSd sdw) R.genStrapSdNow (sdw + b2n te.value * 2 ^ 24)) R.genStrapSdFloat (flt + b2n te.floating * 2 ^ 24)
  let d := put (put (put (put d R.genStrapSvLo lo) R.genStrapSvHi hi) R.genStrapSvNowLo lo) R.genStrapSvNowHi hi
  let d := put d R.genStrapSvFlags (packBits (sv.map (fun s => s.marginal)) + 2 ^ 16 * packBits (sv.map (fun s => s.unstable)))
  let d := put (put (put (put (put d R.genStrapFault rows) R.genNodeCfg node) R.genHostCfg host) R.genRateCfg (rate + held * 2 ^ 24)) R.genSizeCfg size
  let d := (d.s F.netAddr_address (if v 13 then 0 else addr)).s F.netStatus_claim (b2n (!disc))
  let d := (List.zip (List.range 16) sv).foldl (fun (d : Dev) e =>
    put d (R.genStrapMeas e.1) (svShown e.2.last + svLevel e.2.last * 2 ^ 16 + b2n (svMarginal e.2.last) * 2 ^ 20)) d
  let d := { d with pit := { d.pit with sampled := true, prev := none, testEnS := te.value, testEnNow := te.value } }
  let d := d.whenD (sv.any (fun s => s.marginal)) (fun d => d.raiseLvl 5)
  let d := d.whenD (rows % 512 ≠ 0) (fun d => d.raiseLvl 6)
  d.whenD (512 ≤ rows) (fun d => d.raiseLvl 7)

/-- The strapped auto-restart and Ember mode reach Ember (R62, R63, R82): a mode that differs restarts the wall clock at its fresh-start value. -/
def Dev.strapsToEmber (d : Dev) : Dev :=
  let d := d.sb F.embPwr_autorestart (d.gb F.genNodeCfg_autorestart)
  let old := d.g F.embWctl_mode
  let new := d.g F.genNodeCfg_ember_bin
  if old = new then d
  else
    let d := ((d.unset R.embTmBin).unset R.embTmCalTime).unset R.embTmCalDate
    let d := ({ d with emb := { d.emb with wallPre := 0 } }).sb F.embTmEnd_wall_valid false
    let d := d.s F.embWctl_mode new
    d.log ⟨d.tally, .strap 9, 6, 0#16, 9#64, BitVec.ofNat 64 old, BitVec.ofNat 64 new, 0#64⟩

/-! ### Strap records (R114, R115, R565) -/

/-- A strap record: strap code, old, new and aux values. -/
def Dev.strapRec (d : Dev) (code old new aux : Nat) : Dev :=
  d.log ⟨d.tally, .strap code, 6, 0#16, BitVec.ofNat 64 code, BitVec.ofNat 64 old, BitVec.ofNat 64 new, BitVec.ofNat 64 aux⟩

/-- The sampled level of resistor strap k. -/
def Dev.svSampled (d : Dev) (k : Nat) : Nat :=
  (if k < 8 then d.g F.genStrapSvLo_level / 16 ^ k else d.g F.genStrapSvHi_level / 16 ^ (k - 8)) % 16

/-- The strap codes of the 40 straps of R115 with their sampled values. -/
def Dev.strapValues (d : Dev) : List (Nat × Nat) :=
  (List.range 24).map (fun i => (i, d.g F.genStrapSd_sd / 2 ^ i % 2)) ++ (List.range 16).map (fun k => (0x20 + k, d.svSampled k))

/-- The strap records of step 8: all at a cold pitch, the differences from the seal at a warm one (R115). -/
def Dev.strapRecords (d : Dev) (warm : Bool) : Dev :=
  let held (code : Nat) : Nat := match d.sto.cur with
    | some s => if code < 24 then s.sd.toNat / 2 ^ code % 2 else s.sv.toNat / 16 ^ (code - 0x20) % 16
    | none => 0
  d.each d.strapValues (fun d e => if warm then (if held e.1 = e.2 then d else d.strapRec e.1 (held e.1) e.2 0) else d.strapRec e.1 0 e.2 0)

/-! ### Re-reading and drift (R113, R114, R121) -/

/-- A confirmed change of a strap: record, LIC event 549, count, F004 and drift (R114, R121, R480, R698). -/
def Dev.confirmStrap (d : Dev) (code old new sampled : Nat) : Dev :=
  let d := ((d.strapRec code old new sampled).licPulse 549).bump F.genStrapDriftCnt_count
  d.whenD (new ≠ sampled) (fun d => d.raise 4)

/-- The value that a pass decides for digital strap i, by the rules of sampling (R100, R113). -/
def passSd (x : StrapPass) (i : Nat) : Bool := (sdDecide (x.sd.getD i 0#32)).value

/-- The value that a pass decides for TEST_EN (R100, R119). -/
def passTe (x : StrapPass) : Bool := (sdDecide x.testEn).value

/-- A digital strap of two consecutive passes. -/
def Dev.rereadSd (d : Dev) (x p : StrapPass) (i : Nat) : Dev :=
  let n := passSd x i
  let w := d.g F.genStrapSdNow_sd
  let now := bitOf w i
  if n = passSd p i && n != now then (d.s F.genStrapSdNow_sd (setBit w i n)).confirmStrap i (b2n now) (b2n n) (d.g F.genStrapSd_sd / 2 ^ i % 2) else d

/-- TEST_EN of two consecutive passes. -/
def Dev.rereadTe (d : Dev) (x p : StrapPass) : Dev :=
  let now := d.pit.testEnNow
  let n := passTe x
  if n = passTe p && n != now then
    let d := { d with pit := { d.pit with testEnNow := n } }
    (d.sb F.genStrapSdNow_test_en n).confirmStrap 0x30 (b2n now) (b2n n) (b2n d.pit.testEnS)
  else d

/-- The last confirmed level of resistor strap k. -/
def Dev.svNow (d : Dev) (k : Nat) : Nat :=
  (if k < 8 then d.g F.genStrapSvNowLo_level / 16 ^ k else d.g F.genStrapSvNowHi_level / 16 ^ (k - 8)) % 16

/-- The device with the last confirmed level of resistor strap k. -/
def Dev.setSvNow (d : Dev) (k n : Nat) : Dev :=
  let f := if k < 8 then F.genStrapSvNowLo_level else F.genStrapSvNowHi_level
  d.s f (d.g f - d.svNow k * 16 ^ (k % 8) + n * 16 ^ (k % 8))

/-- A resistor strap of two consecutive passes. -/
def Dev.rereadSv (d : Dev) (x p : StrapPass) (k : Nat) : Dev :=
  let n := svLevel (x.sv.getD k 0)
  let now := d.svNow k
  if n = svLevel (p.sv.getD k 0) && n ≠ now then (d.setSvNow k n).confirmStrap (0x20 + k) now n (d.svSampled k) else d

/-- The last measurement of resistor strap k (R124). -/
def Dev.measured (d : Dev) (k r : Nat) : Dev :=
  d.wr (R.genStrapMeas k) (BitVec.ofNat 64 (svShown r + svLevel r * 2 ^ 16 + b2n (svMarginal r) * 2 ^ 20))

/-- The drift bits follow the confirmed values (R114, R124). -/
def Dev.driftBits (d : Dev) : Dev :=
  let sv := packBits ((List.range 16).map (fun k => d.svNow k != d.svSampled k))
  (d.s F.genStrapDrift_sv sv).sb F.genStrapDrift_sd (d.g F.genStrapSdNow_sd != d.g F.genStrapSd_sd || d.pit.testEnNow != d.pit.testEnS)

/-- One pass of the re-read: what two consecutive passes agree on is confirmed where it differs from the last confirmed value (R113, R114, R119). -/
def Dev.reread (d : Dev) (x : StrapPass) : Dev :=
  if !d.pit.sampled then d
  else
    let prev := d.pit.prev
    let d := d.each (List.range 16) (fun d k => d.measured k (x.sv.getD k 0))
    let d := match prev with
      | none => d
      | some p => ((d.each (List.range 24) (fun d i => d.rereadSd x p i)).rereadTe x p).each (List.range 16) (fun d k => d.rereadSv x p k)
    let d := d.driftBits
    { d with pit := { d.pit with prev := some x } }

end Sys2Proof.Machine
end

