-- ==== Sys2Proof/Machine/Block.lean ====
section
/-! DEFINITION. What a block holds and what ends with it: the end of its work (R319, R592), its generation, its restored state (R145, R297, R511, R586), and the block re-pitch and Firewatch block reset (R144, R145, R153, R154, R526, R545). -/
namespace Sys2Proof.Machine

/-! ### Ends of work (R319, R592) -/

/-- The posted request packets of a list of queued items. -/
def postedIn (l : List QEnt) : Nat := (l.filter (queuedReq true)).length

/-- The non-posted request packets of a list of queued items. -/
def nonPostedIn (l : List QEnt) : List Pkt := l.filterMap (fun q => match q.item with
  | .tp k => if queuedReq false q then some k else none
  | .raw _ | .host _ | .hostW _ _ _ _ => none)

/-- The posted packets among received flits not yet delivered to the switch. -/
def Link.rxPosted (l : Link) : Nat :=
  ((List.range 8).filter postedVc).foldl (fun a v => a + ((l.rxBuf.lk [] v).filter (fun f : RxFlit => f.sop && !f.abort)).length + (if (l.rxOpen.find? v).isSome then 1 else 0)) 0

/-- What a fabric port's egress holds ends: posted requests are lost, non-posted ones answered GONE 1; gives how many were answered. -/
def Dev.fabricEnd (d : Dev) (p : Nat) : Dev × Nat :=
  let x := d.egress p
  let items := x.groups.flatMap (fun g => g.q)
  let np := nonPostedIn items
  let l := d.lnk p
  let lost := postedIn items + ((l.txq.flatMap (fun e => e.2)).filter (fun t : TxPkt => t.posted && !t.started)).length
  let d := (d.setEgress p Egress.empty).lostPosted (linkDomain p) lost
  (d.each np (fun d k => d.answer k 3 1), np.length)

/-- A port ends: its link goes down with a cause, its session is dropped, what it holds is lost or answered (R215, R239, R592). -/
def Dev.portEnd (d : Dev) (p cause : Nat) : Dev × Nat :=
  let d := d.phyStop p cause
  let r : Dev × Nat := if p < 8 then d.fabricEnd p else let e := d.localEnd (p - 8); (e.1.setEgress p Egress.empty, e.2.2)
  let rx := (r.1.lnk p).rxPosted
  let d := ((r.1.discardSession p).sb (F.crlLinkStatus_held p) false).lostPosted (linkDomain p) rx
  (d.setPort p { PortSt.empty with link := { PortSt.empty.link with done := (d.lnk p).done } }, r.2)

/-- What an instance engine slice holds ends (R319, R591, R592). -/
def Dev.sliceEnd (d : Dev) (k : Nat) : Dev × Nat :=
  let outs := d.trn.waits.filter (fun w => w.pkt.si / 512 = k)
  let ins := (d.trn.dwait ++ d.trn.fences).filter (fun w => w.pkt.di / 512 = k)
  let beh := d.trn.behind.filter (fun q => q.pkt.di / 512 = k)
  let here (w : DWait) : Bool := w.pkt.di / 512 = k
  let d := { d with trn := { d.trn with waits := d.trn.waits.filter (fun w => w.pkt.si / 512 ≠ k), dwait := d.trn.dwait.filter (fun w => !here w), fences := d.trn.fences.filter (fun w => !here w), behind := d.trn.behind.filter (fun q => q.pkt.di / 512 ≠ k) } }
  let lost := (outs.filter (fun w => w.pkt.posted)).length + (ins.filter (fun w => w.pkt.posted)).length + (beh.filter (fun q => q.pkt.posted)).length
  let nps := (ins.filter (fun w => !w.pkt.posted)).map (fun w => w.pkt) ++ (beh.filter (fun q => !q.pkt.posted)).map (fun q => q.pkt)
  let own := outs.filter (fun w => !w.pkt.posted)
  let d := (d.lostPosted (42 + k) lost).each nps (fun d j => d.answer j 3 1)
  (d.each own (fun d w => d.turnAway w.who w.pkt 3 1 0), nps.length + own.length)

/-- The function of a queued host TLP. -/
def hostFn (q : QEnt) : Option Nat := match q.item with
  | .host (.mwr f _ _ _) | .host (.mrd f _ _ _) | .host (.atomic f _ _ _ _) | .host (.msix f _ _ _) => some f
  | .hostW _ k _ _ => some k.di
  | .host _ | .tp _ | .raw _ => none

/-- What an inbound engine holds ends (R319, R592): its host-directed operations and the posted writes waiting for the host link. -/
def Dev.inboundEnd (d : Dev) (k : Nat) : Dev × Nat :=
  let x := d.egress 12
  let mine (q : QEnt) : Bool := match hostFn q with
    | some f => f % 4 = k
    | none => false
  let items := (x.groups.flatMap (fun g => g.q)).filter mine
  let wra := items.filterMap (fun q => match q.item with
    | .hostW _ j _ true => if j.posted then none else some j
    | _ => none)
  let lost := (items.filter (fun q => match q.item with
    | .host (.mwr _ _ _ _) | .host (.msix _ _ _ _) => true
    | .hostW _ j _ last => j.posted && last
    | _ => false)).length
  let ops := (d.hst.ops.keep (fun _ o => o.fn % 4 = k)).length
  let groups := (x.groups.map (fun g => { g with q := g.q.filter (fun q => !mine q) })).filter (fun g => !g.q.isEmpty)
  let d := (d.setEgress 12 { x with groups := groups }).lostPosted (53 + k) lost
  let d := d.each wra (fun d j => d.answer j 3 1)
  (d.endOps (fun o => o.fn % 4 = k) 3 1, ops + wra.length)

/-- What waits for the rate scheduler ends (R319). -/
def Dev.rateEnd (d : Dev) : Dev × Nat :=
  let ws := d.trn.waits.filter (fun w => !w.paid)
  let d := { d with trn := { d.trn with waits := d.trn.waits.filter (fun w => w.paid) } }
  let np := ws.filter (fun w => !w.pkt.posted)
  let d := d.lostPosted 62 (ws.filter (fun w => w.pkt.posted)).length
  (d.each np (fun d w => d.turnAway w.who w.pkt 3 1 0), np.length)

/-- The discovery and route engine starts again (R297): the tables in use and the address stay. -/
def Dev.netEnd (d : Dev) : Dev :=
  { d with net := { d.net with nbr := [], lsdb := [], seq := 0#32, incs := [], dirty := false, changed := false, run := none, shown := false, checked := false, kept := [], yields := 0 } }

/-- The work of a block ends; gives how many requests were answered GONE 1. -/
def Dev.workEnd (d : Dev) (blk cause : Nat) : Dev × Nat :=
  if 0x20 ≤ blk ∧ blk < 0x28 then d.sliceEnd (blk - 0x20)
  else if blk = 0x30 then (d.licReset, 0)
  else if blk = 0x31 then (d.netEnd, 0)
  else if 0x38 ≤ blk ∧ blk < 0x3C then d.inboundEnd (blk - 0x38)
  else if blk = 0x41 then d.rateEnd
  else (blockPorts blk).foldl (fun (a : Dev × Nat) p => let r := a.1.portEnd p cause; (r.1, a.2 + r.2)) (d, 0)

/-- An egress holds nothing. -/
def Egress.isEmpty (x : Egress) : Bool := x.net.isEmpty && x.rsp.isEmpty && x.groups.isEmpty

/-- Nothing is in flight at a port (R591). -/
def Dev.portIdle (d : Dev) (p : Nat) : Bool :=
  let l := d.lnk p
  (d.egress p).isEmpty && l.near.isEmpty && l.far.isEmpty && l.txq.all (fun e => e.2.isEmpty) && l.rxBuf.all (fun e => e.2.isEmpty) &&
  (p < 8 || (!d.trn.ltags.any (fun e => e.2.deliver && e.1 / 4096 = p - 8) &&
    !d.trn.dwait.any (fun w => w.res = .localTag (Fin.ofNat 4 (p - 8)) || w.res = .deliveryStream (Fin.ofNat 4 (p - 8)))))

/-- Nothing is in flight at a block (R591): its drain is at its end. -/
def Dev.blockEmpty (d : Dev) (blk : Nat) : Bool :=
  if 0x20 ≤ blk ∧ blk < 0x28 then
    let k := blk - 0x20
    !d.trn.waits.any (fun w => w.pkt.si / 512 = k) && !(d.trn.dwait ++ d.trn.fences).any (fun w => w.pkt.di / 512 = k) && !d.trn.behind.any (fun q => q.pkt.di / 512 = k)
  else if 0x38 ≤ blk ∧ blk < 0x3C then
    !d.hst.ops.any (fun e => e.2.fn % 4 = blk - 0x38) && !(d.egress 12).groups.any (fun g => g.q.any (fun q => (hostFn q).any (fun f => f % 4 = blk - 0x38)))
  else if blk = 0x41 then d.trn.waits.all (fun w => w.paid)
  else (blockPorts blk).all d.portIdle

/-- The generation of a block advances (R319, R590). -/
def Dev.nextGen (d : Dev) (blk : Nat) : Dev := { d with pd := { d.pd with gen := d.pd.gen.upd 0#16 blk (· + 1) } }

/-- The generations of a block and of the ports re-pitched with it advance (R144, R239). -/
def Dev.nextGens (d : Dev) (blk : Nat) : Dev := ((blockPorts blk).filter (· ≠ blk)).foldl Dev.nextGen (d.nextGen blk)

/-! ### Restored state (R145, R586) -/

/-- Registers of an offset range whose reset code says that a block re-pitch resets them (R20). -/
def Dev.unsetB (d : Dev) (lo hi : Nat) : Dev :=
  { d with regs := d.regs.filter (fun e : Nat × W64 => !(lo ≤ e.1 && e.1 < hi && (regAt e.1).any (fun r => r.codes.b))) }

/-- A port's state as a pitch leaves it; the two fields of its B registers without code B stay: why its link went down, and the NRZ FEC request (R20, R218). -/
def Dev.portRestore (d : Dev) (p : Nat) : Dev :=
  let last := d.g (F.crlPhyStatus_last_down p)
  let nrz := d.g (F.crlPhyCfg_nrz_fec p)
  let o := 0x100000 + 0x10000 * p
  let d := ((d.unsetB o (o + 0x10000)).s (F.crlPhyStatus_last_down p) last).s (F.crlPhyCfg_nrz_fec p) nrz
  d.setPort p { PortSt.empty with link := { PortSt.empty.link with done := (d.lnk p).done } }

/-- The net registers as a re-pitch of the engine leaves them; the two fields of its B registers without code B stay: the claim, and the address looked up (R20, R297, R301). -/
def Dev.netRestore (d : Dev) : Dev :=
  let claim := d.g F.netStatus_claim
  let dst := d.g F.netQuery_dst
  ((d.unsetB 0x200000 0x240000).s F.netStatus_claim claim).s F.netQuery_dst dst

/-- A block's state restored (R145 step 5, R586): flops of a slice are refilled from its tables and keep their values (log entry 20). The counts of win.lp_status are restored at no block's reset (log entry 123). -/
def Dev.restoreState (d : Dev) (blk : Nat) : Dev :=
  if blk = 0x31 then d.netRestore else d.each (blockPorts blk) Dev.portRestore

/-- The ports of a block train again. -/
def Dev.portsTrain (d : Dev) (blk : Nat) : Dev := d.each (blockPorts blk) Dev.trainStart

/-! ### Block re-pitch and Firewatch block reset (R145, R153, R154, R526, R545) -/

/-- The block with its neighbour entries leaves the fabric: its links are taken out of use at once (R591). -/
def Dev.blockCloses (d : Dev) (blk : Nat) : Dev := d.each (blockPorts blk) (fun d p => if p < 8 then d.nbrDown p else d)

/-- The reset under way of a block. -/
def Dev.resetOf (d : Dev) (blk : Nat) : Option BReset := d.pit.resets.find? (fun r => r.block = blk)

/-- The device with the reset of a block replaced, or gone. -/
def Dev.setReset (d : Dev) (blk : Nat) (r : Option BReset) : Dev :=
  let rest := d.pit.resets.filter (fun x => x.block ≠ blk)
  { d with pit := { d.pit with resets := match r with
    | some x => rest ++ [x]
    | none => rest } }

/-- The first check of R153 that a request fails. -/
def Dev.repitchCheck (d : Dev) (blk : Nat) : Option Nat :=
  if !d.complete then some 2
  else if d.gb F.pitRepitchStatus_busy || d.blockBusy blk then some 3
  else if d.pdSt (blockDomain blk) = .off then some 4
  else none

/-- The judgement of a write of pit.repitch (R144, R145, R153). -/
def Dev.judgeRepitch (d : Dev) (c : WCtx) : WOut :=
  let blk := c.data.toNat % 256
  let rs : Bool := 256 ≤ (c.data.toNat &&& c.mask)
  if !woOk c.be 0xFF || !blockLegal blk then .bad 0#64 rs false
  else match d.repitchCheck blk with
  | some r => .badEff 0#64 (fun d => (d.s F.pitRepitchStatus_result r).s F.pitRepitchStatus_last_block blk)
  | none => .ok 0#64 0#64 rs false (fun d =>
      let d := (d.sb F.pitRepitchStatus_busy true).s F.pitRepitchStatus_last_block blk
      (d.setReset blk (some ⟨blk, 3, false, false, false⟩)).blockCloses blk)

/-- A block reset that Firewatch asks for (R526, R545): merged into one that has not ended its step 4, repeated after one that has. -/
def Dev.fwtBlockReset (d : Dev) (blk : Nat) : Dev :=
  if !blockLegal blk || d.pdSt (blockDomain blk) = .off then d
  else match d.resetOf blk with
  | some r => if r.step = 3 then d else d.setReset blk (some { r with again := true })
  | none =>
    if (d.pdSt (blockDomain blk)).shut then d
    else (d.setReset blk (some ⟨blk, 3, true, false, false⟩)).blockCloses blk

/-- The origin of a block reset's records (R565). -/
def BReset.org (r : BReset) : Origin := if r.fwt then hwFwt else hwPit

/-- Step 4 of R145: remaining work ends, the generation advances, the reset is logged; `limit` where step 3 ran out of time (R154). -/
def Dev.resetBlock (d : Dev) (blk : Nat) (limit : Bool) : Dev := match d.resetOf blk with
  | none => d
  | some r =>
    if r.step ≠ 3 || (d.blockEmpty blk == limit) then d
    else
      let g := (d.generation blk).toNat
      let e := d.workEnd blk 3
      let d := (e.1.goneSynth e.2).nextGens blk
      let d := d.logEv r.org 4 g (d.generation blk).toNat blk
      (d.setReset blk (some { r with step := 5, limit := limit })).restoreState blk

/-- Step 6 of R145: the block reopens, what a gated LIC captured is applied, the end is logged (R511, R526). -/
def Dev.reopenBlock (d : Dev) (blk : Nat) : Dev := match d.resetOf blk with
  | none => d
  | some r =>
    if r.step ≠ 5 then d
    else
      let res := if r.fwt then 1 else if r.limit then 5 else 1
      let d := d.setReset blk none
      let d := if r.fwt then d else (d.sb F.pitRepitchStatus_busy false).s F.pitRepitchStatus_result res
      let d := (d.logEv r.org 9 0 res blk).portsTrain blk
      let d := d.whenD (blk = 0x30) Dev.applyCaptures
      if r.again then d.fwtBlockReset blk else d

end Sys2Proof.Machine
end

