-- ==== Sys2Proof/Machine/Power.lean ====
section
/-! DEFINITION. Power domains (17): the manager's requests, the drain to Off, power-up, automatic gating and wake, the coalesced records of lost posted writes. -/
namespace Sys2Proof.Machine

/-- The block of a domain that can drain or be gated: 0xFF where it has none of R144 (R583). -/
def domainBlock (k : Nat) : Nat :=
  if 15 ≤ k ∧ k < 23 then k - 15
  else if 27 ≤ k ∧ k < 31 then 8 + (k - 27)
  else if 34 ≤ k ∧ k < 42 then 0x10 + (k - 34)
  else if 43 ≤ k ∧ k < 50 then 0x20 + (k - 42)
  else if k = 50 then 0x30
  else if 53 ≤ k ∧ k < 57 then 0x38 + (k - 53)
  else if 57 ≤ k ∧ k < 61 then 0x3C + (k - 57)
  else if k = 61 then 0x40
  else 0xFF

/-- The domains whose row of R583 names the Manager. -/
def managerDomain (k : Nat) : Bool :=
  (15 ≤ k && k < 23) || (27 ≤ k && k < 31) || (34 ≤ k && k < 42) || (43 ≤ k && k < 50) || (54 ≤ k && k < 61) || k = 63

/-- A fabric or local link domain, and its port (R584). -/
def linkPort (k : Nat) : Option Nat := if 15 ≤ k ∧ k < 23 then some (k - 15) else if 27 ≤ k ∧ k < 31 then some (8 + (k - 27)) else none

/-- The record of a domain's change (R596): the codes before and after, cause, drain limit, requests answered GONE 1. -/
def Dev.pdRec (d : Dev) (k old new cause : Nat) (limit : Bool) (gone : Nat) : Dev :=
  d.logEv hwPit 32 old new (k + cause * 2 ^ 8 + b2n limit * 2 ^ 16 + gone % 2 ^ 32 * 2 ^ 32)

/-- The state code of a domain in the records of kind 32, Retain taken as On (R596). -/
def PdSt.recCode (x : PdSt) : Nat := match x with
  | .on | .retain => 2
  | .off | .hwOff | .autoOff | .bvcOff | .powerOn => 0
  | .closing => 4
  | .drained | .poweringOff => 5

/-- A domain is in Off, whoever put it there. -/
def PdSt.isOff (x : PdSt) : Bool := match x with
  | .off | .hwOff | .autoOff | .bvcOff => true
  | .on | .retain | .closing | .drained | .poweringOff | .powerOn => false

/-- A spill engine's ports are all Off, Absent or held down (R588). -/
def Dev.spillUnused (d : Dev) (k : Nat) : Bool := (blockPorts (domainBlock k)).all (fun p => (d.pdSt (linkDomain p)).isOff)

/-- An inbound engine has a tracker that is active, switching or aborted (R595). -/
def Dev.inboundTracks (d : Dev) (k : Nat) : Bool := d.iso.dl.any (fun e => e.2.inst % 4 = k - 53 && d.dlState e.1 ≠ 0)

/-- The first check of R595 that a request fails. -/
def Dev.pdCheck (d : Dev) (k op : Nat) : Option Nat :=
  if !managerDomain k then some 2
  else if 2 ≤ op then some 3
  else if op = 1 ∧ 34 ≤ k ∧ k < 42 ∧ (List.range 8).all (fun i => 34 + i = k || (d.pdSt (34 + i)).isOff) then some 4
  else if op = 1 ∧ ((57 ≤ k ∧ k < 61 ∧ !d.spillUnused k) ∨ (54 ≤ k ∧ k < 57 ∧ d.inboundTracks k)) then some 5
  else if k = 63 ∧ !d.testEn then some 6
  else if op = 0 ∧ (linkPort k).any d.portHeld then some 7
  else if op = 1 ∧ k = 22 ∧ d.twinMode ≠ 0 then some 8
  else if d.gb F.pitPdStatus_busy ∨ d.gb F.pitRepitchStatus_busy then some 9
  else if !d.complete then some 10
  else none

/-- A request's result and domain in pit.pd_status (R595, R604). -/
def Dev.pdResult (d : Dev) (r k : Nat) : Dev := (d.s F.pitPdStatus_result r).s F.pitPdStatus_domain k

/-- A request in progress reaches a phase (R604). -/
def Dev.pdPhase (d : Dev) (ph k : Nat) : Dev := (((d.pdResult 0 k).sb F.pitPdStatus_busy true).s F.pitPdStatus_phase ph)

/-- A request ends with a result (R595). -/
def Dev.pdEnds (d : Dev) (r : Nat) : Dev := ((d.sb F.pitPdStatus_busy false).s F.pitPdStatus_phase 0).s F.pitPdStatus_result r

/-- The drain begins (R590 steps 1 and 2, R591): Closing is recorded, a fabric port's neighbour goes Down, a slice's lines are sent. -/
def Dev.pdClose (d : Dev) (k : Nat) : Dev :=
  let d := d.touch k k
  let d := if 43 ≤ k ∧ k < 50 then d.flushLines (fun l => sliceDomain l.inst = k) else d
  let d := ((d.setPd k .closing).pdPhase 1 k).pdRec k 2 4 0 false 0
  match linkPort k with
  | some p => if p < 8 then (d.nbrDown p).lsaDue else d
  | none => d

/-- Power-up begins (R594): a port's spill engine comes first (R588). -/
def Dev.pdPowerUp (d : Dev) (k : Nat) : Dev :=
  let d : Dev := match linkPort k with
    | some p =>
      let e := 57 + p / 3
      if d.pdSt e = PdSt.autoOff then (d.setPd e .on).nextGen (domainBlock e) else d
    | none => d
  (d.setPd k .powerOn).pdPhase 4 k

/-- The judgement of a write of pit.pd_req (R590, R594, R595). -/
def Dev.judgePdReq (d : Dev) (c : WCtx) : WOut :=
  let v := c.data.toNat &&& c.mask
  let k := v % 64
  let op := v / 256 % 4
  let rs : Bool := v &&& 0x33F ≠ v
  if !woOk c.be 0x33F then .bad 0#64 rs false
  else match d.pdCheck k op with
  | some r => .badEff 0#64 (fun d => d.pdResult r k)
  | none =>
    let st := d.pdSt k
    if (op = 1 ∧ st.isOff) ∨ (op = 0 ∧ st ≠ .off) then .ok 0#64 0#64 rs false (fun d => d.pdResult 1 k)
    else if op = 1 then .ok 0#64 0#64 rs false (fun d => d.pdClose k)
    else .ok 0#64 0#64 rs false (fun d => d.pdPowerUp k)

/-- The domain of the request in progress. -/
def Dev.pdNow (d : Dev) : Nat := d.g F.pitPdStatus_domain

/-- The phase of the request in progress. -/
def Dev.pdPh (d : Dev) : Nat := if d.gb F.pitPdStatus_busy then d.g F.pitPdStatus_phase else 0

/-- Drained is reached (R590 step 4, R592): remaining work ends, the generation advances, the record is logged. -/
def Dev.pdDrained (d : Dev) (limit : Bool) : Dev :=
  let k := d.pdNow
  if d.pdPh ≠ 1 || (d.blockEmpty (domainBlock k) == limit) then d
  else
    let e := d.workEnd (domainBlock k) 4
    let d := ((e.1.goneSynth e.2).nextGen (domainBlock k)).setPd k .drained
    let d := (d.pdRec k 4 5 0 limit e.2).s F.pitPdStatus_phase 2
    d.whenD limit (fun d => d.raise 256)

/-- Step 5 of the drain is under way (R590, R601). -/
def Dev.pdLeaving (d : Dev) : Dev := if d.pdPh = 2 then (d.setPd d.pdNow .poweringOff).s F.pitPdStatus_phase 3 else d

/-- A bit of pit.pd_manual. -/
def Dev.setManual (d : Dev) (k : Nat) (b : Bool) : Dev := d.wr R.pitPdManual (BitVec.ofNat 64 (setBit (d.rd R.pitPdManual).toNat k b))

/-- A spill engine whose ports are all Off goes Off with them (R588). -/
def Dev.spillAuto (d : Dev) (p : Nat) : Dev :=
  let e := 57 + p / 3
  if d.spillUnused e && (d.pdSt e = .on || d.pdSt e = .retain) then ((d.setPd e .autoOff).nextGen (domainBlock e)).clampDom e else d

/-- The domain is Off (R590 step 5, R584, R588): a port's PHY domain follows its link domain. -/
def Dev.pdOffDone (d : Dev) : Dev :=
  let k := d.pdNow
  if d.pdPh ≠ 2 && d.pdPh ≠ 3 then d
  else
    let d := (((d.clampDom k).setPd k .off).setManual k true).pdRec k 5 0 0 false 0
    let d := match linkPort k with
      | some p => ((((d.clampDom (phyDomain p)).setPd (phyDomain p) .off).setManual (phyDomain p) true).pdRec (phyDomain p) 2 0 0 false 0).spillAuto p
      | none => d
    d.pdEnds 1

/-- The domain is On again (R584, R586, R594): restored, one generation on, reopened; a port trains. -/
def Dev.pdOnDone (d : Dev) : Dev :=
  let k := d.pdNow
  if d.pdPh ≠ 4 then d
  else
    let d := match linkPort k with
      | some p => ((d.setPd (phyDomain p) .on).setManual (phyDomain p) false).pdRec (phyDomain p) 0 2 0 false 0
      | none => d
    let blk := domainBlock k
    let d := ((d.nextGen blk).restoreState blk).setPd k .on
    let d := ((d.setManual k false).pdRec k 0 2 0 false 0).pdEnds 1
    d.whenD (linkPort k).isSome (fun d => d.portsTrain blk)

/-- Power-good does not come: the domain stays Off (R603); no rule gives the request's result (log entry 4). -/
def Dev.pdTimeout (d : Dev) : Dev :=
  if d.pdPh ≠ 4 then d
  else
    let r := d.takeFree
    ((r.2.setPd r.2.pdNow .off).pdEnds (r.1.toNat % 16)).raise 258

/-! ### Automatic gating (R585, R587, R589) -/

/-- The domains that gate themselves under pit.pd_auto (R604). -/
def autoDomain (k : Nat) : Bool := (34 ≤ k && k < 42) || (43 ≤ k && k < 50) || (53 ≤ k && k < 62)

/-- Nothing waits in the switch. -/
def Dev.switchIdle (d : Dev) : Bool := d.iso.eg.all (fun e => e.2.isEmpty) && d.iso.turn.isEmpty

/-- A spill engine holds no flit of its ports. -/
def Dev.spillIdle (d : Dev) (k : Nat) : Bool := (blockPorts (domainBlock k)).all (fun p => (d.lnk p).far.isEmpty && (d.lnk p).landedAll = 0)

/-- A domain is idle (R587). -/
def Dev.pdIdle (d : Dev) (k : Nat) : Bool :=
  !d.blockBusy (domainBlock k) &&
  (if k < 42 then d.switchIdle
   else if k < 50 then d.blockEmpty (domainBlock k) && !d.win.lines.any (fun l => sliceDomain l.inst = k) && !d.ins.flr.any (fun e => sliceDomain e.1 = k)
   else if k < 57 then d.blockEmpty (domainBlock k) && !d.iso.dl.any (fun e => e.2.inst % 4 = k - 53 && (d.dlState e.1 = 1 || d.dlState e.1 = 2))
   else if k < 61 then d.spillIdle k
   else true)

/-- An idle domain enters Retain (R587, R589); up to step 8 a pitch is at work in every block (log entry 134). -/
def Dev.retainEntry (d : Dev) (k : Nat) : Dev :=
  if autoDomain k && d.pdSt k = .on && (d.rd R.pitPdAuto).getLsbD k && d.pdIdle k && d.pins.main && d.pit.logOpen
  then ((d.clampDom k).setPd k .retain).bump (F.pitPdRetainCnt_count k)
  else d

/-- A retained domain returns to On; where the check of its flops fails its state is restored and F259 raised (R585). The LIC wakes by its own steps (R499). -/
def Dev.retainWake (d : Dev) (k : Nat) (crcOk : Bool) : Dev :=
  if d.pdSt k ≠ .retain || k = 50 then d
  else
    let d := d.setPd k .on
    if crcOk then d else (d.restoreState (domainBlock k)).raise 259

/-! ### Lost posted writes (R565, R593) -/

/-- The origin of the records of a domain's lost posted writes: its owning block (R555, R565). -/
def lostOrigin (k : Nat) : Origin :=
  if 2 ≤ k ∧ k < 7 then .hardware 0x0A 0
  else if 7 ≤ k ∧ k < 15 then .hardware 7 (k - 7)
  else if 15 ≤ k ∧ k < 23 then .hardware 7 (k - 15)
  else if 23 ≤ k ∧ k < 27 then .hardware 7 (8 + (k - 23))
  else if 27 ≤ k ∧ k < 31 then .hardware 7 (8 + (k - 27))
  else if 31 ≤ k ∧ k < 34 then .hardware 6 0
  else if k = 50 then .hardware 5 0
  else if k = 51 then hwClg
  else if k = 52 then hwNet
  else if 57 ≤ k ∧ k < 61 then .hardware 7 0
  else if (42 ≤ k ∧ k < 50) ∨ (53 ≤ k ∧ k < 57) ∨ k = 61 ∨ k = 62 then .hardware 0x0C 0
  else hwPit

/-- The coalesced record of a domain's lost posted writes (R565, R593). -/
def Dev.lostRecord (d : Dev) (k : Nat) : Dev :=
  let n := d.pd.lost.lk 0 k
  if n = 0 then d
  else (({ d with pd := { d.pd with lost := d.pd.lost.del k } }).logEv (lostOrigin k) 14 0 0 (k + n % 2 ^ 32 * 2 ^ 32)).raise 257

end Sys2Proof.Machine
end

