-- ==== Sys2Proof/Machine/Ember.lean ====
section
/-! DEFINITION. Ember (02): rails and crystal, the tally and the wall clock, its setting and daylight saving, the freeze, trim, the hold monitor, PWRON_N and the periodic wake. -/
namespace Sys2Proof.Machine

/-! ### Rails and crystal (R55, R58, R59, R76, R78, R82) -/

/-- A rail of Ember is present. -/
def Dev.embAlive (d : Dev) : Bool := d.emb.vmain || d.emb.vbat

/-- The clocks count: a crystal, or substitute cycles (R58, R59). -/
def Dev.embCounts (d : Dev) : Bool := d.embAlive && (d.emb.xtal || d.emb.subst)

/-- A trigger of PWRON_N (R82): a pulse where the Watch domain is without power; counted with every pulse, and while a pulse runs. -/
def Dev.pwrTrigger (d : Dev) : Dev :=
  if !d.pins.main then (d.bump F.embPwr_pwron_pulses).sb F.embPwr_pwron_active true
  else if d.gb F.embPwr_pwron_active then d.bump F.embPwr_pwron_pulses
  else d

/-- Ember runs from VBAT (R76, R78). -/
def Dev.toBattery (d : Dev) : Dev :=
  let first := d.g F.embSwCount_count = 0
  let d := { d with emb := { d.emb with onVbat := true, swSince := true } }
  let d := if first then d.wr R.embSwFirstBat d.tally else d
  (d.bump F.embSwCount_count).sb F.embStatus_on_battery true

/-- Ember runs from VMAIN_EMB again (R76, R78, R82); a return is a switch that the next summary covers (log entry 106). -/
def Dev.toMain (d : Dev) : Dev :=
  let d := { d with emb := { d.emb with onVbat := false, swSince := true } }
  let d := (d.wr R.embSwLastMain d.tally).sb F.embStatus_on_battery false
  d.whenD (d.gb F.embPwr_autorestart) Dev.pwrTrigger

/-- VMAIN_EMB falls below the switch level while VBAT is present (R76). -/
def Dev.switchToBat (d : Dev) : Dev :=
  if !d.embAlive || d.emb.onVbat then d else ({ d with emb := { d.emb with vbat := true } }).toBattery

/-- VMAIN_EMB has held above the switch level (R76). -/
def Dev.returnToMain (d : Dev) : Dev :=
  if !d.embAlive || !d.emb.onVbat then d else ({ d with emb := { d.emb with vmain := true } }).toMain

/-- A rail becomes absent; Ember moves where it ran from that rail and the other is present (R76). -/
def Dev.railAbsent (d : Dev) (r : Rail) : Dev := match r with
  | .vmain =>
    let d := { d with emb := { d.emb with vmain := false } }
    if !d.emb.onVbat && d.emb.vbat then d.toBattery else d
  | .vbat =>
    let d := { d with emb := { d.emb with vbat := false } }
    if d.emb.onVbat && d.emb.vmain then d.toMain else d

/-- A rail returns after both were absent: every field takes its fresh-start value, and HOLD_OK is low (R55, R60, R663). -/
def Dev.freshStart (d : Dev) (r : Rail) : Dev :=
  if d.embAlive then d
  else
    let bat := r = .vbat
    let d := { d with regs := d.regs.filter (fun e : Nat × W64 => !(0x20000 ≤ e.1 && e.1 < 0x30000)) }
    let d := { d with emb := ⟨0, 0, 0, 0, 0, false, 0#10, none, [], bat, !bat, bat, true, false, false, false⟩ }
    let d := { d with pins := { d.pins with holdOk := false } }
    let d := if d.pins.main then d else { d with sto := { d.sto with held := false, live := false } }
    d.sb F.embStatus_on_battery bat

/-- The substitute bits of emb.status (R58). -/
def Dev.substBits (d : Dev) : Dev :=
  (d.sb F.embStatus_xtal_sub d.emb.subst).sb F.embStatus_xtal_coarse (d.emb.subst && !d.pins.reff)

/-- The Watch domain finds the crystal lost: F002, and substitute cycles (R34, R58). A crystal lost again before counting returned to it stays lost. -/
def Dev.crystalLost (d : Dev) : Dev :=
  if !d.pins.main then d
  else
    let was := d.emb.subst
    let d := { d with emb := { d.emb with xtal := false, subst := true, goodPend := false, winOk := false } }
    d.whenD (!was) (fun d => d.substBits.raiseLvl 2)

/-- The crystal is good again: counting returns to it at the next second boundary; without substitute cycles at once (R58, R59). -/
def Dev.crystalGood (d : Dev) : Dev := { d with emb := { d.emb with xtal := true, goodPend := d.emb.subst } }

/-- Counting returns to the crystal (R58). -/
def Dev.crystalBack (d : Dev) : Dev :=
  if d.emb.subst && d.emb.goodPend then
    (({ d with emb := { d.emb with subst := false, goodPend := false } }).substBits).clearSrc 2
  else d

/-- No crystal edge for 1 ms (R59): no crystal cycle is counted until the crystal is good again. -/
def Dev.oscStop (d : Dev) : Dev :=
  if !d.embAlive then d
  else { d.sb F.embStatus_osc_stop true with emb := { d.emb with xtal := false, goodPend := false, winOk := false } }

/-- A summary of the switch-overs since the previous one (R78, R565). -/
def Dev.switchRec (d : Dev) : Dev :=
  ({ d with emb := { d.emb with swSince := false } }).logEv .ember 10 (d.rd R.embSwFirstBat).toNat (d.rd R.embSwLastMain).toNat (d.g F.embSwCount_count)

/-- At most once a second, the switch-overs are logged (R78). -/
def Dev.switchSummary (d : Dev) : Dev := if d.emb.swSince && d.pins.main then d.switchRec else d

/-! ### The calendar (R64, R65, R69) -/

/-- A calendar time: second, minute, hour, day of week, date, month, year. -/
structure Cal where
  sec : Nat
  min : Nat
  hour : Nat
  dow : Nat
  date : Nat
  month : Nat
  year : Nat
  deriving DecidableEq, Repr

/-- Days in a month (R65). -/
def daysInMonth (m y : Nat) : Nat :=
  if m = 2 then (if y % 4 = 0 ∧ y ≠ 100 then 29 else 28) else if m = 4 ∨ m = 6 ∨ m = 9 ∨ m = 11 then 30 else 31

/-- The next date (R65). -/
def Cal.nextDate (c : Cal) : Cal :=
  let c := { c with dow := c.dow % 7 + 1 }
  if c.date + 1 ≤ daysInMonth c.month c.year then { c with date := c.date + 1 }
  else if c.month + 1 ≤ 12 then { c with date := 1, month := c.month + 1 }
  else { c with date := 1, month := 1, year := (c.year + 1) % 200 }

/-- The date before (R64, R84). -/
def Cal.prevDate (c : Cal) : Cal :=
  let c := { c with dow := (c.dow + 5) % 7 + 1 }
  if 2 ≤ c.date then { c with date := c.date - 1 }
  else if 2 ≤ c.month then { c with date := daysInMonth (c.month - 1) c.year, month := c.month - 1 }
  else { c with date := 31, month := 12, year := (c.year + 199) % 200 }

/-- One hour later, minute and second kept (R69). -/
def Cal.addHour (c : Cal) : Cal := if c.hour + 1 < 24 then { c with hour := c.hour + 1 } else ({ c with hour := 0 } : Cal).nextDate

/-- One hour earlier (R69). -/
def Cal.subHour (c : Cal) : Cal := if 1 ≤ c.hour then { c with hour := c.hour - 1 } else ({ c with hour := 23 } : Cal).prevDate

/-- The second boundary of the calendar (R65). -/
def Cal.tick (c : Cal) : Cal :=
  if c.sec + 1 < 60 then { c with sec := c.sec + 1 }
  else if c.min + 1 < 60 then { c with sec := 0, min := c.min + 1 }
  else ({ c with sec := 0, min := 0 } : Cal).addHour

/-- The calendar the registers hold. -/
def Dev.cal (d : Dev) : Cal :=
  ⟨d.g F.embTmCalTime_sec, d.g F.embTmCalTime_min, d.g F.embTmCalTime_hour, d.g F.embTmCalTime_dow, d.g F.embTmCalDate_date, d.g F.embTmCalDate_month, d.g F.embTmCalDate_year⟩

/-- The calendar in its registers. -/
def Dev.setCal (d : Dev) (c : Cal) : Dev :=
  (d.wr R.embTmCalTime (BitVec.ofNat 64 (c.sec + c.min * 2 ^ 8 + c.hour * 2 ^ 16 + c.dow * 2 ^ 24))).wr R.embTmCalDate
    (BitVec.ofNat 64 (c.date + c.month * 2 ^ 8 + c.year * 2 ^ 16))

/-- Binary mode (R62). -/
def Dev.binMode (d : Dev) : Bool := d.gb F.embWctl_mode

/-- The wall clock as a daylight-saving record holds it (R564). -/
def Dev.wallWord (d : Dev) : W64 :=
  if d.binMode then d.rd R.embTmBin else BitVec.ofNat 64 ((d.rd R.embTmCalTime).toNat % 2 ^ 32 + (d.rd R.embTmCalDate).toNat % 2 ^ 32 * 2 ^ 32)

/-- The wall clock advances by one second (R65). -/
def Dev.wallTick (d : Dev) : Dev :=
  if d.binMode then d.s F.embTmBin_seconds (d.g F.embTmBin_seconds + 1) else d.setCal d.cal.tick

/-- The record of a daylight-saving change (R69, R563, R564); its aux field holds the new wall value (log entry 107). -/
def Dev.dstRec (d : Dev) (flags : Nat) (old new : W64) : Dev :=
  let off := if d.binMode then R.embTmBin else R.embTmCalTime
  d.log ⟨d.tally, .manager, 0, BitVec.ofNat 16 (8 + flags), BitVec.ofNat 64 (off + 2 ^ 40 + 15 * 2 ^ 44), old, new, new⟩

/-- A daylight-saving command takes effect (R69, R70, R85); `old` is the wall value before it and before the increment of its boundary, as the section's example has it. -/
def Dev.dstApply (d : Dev) (add : Bool) (old : W64) : Dev :=
  let d := (d.sb F.embDst_pending false).s F.embDst_cmd 0
  let n := d.g F.embTmBin_seconds
  if d.binMode && !add && n < 3600 then d.dstRec 1 old old
  else
    let d := if d.binMode then d.s F.embTmBin_seconds (if add then n + 3600 else n - 3600) else d.setCal (if add then d.cal.addHour else d.cal.subHour)
    (d.sb F.embDst_dst_on add).dstRec 0 old d.wallWord

/-- The wall clock is halted (R67). -/
def Dev.halted (d : Dev) : Bool := d.gb F.embWctl_halt

/-- The second boundary of the wall clock, with a pending daylight-saving command (R58, R65, R69); while the clock is halted there is none, and a command already pending stays so (log entry 108). -/
def Dev.wallBoundary (d : Dev) : Dev :=
  if d.halted then d
  else
    let add := d.g F.embDst_cmd = 1
    let old := d.wallWord
    ((d.wallTick).whenD (d.gb F.embDst_pending) (fun d => d.dstApply add old)).crystalBack

/-- The second boundary of the tally (R57, R60); counting returns to the crystal at the first boundary of either clock (R58, log entry 105). -/
def Dev.tallyBoundary (d : Dev) : Dev := ({ d with emb := { d.emb with tallySec := (d.emb.tallySec + 1) % 2 ^ 48 } }).crystalBack

/-- A prescaler passes from 32,767 (R57, R65). -/
def Dev.secondBoundary (d : Dev) (c : Clock) : Dev :=
  if !d.embCounts then d
  else
    let t := c = .tally || c = .both
    let w := c = .wall || c = .both
    let d := if t then ({ d with emb := { d.emb with tallyPre := 0 } }).tallyBoundary else d
    if w && !d.halted then ({ d with emb := { d.emb with wallPre := 0 } }).wallBoundary else d

/-! ### Cycles (R57, R74) -/

/-- A nine-bit number reversed (R74). -/
def bitrev9 (k : Nat) : Nat := (List.range 9).foldl (fun a i => a + (if bitOf k i then 2 ^ (8 - i) else 0)) 0

/-- Pulses that a raw cycle gives: a correction falls on the first cycle of a slot of 2,048 (R57, R74). -/
def Dev.pulses (d : Dev) : Nat :=
  let n := signedOf 10 d.emb.trimNow.toNat
  let k := d.emb.winPos / 2048 % 512
  if d.emb.subst || d.emb.winPos % 2048 ≠ 0 || !decide (bitrev9 k < n.natAbs) then 1 else if 0 < n then 2 else 0

/-- The end of a trim window: the next one uses the trim written (R74). -/
def Dev.windowRoll (d : Dev) : Dev :=
  { d with emb := { d.emb with winPos := 0, winOk := d.emb.xtal && !d.emb.subst && d.pins.main && d.pins.reff, trimNow := BitVec.ofNat 10 (d.g F.embTrim_trim) } }

/-- A trim window ends with the offset measured in it, which replaces the last result where the window counts (R74, R75). -/
def Dev.windowEnd (d : Dev) (offset : Nat) : Dev :=
  (d.whenD (d.emb.winOk && d.pins.main && d.pins.reff && d.emb.xtal) (fun d => (d.s F.embXtalMeas_offset offset).sb F.embXtalMeas_valid true)).windowRoll

/-- The end of a trim window by its count of cycles: what it measured no rule states (log entry 4). -/
def Dev.windowFull (d : Dev) : Dev := let r := d.takeFree; r.2.windowEnd (r.1.toNat % 65536)

/-- A prescaler advanced: its new value, and whether it passed from 32,767 (R57). -/
def prescale (p n : Nat) : Nat × Bool := ((p + n) % 32768, decide (32768 ≤ p + n))

/-- One raw cycle (R57, R74). -/
def Dev.rawCycle (d : Dev) : Dev :=
  if !d.embCounts then d
  else
    let n := d.pulses
    let t := prescale d.emb.tallyPre n
    let w := if d.halted then (0, false) else prescale d.emb.wallPre n
    let pos := d.emb.winPos + 1
    let d := { d with emb := { d.emb with tallyPre := t.1, wallPre := w.1, winPos := pos } }
    let d := (d.whenD t.2 Dev.tallyBoundary).whenD w.2 Dev.wallBoundary
    d.whenD (2 ^ 20 ≤ pos) Dev.windowFull

/-- One microsecond of Ember: 32,768 cycles fall in a second (log entry 1). -/
def Dev.emberTick (d : Dev) : Dev :=
  let c := d.emb.cyc + 32768
  if c < 1000000 then { d with emb := { d.emb with cyc := c } } else ({ d with emb := { d.emb with cyc := c - 1000000 } }).rawCycle

/-- The end of a trim window with the offset measured in it (R74, R75). -/
def Dev.trimWindow (d : Dev) (offset : Nat) : Dev :=
  if !d.embCounts then d else d.windowEnd offset

/-- The judgement of a write of emb.trim (R74, R87). -/
def Dev.judgeTrim (d : Dev) (c : WCtx) : WOut := match d.judgeTable c with
  | .ok old new rs ex eff => if fieldOf new 9 0 = 512 then .bad old rs ex else .ok old new rs ex eff
  | o => o

/-! ### Setting the wall clock (R66 to R68) -/

/-- Offset and width of a writable wall-clock register. -/
def wallOff : WallReg → Nat
  | .calTime => R.embTmCalTime
  | .calDate => R.embTmCalDate
  | .bin => R.embTmBin
@[inherit_doc wallOff] def wallWide : WallReg → Bool
  | .bin => true
  | .calTime | .calDate => false

/-- A party's freeze shadow: 0 the host, 1 + n local port n (R71). -/
def readerOf (p : Party) : Nat := match p with
  | .pf | .vf _ => 0
  | .lp n _ => 1 + n.val

/-- A freeze ends. -/
def Dev.endFreeze (d : Dev) (r : Nat) : Dev := { d with emb := { d.emb with frz := d.emb.frz.del r } }

/-- The pending wall-clock write takes effect (R66 to R68). -/
def Dev.wallApply (d : Dev) (boundary : Bool) : Dev := match d.emb.wall with
  | none => d
  | some w =>
    let d := { d with emb := { d.emb with wall := none } }
    let d := d.whenD boundary (fun d => d.secondBoundary .wall)
    let c : WCtx := ⟨.manager, 0, 0, wallOff w.reg, wallWide w.reg, w.be.toNat, w.data⟩
    let old := d.rd (wallOff w.reg)
    let valid := (if wallWide w.reg then 2 ^ 48 - 1 else if w.reg = WallReg.calTime then 0x71F3F3F else 0xFF0F1F)
    let x := w.data.toNat &&& c.mask
    let new := BitVec.ofNat 64 ((x &&& valid) ||| (old.toNat &&& ((2 ^ 64 - 1) ^^^ c.mask)))
    let d := (d.wr (wallOff w.reg) new).sb F.embTmEnd_wall_valid true
    let d := if d.gb F.embWctl_sec_reset && w.reg ≠ WallReg.calDate then { d with emb := { d.emb with wallPre := 0 } } else d
    d.log (d.recOf c (4 * b2n (decide (x &&& valid ≠ x)) + 1024 * b2n (decide (old = new))) old new)

/-- The judgement of a write of a wall-clock register (R66, R67): accepted, it crosses to Ember and is logged when it takes effect; a second write applies the first at once, and one still crossing at a pitch start or a loss of main power is dropped (log entry 109). -/
def Dev.judgeWall (d : Dev) (reg : WallReg) (be : BitVec 8) (c : WCtx) : WOut := match regAt c.off with
  | none => .unmapped
  | some r =>
    match d.judgeRow r c (d.rd c.off) (fun v d => d.wr c.off v) with
    | .ok old new rs ex _ =>
      let date := fieldOf new 4 0
      let badDate := reg = WallReg.calDate && (daysInMonth (fieldOf new 11 8) (fieldOf new 23 16) < date)
      if (decide (reg = WallReg.bin)) != d.binMode || badDate then .bad old rs ex
      else .ok old new rs true (fun d =>
        if !d.swRoom 1 then d.holdRefuse
        else { d.wallApply false with emb := { (d.wallApply false).emb with wall := some ⟨reg, be, c.data⟩ } })
    | o => o

/-- The judgement of a write of emb.wctl (R67, R91). -/
def Dev.judgeWctl (d : Dev) (c : WCtx) : WOut := match d.judgeTable c with
  | .ok old new rs ex _ => .ok old new rs ex (fun d =>
      let d := (d.wr c.off new).sb F.embTmEnd_halted (fieldOf new 0 0 = 1)
      if fieldOf new 0 0 = 1 then { d with emb := { d.emb with wallPre := 0 } } else d)
  | o => o

/-- The judgement of a write of emb.dst (R69, R70, R85): its record is made when it takes effect. -/
def Dev.judgeDst (d : Dev) (c : WCtx) : WOut :=
  let x := c.data.toNat &&& c.mask
  let cur := setField (d.rd R.embDst) 1 0 0
  let cmd := x % 4
  let rs : Bool := x / 4 % 64 ≠ 0 || 1024 ≤ x
  if !woOk c.be 3 || cmd = 3 || (cmd ≠ 0 && d.gb F.embDst_pending) then .bad cur rs false
  else if cmd = 0 then .ok cur cur rs false id
  else .ok cur cur rs true (fun d =>
    if !d.swRoom 1 then d.holdRefuse
    else if d.halted then d.dstApply (cmd = 1) d.wallWord
    else (d.s F.embDst_cmd cmd).sb F.embDst_pending true)

/-! ### Reading the time (R71 to R73) -/

/-- The eight words of the time block (R60, R62, R91). -/
def Dev.timeBlock (d : Dev) : List W32 :=
  let t := d.tally.toNat
  let bin := if d.binMode then (d.rd R.embTmBin).toNat else 0
  let w (n : Nat) : W32 := BitVec.ofNat 32 n
  let cal (o : Nat) : Nat := if d.binMode then 0 else (d.rd o).toNat
  [w t, w (t / 2 ^ 32), w bin, w (bin / 2 ^ 32), w (d.emb.wallPre * 2), w (cal R.embTmCalTime), w (cal R.embTmCalDate),
   w (d.g F.embTmEnd_wall_valid + 2 * b2n d.halted + 4 * b2n d.binMode)]

/-- A snapshot is taken for a reader. -/
def Dev.capture8 (d : Dev) (r : Nat) (byLo : Bool) : Dev := { d with emb := { d.emb with frz := d.emb.frz.ins r ⟨d.timeBlock, byLo⟩ } }

/-- A snapshot is at hand for a reader: the active one, or a new one (R71). -/
def Dev.frozen (d : Dev) (r : Nat) (byLo : Bool) : Dev := if (d.emb.frz.find? r).isSome && !byLo then d else d.capture8 r byLo

/-- Word i of a reader's snapshot. -/
def Dev.frzWord (d : Dev) (r i : Nat) : W32 := match d.emb.frz.find? r with
  | some f => nth f.snap i 0#32
  | none => 0#32

/-- A read of a register of the time block by a reader: what it returns, and its effect on the freeze (R71 to R73). -/
def Dev.timeRead (d : Dev) (r i : Nat) : Dev × W64 :=
  let d := d.frozen r (i = 0)
  let x := d.frzWord r i
  if i = 2 then (d, BitVec.ofNat 64 (x.toNat + (d.frzWord r 3).toNat * 2 ^ 32))
  else if i = 7 then
    let ok := match d.emb.frz.find? r with
      | some f => f.byLo
      | none => false
    (d.endFreeze r, BitVec.ofNat 64 (x.toNat + 8 * b2n ok))
  else (d, x.setWidth 64)

/-- A freeze lapses (R72). -/
def Dev.freezeLapses (d : Dev) (r : Nat) : Dev := if (d.emb.frz.find? r).isSome then (d.endFreeze r).sb F.embStatus_frz_lapsed true else d

/-! ### The hold monitor and the wake (R79, R82, R83) -/

/-- VSTORE_SENSE breaks while the monitor is armed (R79, R90). -/
def Dev.holdBroken (d : Dev) : Dev :=
  if !d.embAlive || !bitOf (d.bkp 58) 0 || bitOf (d.bkp 58) 1 then d
  else (d.setBkp 58 (setBit (d.bkp 58) 1 true)).setBkpW 15 (BitVec.ofNat 32 d.emb.tallySec)

/-- The judgement of a write of emb.wake (R83, R87). -/
def Dev.judgeWake (d : Dev) (c : WCtx) : WOut := match d.judgeTable c with
  | .ok old new rs ex eff => if fieldOf new 2 0 ≠ 0 && fieldOf new 27 16 = 0 then .bad old rs ex else .ok old new rs ex eff
  | o => o

/-- The periodic wake expires (R83). -/
def Dev.wakeExpires (d : Dev) : Dev :=
  if !d.embAlive || d.g F.embWake_unit = 0 then d
  else
    let d := d.whenD (d.gb F.embStatus_wake_ev) (fun d => d.bump F.embWakeOvr_count)
    let d := d.sb F.embStatus_wake_ev true
    if d.pins.main then d.licPulse 544 else d.whenD (d.gb F.embWake_pwron) Dev.pwrTrigger

/-- The PWRON_N pulse ends (R82). -/
def Dev.pulseEnds (d : Dev) : Dev := d.sb F.embPwr_pwron_active false

end Sys2Proof.Machine
end

