-- ==== Sys2Proof/Machine/Pitch.lean ====
section
/-! DEFINITION. Pitch (04): the pitch start and its record, strap sampling's end, the Store brought up, warm or cold, the start of the change log, configuration-ready and completion; the seal as step 6 reads it (R129, R612, R616, R617). -/
namespace Sys2Proof.Machine

/-- The step in progress (R156). -/
def Dev.pitStep (d : Dev) : Nat := d.g F.pitPitchStatus_step

/-- The pitch passes on to a step. -/
def Dev.toStep (d : Dev) (n : Nat) : Dev := d.s F.pitPitchStatus_step n

/-! ### The pitch start (R125, R131, R149, R153, R600) -/

/-- Registers of reset code W, as the warm image holds them, the resume token among them (R20, R614, R618). -/
def Dev.imageRegs (d : Dev) : SMap W64 := (d.regs.keep (fun o _ => (regAt o).any (fun r => r.codes.w))).ins R.pitResumeToken d.bvc.token

/-- Work that a chip pitch or Bivouac abandons: a re-pitch ends with result 6, a drain with result 11, its posted writes counted (R153, R600, R640). -/
def Dev.abandonWork (d : Dev) : Dev :=
  let mine := d.pit.resets.filter (fun r => !r.fwt)
  let d := d.each mine (fun d r => (d.logEv hwPit 9 0 6 r.block).s F.pitRepitchStatus_result 6)
  let d := { d with pit := { d.pit with resets := [] } }
  let d := d.sb F.pitRepitchStatus_busy false
  if d.pdPh = 0 then d
  else
    let d := if d.pdPh = 1 then (d.workEnd (domainBlock d.pdNow) 4).1 else d
    d.pdEnds 11

/-- The registers of Ember as a pitch leaves them (R20, R91). -/
def Dev.embPitch (d : Dev) : Dev :=
  let d := ((d.sb F.embDst_pending false).s F.embDst_cmd 0).wr R.embXtalMeas 0#64
  let d := (d.sb F.embStatus_frz_lapsed false).wr R.embWakeOvr 0#64
  let d := ((d.wr R.embSwFirstBat 0#64).wr R.embSwLastMain 0#64).wr R.embSwCount 0#64
  ({ d with emb := { d.emb with frz := [], swSince := false, wall := none } }).substBits

/-- Every domain but Ember and Watch at its reset state; what the Store holds, the Grave latch, ERR_P/ERR_N and the Watch domain's staged records stay (R20, R132, R531, R534). -/
def Dev.pitchClear (d : Dev) : Dev :=
  let r := Dev.reset
  let keepReg (e : Nat × W64) : Bool := 0x20000 ≤ e.1 && e.1 < 0x30000
  let f : Fwt := { r.fwt with grave := d.fwt.grave, err := d.fwt.err && (d.fwt.grave || decide (d.now < d.fwt.errAt + 1000)), errAt := d.fwt.errAt }
  let t : Trn := { r.trn with home := d.trn.home, owned := d.trn.owned }
  let n : Ins := { r.ins with desc := d.ins.desc, wseq := d.ins.wseq, mbx := d.ins.mbx, mbxErr := d.ins.mbxErr, mem := d.ins.mem }
  let w : Twin := { r.twin with unacked := d.twin.unacked, staging := d.twin.staging, slog := d.twin.slog }
  let c : Clg := { r.clg with ring := d.clg.ring, watch := d.clg.watch ++ d.clg.staged, missed := d.clg.missed }
  let s : Sto := { d.sto with quar := [], cur := none, scrubPos := 0 }
  { d with regs := d.regs.filter keepReg, pit := r.pit, pd := { r.pd with lost := d.pd.lost, prev := if d.pit.sampled && !d.pd.st.any (fun e => e.2 = .bvcOff) then some d.pd.st else none }, sto := s, ports := [], net := r.net, trn := t, hst := r.hst, win := { r.win with desc := d.win.desc }, ins := n, iso := r.iso, lic := r.lic, fwt := f, clg := c, bvc := r.bvc, twin := w, held := [] }

/-- The Ember records found at step 2: fresh start or crystal stop, hold break, switch-overs (R78, R80, R132); what the staging of 256 cannot hold is missed (R571). -/
def Dev.embFound (d : Dev) : Dev :=
  let fresh := d.gb F.embStatus_ember_fresh
  let stop := d.gb F.embStatus_osc_stop
  let was := d.clg.watch
  let d := { d with clg := { d.clg with watch := [] } }
  let d := d.whenD (fresh || stop) (fun d => (d.logEv .ember 12 0 0 (b2n fresh + 2 * b2n stop)).raise 3)
  let d := d.whenD (bitOf d.pit.b58 1) (fun d => d.logEv .ember 11 0 0 (d.pit.b58 + (d.bkpW 15).toNat * 2 ^ 32))
  let d := d.switchRec
  let all := d.clg.watch ++ was
  ({ d with clg := { d.clg with watch := all.take 256 } }).each (all.drop 256) Dev.missRec

/-- The sources whose condition lasts over a pitch start are asserted again: REFCLK, REFF or the crystal absent, VBAT low (R34, R151, R684, log entry 110). -/
def Dev.lostClocks (d : Dev) : Dev :=
  (((d.whenD (!d.pins.refclk) (fun d => d.raiseLvl 0)).whenD (!d.pins.reff) (fun d => d.raiseLvl 1)).whenD d.emb.subst (fun d => d.raiseLvl 2)).whenD (!d.emb.vbat) (fun d => d.raise 22)

/-- Trackers that run; a pitch aborts them (R471). -/
def Dev.trackersRun (d : Dev) : Bool := d.iso.dl.keys.any (fun t => d.dlState t = 1 || d.dlState t = 2)

/-- A pitch starts (R125, R131, R471, R683): steps 1 and 2. -/
def Dev.pitchStart (d : Dev) (trigger : Nat) (resetSeal : Bool) : Dev :=
  let aborts := d.trackersRun
  let d := d.abandonWork.pitchClear
  let d := (((d.s F.pitPitchStatus_trigger trigger).sb F.pitPitchStatus_reset_seal resetSeal).stamp 1)
  let d := { d with pit := { d.pit with b58 := d.bkp 58, b59 := d.bkp 59, inc0 := d.bkpW 12, seq0 := d.bkpW 13 } }
  let d := d.setBkp 58 (setBit d.pit.b58 0 false)
  let d := (d.setBkpW 12 (d.pit.inc0 + 1)).wr R.pitPitchStart d.tally
  let d := (d.setBkp 59 (min 255 (d.pit.b59 + 1))).embFound.embPitch
  ((d.lostClocks.whenD aborts (fun d => d.raise 234)).stamp 2).toStep 3

/-! ### Straps and clocks (R99, R134, R584, R699) -/

/-- The records of the domains that a pitch has switched (R596, R600); automatic switching makes none. -/
def Dev.pitchSwitched (d : Dev) : Dev := match d.pd.prev with
  | none => d
  | some was =>
    ({ d with pd := { d.pd with prev := none } }).each (List.range 64) (fun d k =>
      let o := was.lk .on k
      let n := d.pdSt k
      if o = PdSt.autoOff || n = PdSt.autoOff || o.recCode = n.recCode then d else d.pdRec k o.recCode n.recCode 2 false 0)

/-- The power domains as a pitch sets them (R338, R584, R588). -/
def Dev.pitchDomains (d : Dev) : Dev :=
  let quads := max 1 (2 ^ d.g F.genHostCfg_width / 4)
  let d := d.each ((List.range 4).filter (fun q => quads ≤ q)) (fun d q => d.setPd (2 + q) .hwOff)
  let d := d.each ((List.range 12).filter (fun p => d.portHeld p)) (fun d p => (d.setPd (linkDomain p) .hwOff).setPd (phyDomain p) .hwOff)
  let d := d.whenD (!d.testEn) (fun d => d.setPd 63 .hwOff)
  (d.each [57, 58, 59, 60] (fun d e => if d.spillUnused e then d.setPd e .autoOff else d)).pitchSwitched

/-- The escalation time of class k in force, in µs (R530). -/
def Dev.fwtTimer (d : Dev) (k : Nat) : Nat := if 1 ≤ k ∧ k ≤ 4 then (d.rd (R.fwtTimer (k - 1))).toNat % 2 ^ 32 else 0xFFFFFFFF

/-- The strapped profile takes over an open event's timer (R699). -/
def Dev.profileLatched (d : Dev) : Dev :=
  let left := d.g F.fwtEventLeft_us
  if d.gb F.fwtStatus_open && left ≠ 0xFFFFFFFF then d.s F.fwtEventLeft_us (min left (d.fwtTimer (d.g F.fwtStatus_class))) else d

/-- The twin role a node begins with (R622, R629, R648): witness, in its quiet period, forming, or none. -/
def Dev.twinBegins (d : Dev) : Dev :=
  let d := { d with twin := { d.twin with quiet := d.twinMode = 3 } }
  d.s F.pitTwinStatus_role (if d.twinMode = 3 then 6 else if d.twinMember then 1 else 0)

/-- Sampling ends (R99): step 3 of the pitch. -/
def Dev.strapsDone (d : Dev) (x : StrapSamples) : Dev :=
  if d.pitStep ≠ 3 then d
  else ((((d.latchStraps x).strapsToEmber).profileLatched.pitchDomains.twinBegins).stamp 3).toStep 4

/-- A limited pitch: a held stack stays held, its monitor armed again with the broken bit kept (R79, R152). -/
def Dev.goLimited (d : Dev) : Dev :=
  let d := d.sb F.pitPitchStatus_limited true
  if d.sto.held && d.pins.holdOk then d.setBkp 58 (setBit (d.bkp 58) 0 true) else d

/-- The PLLs lock and the clocks start (R134 step 4): ports train; with Grave latched the pitch is limited from here (R152, R207). -/
def Dev.pllLocked (d : Dev) (ohms : Nat) : Dev :=
  if d.pitStep ≠ 4 || !d.pins.reff then d
  else
    let d := ((d.stamp 4).toStep 5).calPitch ohms
    if d.fwt.grave then d.goLimited else d.each (List.range 12) Dev.trainStart

/-! ### The Store, and warm or cold (R129, R130, R133, R178, R420, R451) -/

/-- A Store attempt fails; the third makes the pitch limited (R152, R180). -/
def Dev.storeFails (d : Dev) : Dev :=
  if d.pitStep ≠ 5 || d.limited then d
  else
    let n := d.g F.pitPitchStatus_store_attempts + 1
    let d := d.s F.pitPitchStatus_store_attempts n
    if n < 3 then d else ((d.each (List.range 12) (fun d p => d.toIdle p)).goLimited).raise 49

/-- The straps of R116 agree with a seal's. -/
def Dev.strapsMatch (d : Dev) (s : Seal) : Bool :=
  let now := d.g F.genStrapSd_sd
  [6, 13, 16, 17, 18, 19].all (fun i => bitOf now i = s.sd.getLsbD i) &&
  [0, 1, 2, 7, 8, 9, 10, 12].all (fun k => decide (d.svSampled k = s.sv.toNat / 16 ^ k % 16))

/-- The condition of R129 that first decides a cold pitch; 0 chooses warm. -/
def Dev.coldReason (d : Dev) : Nat :=
  if !bitOf (d.g F.genStrapSd_sd) 12 then 1
  else if !bitOf d.pit.b58 3 then 2
  else if bitOf d.pit.b58 2 then 3
  else if bitOf d.pit.b58 1 then 4
  else match d.sto.cur with
  | none => 5
  | some s => if s.seq ≠ d.pit.seq0 then 6 else if d.strapsMatch s then 0 else 7

/-- A cold pitch is decided with a reason (R129, R130, R646). -/
def Dev.goCold (d : Dev) (reason : Nat) : Dev :=
  let d := ((d.s F.pitPitchStatus_cold_reason reason).sb F.pitPitchStatus_warm false).setBkp 58 (setBit (d.bkp 58) 3 false)
  d.whenD (bitOf (d.g F.genStrapSd_sd) 12) (fun d => d.raise 267)

/-- The seal copies read at step 5 and compared: a bad or older one is mended from the other (R172, R173, R178). -/
def Dev.readSeals (d : Dev) (badA badB : Bool) : Dev :=
  let d := d.sealCopies (!badA) (!badB)
  { d with sto := { d.sto with cur := d.sto.sealA } }

/-- What pit.bvc_last, bvc_lost and bvc_tally show of the seal (R648). -/
def Dev.showSeal (d : Dev) : Dev := match d.sto.cur with
  | none => d
  | some s =>
    let w := s.trigger + 4 * b2n s.incomplete + 8 * b2n (decide (0 < s.lost)) + 16
    ((d.wr R.pitBvcLast (BitVec.ofNat 64 w)).wr R.pitBvcLost (BitVec.ofNat 64 s.lost)).wr R.pitBvcTally s.tally

/-- The Store leaves self-refresh or is initialised, and step 6 chooses (R134 steps 5 and 6, R178). -/
def Dev.storeUp (d : Dev) (badA badB : Bool) : Dev :=
  if d.pitStep ≠ 5 || d.limited then d
  else
    let held := d.sto.held
    let d := if held && d.sto.live then d else { d with sto := { d.sto with sealA := none, sealB := none, hdrLevel := none } }
    let d := { d with sto := { d.sto with held := false, live := true } }
    let d := { d with pins := { d.pins with holdOk := false } }
    let d := (d.s F.pitPitchStatus_store_attempts (d.g F.pitPitchStatus_store_attempts + 1)).sb F.stoStatus_held held
    let d := (((d.sb F.stoStatus_ready true).readSeals badA badB).showSeal.stamp 5).stamp 6
    let r := d.coldReason
    (if r = 0 then d.sb F.pitPitchStatus_warm true else d.goCold r).toStep 7

/-- The descriptor of instance 0 that a cold pitch leaves (R420, R451). -/
def inst0 (tally : W64) : List W64 :=
  let w := List.replicate 32 0#64
  let w := bput (bput (bput w 0 1 1) 1 1 0xFF) 2 1 1
  let w := bput (bput (bput (bput w 18 2 0xFFFF) 20 4 65536) 24 4 1) 28 8 tally.toNat
  bput (bput w 48 8 (2 ^ 64 - 1)) 64 8 (2 ^ 64 - 1)

/-- The Store regions of instances, windows, holds, tags and trackers initialised, instance 0 pitched (R134, R420, R451, R621). -/
def Dev.clearTables (d : Dev) : Dev :=
  let d := { d with ins := { d.ins with desc := [(0, inst0 d.tally)], wseq := [(0, 1)], mbx := [], mbxErr := [], mem := [], flr := [], refused := [] } }
  let d := { d with win := { d.win with desc := [], lines := [] } }
  let d := { d with trn := { d.trn with home := [], owned := [] } }
  let zero (t : Tracker) : Tracker := { t with a := [], b := [], dirtyA := [], dirtyB := [] }
  let d := { d with iso := { d.iso with dl := d.iso.dl.map (fun e : Nat × Tracker => (e.1, zero e.2)) } }
  let d := { d with twin := { d.twin with unacked := [], staging := none, slog := [] } }
  { d with sto := { d.sto with errUnits := [], image := [] } }

/-- The chain of the ring from its anchor on: the last chain value, none where a record fails (R566). -/
def chainCheck (prev : W64) (ring : SMap LogEnt) : Option W64 := match ring with
  | [] => some prev
  | e :: t => if !e.2.bad && chainOf prev (BitVec.ofNat 64 e.1) e.2.body = e.2.chain then chainCheck e.2.chain t else none

/-- The ring may be kept (R133): its size level, its pages, its chain. -/
def Dev.ringGood (d : Dev) (pagesOk : Bool) : Bool :=
  pagesOk && d.sto.hdrLevel = some (d.sizeLvl 24) && (chainCheck d.sto.hdrAnchor d.clg.ring).isSome

/-- The change log's pointers at step 8: the ring kept, or empty with its anchor over the serial and the tally (R133, R566, R567). -/
def Dev.ringStart (d : Dev) (keep : Bool) : Dev :=
  if keep then
    let last := (chainCheck d.sto.hdrAnchor d.clg.ring).getD d.sto.hdrAnchor
    let d := { d with clg := { d.clg with last := last } }
    ((d.wr R.clgHead d.sto.hdrHead).wr R.clgTail d.sto.hdrTail).wr R.clgAnchor d.sto.hdrAnchor
  else
    let a := crc64 (bytesLE 8 (d.rd R.genSerial).toNat ++ bytesLE 8 d.tally.toNat)
    let d := ({ d with clg := { d.clg with ring := [], last := a } }).wr R.clgAnchor a
    { d with pit := { d.pit with emptyRing := true } }

/-- The pitch record (R132, R565). -/
def Dev.pitchRec (d : Dev) : Rec :=
  let aux := d.g F.pitPitchStatus_trigger + 4 * b2n (d.gb F.pitPitchStatus_warm) + 16 * d.g F.pitPitchStatus_cold_reason + 256 * b2n d.limited
  ⟨d.rd R.pitPitchStart, hwPit, 7, if d.pit.emptyRing then 0x200#16 else 0#16, 0#64, d.pit.inc0.setWidth 64, d.incarnation.setWidth 64, BitVec.ofNat 64 aux⟩

/-- Step 8: the change log starts with the pitch record, the missed records, the strap records and what the Watch domain staged; Trained fabric ports open (R132, R134). -/
def Dev.startLog (d : Dev) : Dev :=
  let staged := d.clg.watch
  let d := { d with pit := { d.pit with logOpen := true } }
  let d := { d with clg := { d.clg with watch := [] } }
  let r := d.pitchRec
  let d := (if d.hwRoom then d.stageRec r else d.missRec r).missedRec
  let d := (d.strapRecords (d.gb F.pitPitchStatus_warm)).each staged Dev.log
  let d := ((d.sb F.stoStatus_scrub_on true).stamp 8).toStep 12
  d.each (List.range 8) Dev.tryOpen

/-- Step 7c ends: every region is initialised, and the log starts (R133, R134); a ring page or log header that fails the ring check raises F046 (R179), a ring initialised empty F253 (R581). -/
def Dev.coldDone (d : Dev) (pagesOk : Bool) : Dev :=
  if d.pitStep ≠ 7 || d.gb F.pitPitchStatus_warm then d
  else
    let keep := d.ringGood pagesOk
    let d := d.whenD (d.sto.hdrLevel.isSome && !pagesOk) (fun d => d.raise 46)
    let d := d.clearTables
    let d := { d with sto := { d.sto with sealA := none, sealB := none, snap0 := none, snap1 := none } }
    let d := (d.ringStart keep).logHeader.whenD (!keep) (fun d => d.raise 253)
    (d.stamp 7).startLog

/-! ### Warm validation (R615 to R617) -/

/-- The chain value of the last record, or the anchor (R612). -/
def Dev.headChain (d : Dev) : W64 := match d.clg.ring.getLast? with
  | some e => e.2.chain
  | none => d.sto.hdrAnchor

/-- Validation passes (R616). -/
def Dev.warmGood (d : Dev) (s : Seal) (r : WarmReads) : Bool :=
  decide ((d.pit.inc0 - s.inc).toNat = d.pit.b59) && d.pit.b59 ≠ 255 && r.headerOk && !r.bad.any (fun b => regionOf b.addr = 2) && d.sto.hdrHead = s.head && d.headChain = s.chain && r.directoryOk && r.imageOk

/-- Pitched tenants become suspended (R617). -/
def Dev.suspendAll (d : Dev) : Dev :=
  d.each (d.present.filter (fun n => n ≠ 0 && d.stateByte n = 1)) (fun d n => d.is n 0 1 2)

/-- Every rate register's value in force: rates that a warm pitch keeps were not changed (R455, R614). -/
def Dev.ratesNow (d : Dev) : Dev :=
  { d with iso := { d.iso with rate := d.regs.foldl (fun m e =>
      if R.insBucketLimits 0 ≤ e.1 && e.1 < R.insBucketLimits 4096 && e.1 % 8 = 0 then m.put 0 ((e.1 - R.insBucketLimits 0) / 8) e.2.toNat else m) [] } }

/-- The warm image back in its registers (R614, R617). -/
def Dev.imageBack (d : Dev) : Dev :=
  let d := d.each d.sto.image (fun d e =>
    if e.1 = R.pitResumeToken then { d with bvc := { d.bvc with token := e.2 } }
    else if e.1 = R.pitResumeStatus || e.1 = R.pitTwinStatus then d
    else d.wr e.1 e.2)
  d.ratesNow.sb F.pitResumeStatus_token_set (d.bvc.token ≠ 0#64)

/-- The held twin role, ring and shadow log are discarded where the twin mode differs (R615); a held active state counts in the next ranking (R643). -/
def Dev.twinWarm (d : Dev) (s : Seal) : Dev :=
  if s.sd.toNat / 128 % 4 = d.g F.genStrapSd_sd / 128 % 4 then
    { (d.sb F.pitTwinStatus_image_ok s.imageOk) with twin := { d.twin with staging := none, active := decide (s.role = 2 || s.role = 5) } }
  else
    let d := { d with twin := { d.twin with staging := none, unacked := [], slog := [] } }
    ((d.unset R.pitTwinLogHead).unset R.pitTwinLogTail).sb F.pitTwinStatus_image_ok false

/-- The address this node held before the loss: the strapped one, with SD13 = 1 the camp strapped and the member of the newest route snapshot (R103, R275). -/
def Dev.heldAddr (d : Dev) : Nat :=
  let a := (d.rd R.genNodeCfg).toNat % 4096
  if bitOf (d.g F.genStrapSd_sd) 13 then a / 64 * 64 + d.snapMember.getD 0 else a

/-- Holds of a warm return: owned entries are freed, entries that this node owns released with a broken mark (R617). -/
def Dev.holdsWarm (d : Dev) : Dev :=
  let own := d.trn.home.filter (fun e => e.held && e.node = d.heldAddr)
  ({ d with trn := { d.trn with owned := [] } }).each own Dev.breakHold

/-- Step 7w reads a region: the page-CRC regions it keeps, the A/B structures with the directories, the warm image and the header of the twin ring (R170, R613, R697). -/
def warmReads (a : Nat) : Bool :=
  let r := regionOf a
  (pageCrcRegion r && !(8 ≤ r && r ≤ 10)) || r < 2 || r = 3 || r = 4 || r = 13 || r = 14 || (r = 21 && a - regionBase 21 ≤ 0x100000)

/-- What step 7w meets, acted on at that moment as in use (R135, R172, R179, R697): failed units and pages, descriptor copies that differ, a log header that fails. -/
def Dev.warmMeets (d : Dev) (r : WarmReads) : Dev :=
  let d := d.each (r.bad.filter (fun b => warmReads b.addr)) (fun d b => if b.crc then d.crcHeld b.addr else d.ueMet b.addr true)
  let d := d.each r.differ (fun d c => d.descCopies c.inst.toNat false c.a c.b)
  d.whenD (!r.headerOk && !r.bad.any (fun b => regionOf b.addr = 2)) (fun d => d.raise 46)

/-- Step 7w ends (R130, R135, R616, R617, R697). -/
def Dev.warmDone (d : Dev) (r : WarmReads) : Dev :=
  if d.pitStep ≠ 7 || !d.gb F.pitPitchStatus_warm then d
  else match d.sto.cur with
  | none => d.goCold 8
  | some s =>
    let good := d.warmGood s r
    let d := d.warmMeets r
    if !good then d.goCold 8
    else
      let d := d.setBkp 58 (setBit (d.bkp 58) 3 false)
      let d := (d.suspendAll.holdsWarm.imageBack).twinWarm s
      (((d.ringStart true).logHeader).stamp 7).startLog

/-! ### Readiness and completion (R134 steps 9, 12 and 13, R137, R151, R152, R155) -/

/-- Step 9: configuration requests complete normally (R134, R149 to R152). -/
def Dev.configReady (d : Dev) : Dev :=
  if d.pit.ready || d.pins.perst || !d.pins.refclk || !(d.pit.logOpen || d.limited) then d
  else
    let d := ({ d with pit := { d.pit with ready := true } }).sb F.pitPitchStatus_config_ready true
    (d.stamp 9).whenD d.limited (fun d => d.toStep 9)

/-- Step 13: the pitch is complete; local ports open, and after a warm pitch the tenants await the token (R134, R135, R480, R619). -/
def Dev.pitchDone (d : Dev) (late : Bool) : Dev :=
  let warm := d.gb F.pitPitchStatus_warm
  let d := ((d.stamp 13).sb F.pitPitchStatus_join_timeout late).sb F.pitPitchStatus_complete true
  let d := (d.toStep 13).licPulse 545
  let d := d.each [8, 9, 10, 11] Dev.tryOpen
  if !warm then d
  else
    let held := match d.sto.cur with
      | some s => decide (s.token ≠ 0#64)
      | none => false
    ((d.sb F.pitPitchStatus_suspended true).s F.pitResumeStatus_state 1).sb F.pitResumeStatus_held_token held

/-- The first convergence ends step 12, and step 13 follows (R134, R289). -/
def Dev.pitchHook (d : Dev) : Dev :=
  if d.pitStep = 12 && d.gb F.netStatus_converged && !d.gb F.pitPitchStatus_converged
  then ((d.sb F.pitPitchStatus_converged true).stamp 12).pitchDone false
  else if d.complete && d.gb F.netStatus_converged && !d.gb F.pitPitchStatus_converged then (d.sb F.pitPitchStatus_converged true).stamp 12
  else d

/-- The 1 s limit after step 8 (R155, R198). -/
def Dev.joinLate (d : Dev) : Dev := if d.pitStep = 12 then (d.raise 198).pitchDone true else d

end Sys2Proof.Machine
end

