-- ==== Sys2Proof/Machine/Resume.lean ====
section
/-! DEFINITION. The resume token and the end of a suspension (R618 to R621, R636, R639). -/
namespace Sys2Proof.Machine

/-- The judgement of a write of pit.resume_token: its record carries zeros (R618). -/
def Dev.judgeToken (_d : Dev) (token : W64) (c : WCtx) : WOut :=
  if !c.wide then .bad 0#64 false false
  else .ok 0#64 0#64 false false (fun d => ({ d with bvc := { d.bvc with token := token } }).sb F.pitResumeStatus_token_set (token ≠ 0#64))

/-- The tenants await the token: from step 13 of a warm pitch, and no value was presented yet (R619). -/
def Dev.awaitsToken (d : Dev) : Bool := d.complete && d.gb F.pitPitchStatus_warm && d.gb F.pitPitchStatus_suspended && !d.bvc.presented

/-- The suspension is being ended, by resumption or by discard, for a cause of R647. -/
def Dev.endsSuspension (d : Dev) (state cause : Nat) : Dev :=
  (({ d with bvc := { d.bvc with presented := true } }).s F.pitResumeStatus_state state).s F.pitResumeStatus_cause cause

/-- What a presented value leads to (R619, R647): 0 resume, 1 no match, 3 no token held. -/
def Dev.tokenCause (d : Dev) (v : W64) : Nat :=
  if !d.gb F.pitResumeStatus_held_token then 3 else if d.sto.cur.any (fun s => s.token = v) then 0 else 1

/-- The judgement of a write of pit.resume (R619). -/
def Dev.judgeResume (d : Dev) (c : WCtx) : WOut :=
  if !c.wide || !d.awaitsToken then .bad 0#64 false false
  else
    let r := d.tokenCause c.data
    .ok 0#64 0#64 false false (fun d => d.endsSuspension (if r = 0 then 2 else 4) r)

/-- The judgement of a write of pit.resume_ctl (R619). -/
def Dev.judgeDiscard (d : Dev) (c : WCtx) : WOut :=
  let x := c.data.toNat &&& c.mask
  let rs : Bool := 2 ≤ x
  if !woOk c.be 1 then .bad 0#64 rs false
  else if x % 2 = 0 then .ok 0#64 0#64 rs false id
  else if !d.awaitsToken then .bad 0#64 rs false
  else .ok 0#64 0#64 rs false (fun d => d.endsSuspension 4 2)

/-- Step 14 ends (R620, R621, R647). -/
def Dev.step14 (d : Dev) (state resumed : Nat) : Dev :=
  let d := ((d.s F.pitResumeStatus_state state).s F.pitResumeStatus_resumed resumed).sb F.pitPitchStatus_suspended false
  (d.licPulse 546).logEv .manager 43 0 0 (d.g F.pitResumeStatus_cause + resumed * 2 ^ 16)

/-- The instances that are suspended, in ascending order. -/
def Dev.suspendedInsts (d : Dev) : List Nat := d.present.filter (fun n => n ≠ 0 && d.istate n = 2)

/-- Every suspended tenant is pitched (R620, R636). -/
def Dev.resumeDone (d : Dev) : Dev :=
  if d.g F.pitResumeStatus_state ≠ 2 then d
  else
    let l := d.suspendedInsts
    let d := (d.each l (fun d n => d.is n 0 1 1)).step14 3 l.length
    if d.gb F.pitTwinCmdStatus_busy then (d.sb F.pitTwinCmdStatus_busy false).s F.pitTwinCmdStatus_result 1 else d

/-- Registers of reset code W that a discard sets to their cold value: hst.pf_vectors and the change log's pointers stay (R621, log entry 133). -/
def discardReg (o : Nat) : Bool := (regAt o).any (fun r => r.codes.w) && o ≠ R.hstPfVectors && !(0x30000 ≤ o && o < 0x40000)

/-- The tag tables are initialised (R621): what awaits a response ends as in a reset, but the twin engine's own requests go on (log entry 127). -/
def Dev.tagsInit (d : Dev) : Dev :=
  let mine (f : FTag) : Bool := match f.who with
    | .twin _ => false
    | .host _ _ | .loc _ _ _ _ | .line _ | .none => true
  let n := (d.trn.tags.filter (fun e => mine e.2 && !e.2.pkt.posted)).length
  let l := d.trn.ltags.keep (fun _ l => l.deliver)
  let ops := d.hst.ops.length
  let d := (d.endTags mine 3 1).endOps (fun _ => true) 3 1
  (d.each l (fun d e => (d.freeLocalTag e.1).respond e.2.pkt 3 1 [] 0 e.2.gen)).goneSynth (n + l.length + ops)

/-- The cold restore is complete (R621): the Store's tables are initialised, fields of reset code W take their cold value, those of code P in the same registers stay. -/
def Dev.discardDone (d : Dev) : Dev :=
  if d.g F.pitResumeStatus_state ≠ 4 then d
  else
    let tw := d.rd R.pitTwinStatus
    let st := d.rd R.pitResumeStatus
    let d := d.tagsInit.clearTables
    let d := { d with regs := d.regs.filter (fun e : Nat × W64 => !discardReg e.1) }
    let d := { d with bvc := { d.bvc with token := 0#64 }, twin := { d.twin with active := d.twin.active && fieldOf tw 2 0 = 2 } }
    let d := ((d.wr R.pitResumeStatus st).sb F.pitResumeStatus_token_set false)
    let d := ((d.wr R.pitTwinStatus tw).sb F.pitTwinStatus_image_ok false).ratesNow
    (d.step14 5 0).raise 266

end Sys2Proof.Machine
end

