-- ==== Sys2Proof/Machine/Twin.lean ====
section
/-! DEFINITION. Twin pairs (R622 to R636, R641 to R648): the shadow stream, formation, the twin hold, loss and takeover, pit.twin_cmd. -/
namespace Sys2Proof.Machine

/-! ### Hellos, the witness and shadow packets -/

/-- The origin of a role that a Hello sets (R647). -/
def twinOrg (h : TwinHello) : Origin := .fabric h.addr.toNat 0

/-- The witness configured (R622). -/
def Dev.twinWitness (d : Dev) : Option Addr := if d.gb F.pitTwinWitness_valid then some (BitVec.ofNat 12 (d.g F.pitTwinWitness_address)) else none

/-- FP7 is Open (R624). -/
def Dev.fp7Open (d : Dev) : Bool := d.portOpen 7

/-- A shadow packet queued on VC7 of FP7 (R623). -/
def Dev.shadowSend (d : Dev) (b : List Byte) : Dev := d.enqueue 7 0x2000 ⟨.raw b, 7, b.length⟩

/-- A shadow packet that FP7's receive side handed over leaves its list (log entry 15). -/
def Dev.shadowTake (d : Dev) (b : List Byte) : Dev := d.consumeRaw 7 b

/-- A packet with another version is discarded (R641). -/
def Dev.shadowUndef (d : Dev) : Dev := (d.bump F.pitCntUndefTwin_count).raise 274

/-- A VC7 packet has arrived: the peer is heard, and a detached member is standby again (R630, R632). No rule gives the code of that record (log entry 4). -/
def Dev.twinHeard (d : Dev) : Dev :=
  let d := { d with twin := { d.twin with heard := d.now } }
  if d.role ≠ 4 then d
  else
    let r := d.takeFree
    (r.2.setRole 3 (r.1.toNat % 16) hwPit).sb F.pitTwinStatus_peer_ok true

/-! ### The shadowed units (R625) -/

/-- The Store units of an instance that are shadowed: its descriptor's two copies, its mailbox, its commons page. -/
def instUnits (n : Nat) : List Nat :=
  (List.range 4).map (fun j => regionBase 3 + 256 * n + 64 * j) ++ (List.range 4).map (fun j => regionBase 4 + 256 * n + 64 * j)

/-- The mailbox units of an instance. -/
def mbxUnits (n : Nat) : List Nat := [regionBase 5 + 128 * n, regionBase 5 + 128 * n + 64]

/-- The window units outside instance 0's range. -/
def Dev.winUnits (d : Dev) : List Nat :=
  let lo := d.ig 0 4 4
  let hi := lo + d.ig 0 8 4
  ((List.range 65536).filter (fun w => w < lo || hi ≤ w)).map (fun w => regionBase 6 + 64 * w)

/-- Every shadowed unit, in address order. -/
def Dev.allUnits (d : Dev) : List Nat :=
  let ns := (List.range 4095).map (· + 1)
  ns.flatMap (fun n => (instUnits n).take 4) ++ ns.flatMap (fun n => (instUnits n).drop 4) ++ ns.flatMap mbxUnits ++ d.winUnits ++
    ns.flatMap (fun n => (List.range 1024).map (fun u => regionBase 17 + 65536 * n + 64 * u))

/-- The entry of a unit as it now stands. -/
def Dev.unitEnt (d : Dev) (a : Nat) : DeltaEnt := ⟨false, a, (d.unitWords a).getD []⟩

/-- Keys whose entries differ between two tables. -/
def changedKeys {α : Type} [DecidableEq α] (a b : SMap α) : List Nat :=
  (a.filter (fun e => b.find? e.1 ≠ some e.2)).map (·.1) ++ (b.filter (fun e => (a.find? e.1).isNone)).map (·.1)

/-- The shadowed units that a command changed. -/
def Dev.changedUnits (d old : Dev) : List Nat :=
  let tenant (n : Nat) : Bool := 1 ≤ n && n < 4096
  let ns := distinct ((changedKeys old.ins.desc d.ins.desc ++ changedKeys old.ins.wseq d.ins.wseq).filter tenant)
  let ms := distinct (((changedKeys old.ins.mbx d.ins.mbx).map (fun k => k / 8)).filter (fun u => tenant (u / 2)))
  let lo := d.ig 0 4 4
  let ws := (changedKeys old.win.desc d.win.desc).filter (fun w => w < lo || lo + d.ig 0 8 4 ≤ w)
  let cs := distinct (((changedKeys old.ins.mem d.ins.mem).map (fun a => a / 64)).filter (fun u => tenant (u / 1024)))
  ns.flatMap instUnits ++ ms.map (fun u => regionBase 5 + 64 * u) ++ ws.map (fun w => regionBase 6 + 64 * w) ++ cs.map (fun u => regionBase 17 + 64 * u)

/-- An active member shadows what a command changed (R625, log entry 22); an orphan gathers it and sends nothing (R630, log entry 128). -/
def Dev.shadowUnits (d old : Dev) : Dev := match d.twin.open_ with
  | none => d
  | some e => if d.role = 2 || d.role = 5 then { d with twin := { d.twin with open_ := some { e with ents := e.ents ++ (d.changedUnits old).map d.unitEnt } } } else d

/-! ### Epochs at the active (R625 to R627) -/

/-- A list cut into pieces of at most 57 entries (R623). -/
def deltas (fuel : Nat) (es : List DeltaEnt) : List (List DeltaEnt) := match fuel with
  | 0 => []
  | n + 1 => if es.isEmpty then [] else es.take 57 :: deltas n (es.drop 57)

/-- Bytes that an epoch takes in the send ring. -/
def epochBytes (e : Epoch) : Nat := 72 * e.ents.length

/-- Bytes in the send ring (R613). -/
def Dev.twinBytes (d : Dev) : Nat := (d.twin.unacked.map epochBytes).foldl (· + ·) 0

/-- The active closes its open epoch: its Deltas and its Commit enter the send ring (R625, R627). -/
def Dev.closeEpoch (d : Dev) : Dev := match d.twin.open_ with
  | none => d
  | some e =>
    if d.role ≠ 2 then d
    else
      let e := { e with closed := true, boundary := d.rd R.clgHead, tally := d.tally }
      let d := { d with twin := { d.twin with unacked := d.twin.unacked ++ [e], open_ := some ⟨e.num + 1, [], false, 0#64, 0#64⟩ } }
      let d := (d.wr R.pitTwinEpoch e.num).whenD (3071 * 2 ^ 20 < d.twinBytes) (fun d => (d.raise 273).reform 6 hwPit)
      if d.twin.open_.isNone then d
      else (d.each (deltas (e.ents.length + 1) e.ents) (fun d c => d.shadowSend (deltaBytes e.num c))).shadowSend
        (commitBytes e.num e.ents.length (epochCrc e.ents) e.boundary e.tally)

/-- An epoch whose entries reach 64 MiB closes; the copy of formation is staged whole, whatever its size (R625, R627). -/
def Dev.epochFull (d : Dev) : Dev := match d.twin.open_ with
  | some e => if e.num ≠ 0#64 && 64 * 2 ^ 20 ≤ epochBytes e then d.closeEpoch else d
  | none => d

/-- The active opens epoch 0 with every shadowed unit (R627). -/
def Dev.openEpoch0 (d : Dev) : Dev :=
  if d.twin.open_.isSome || !d.twin.unacked.isEmpty then d
  else { d with twin := { d.twin with open_ := some ⟨0#64, d.allUnits.map d.unitEnt, false, 0#64, 0#64⟩ } }

/-- An Ack frees epochs, or the pair re-forms (R626, R627). -/
def Dev.shadowAck (d : Dev) (version : BitVec 8) (epoch : W64) (rejected : Bool) : Dev :=
  let d := d.shadowTake (shadowAckBytes epoch rejected)
  if !d.twinMember then d
  else if version ≠ 1#8 then d.shadowUndef
  else
    let d := d.twinHeard
    if d.role ≠ 2 then d
    else if rejected then (d.bump F.pitCntRejected_count).reform 0 hwPit
    else match d.twin.unacked.find? (fun e => e.num = epoch) with
    | none => d
    | some e =>
      let d := { d with twin := { d.twin with unacked := d.twin.unacked.filter (fun x => epoch.toNat < x.num.toNat) } }
      let d := ((d.wr R.pitTwinAcked epoch).wr R.pitTwinBoundary e.boundary).bump F.pitCntEpochs_count
      let d := d.sb F.pitTwinStatus_peer_ok true
      if epoch ≠ 0#64 then d else (d.sb F.pitTwinStatus_image_ok true).logEv hwPit 45 0 0 e.ents.length

/-! ### The standby (R626, R641, R642) -/

/-- An epoch cannot be applied: Ack 1, F274, and the pair re-forms (R626, R641). -/
def Dev.epochBad (d : Dev) (epoch : W64) : Dev :=
  (((d.shadowSend (shadowAckBytes epoch true)).bump F.pitCntRejected_count).raise 274).reform 0 hwPit

/-- The epoch being staged; after an applied one the next is expected (R641). -/
def Dev.stagingNow (d : Dev) : Epoch := d.twin.staging.getD ⟨d.rd R.pitTwinEpoch + 1, [], false, 0#64, 0#64⟩

/-- A Delta arrives (R626, R641). -/
def Dev.shadowDelta (d : Dev) (version : BitVec 8) (epoch : W64) (es : List DeltaEnt) : Dev :=
  let d := d.shadowTake (deltaBytes epoch es)
  if !d.twinMember then d
  else if version ≠ 1#8 then d.shadowUndef
  else
    let d := d.twinHeard
    let e := d.stagingNow
    if d.role ≠ 3 then d
    else if e.num ≠ epoch then d.epochBad epoch
    else ({ d with twin := { d.twin with staging := some { e with ents := e.ents ++ es } } }).stoMove 3 (64 * es.length)

/-- A descriptor unit written: words 24 to 29 of the last unit, with the write sequence beside them (R171). -/
def Dev.applyDesc (d : Dev) (o : Nat) (ws : List W64) : Dev :=
  let n := o / 256
  let i := o % 256 / 8
  let w := d.idesc n
  let d := if i = 24 then { d with ins := { d.ins with wseq := d.ins.wseq.put 0 n (nth ws 6 0#64).toNat } } else d
  let use := if i = 24 then 6 else 8
  { d with ins := { d.ins with desc := d.ins.desc.put (List.replicate 32 0#64) n (w.take i ++ ws.take use ++ w.drop (i + use)) } }

/-- A unit entry is written to the same Store address (R626). -/
def Dev.applyUnit (d : Dev) (a : Nat) (ws : List W64) : Dev :=
  let r := regionOf a
  let o := a - regionBase r
  if r = 3 then d.applyDesc o ws
  else if r = 5 then
    (List.zip (List.range 8) ws).foldl (fun (d : Dev) e => { d with ins := { d.ins with mbx := d.ins.mbx.put 0#64 (o / 128 * 16 + o % 128 / 8 + e.1) e.2 } }) d
  else if r = 6 then { d with win := { d.win with desc := d.win.desc.put (List.replicate 8 0#64) (o / 64) (ws.take 8) } }
  else if r = 17 then d.memStore o ((bytesOfWords ws).take 64)
  else d

/-- A record entry is appended to the shadow log of 16 Mi records (R613, R626). -/
def Dev.applyRecord (d : Dev) (seq : Nat) (ws : List W64) : Dev :=
  let first := d.twin.slog.isEmpty
  let d := { d with twin := { d.twin with slog := d.twin.slog.ins seq ws } }
  let d := (d.wr R.pitTwinLogHead (BitVec.ofNat 64 (seq + 1))).whenD first (fun d => d.wr R.pitTwinLogTail (BitVec.ofNat 64 seq))
  let t := (d.rd R.pitTwinLogTail).toNat
  if seq + 1 - t ≤ 2 ^ 24 then d
  else ({ d with twin := { d.twin with slog := d.twin.slog.del t } }).wr R.pitTwinLogTail (BitVec.ofNat 64 (t + 1))

/-- The entries of a committed epoch are applied in order (R626). -/
def Dev.applyEpoch (d : Dev) (e : Epoch) : Dev :=
  let d := d.each e.ents (fun d x => if x.isRecord then d.applyRecord x.loc x.words else d.applyUnit x.loc x.words)
  let d := { d with twin := { d.twin with staging := none } }
  let d := ((d.wr R.pitTwinEpoch e.num).wr R.pitTwinBoundary e.boundary).bump F.pitCntEpochs_count
  (d.sb F.pitTwinStatus_image_ok true).sb F.pitTwinStatus_peer_ok true

/-- A Commit arrives (R626, R641). -/
def Dev.shadowCommit (d : Dev) (c : TwinCommit) : Dev :=
  let d := d.shadowTake (commitBytes c.epoch c.entries.toNat c.crc c.boundary c.tally)
  if !d.twinMember then d
  else if c.version ≠ 1#8 then d.shadowUndef
  else
    let d := d.twinHeard
    let e := d.stagingNow
    if d.role ≠ 3 then d
    else if e.num ≠ c.epoch || e.ents.length ≠ c.entries.toNat || epochCrc e.ents ≠ c.crc then d.epochBad c.epoch
    else (d.applyEpoch { e with closed := true, boundary := c.boundary, tally := c.tally }).shadowSend (shadowAckBytes c.epoch false)

/-! ### The twin hold (R629 to R631, R644) -/

/-- The local address of the pair's twin hold: m is the lower-addressed member's number (R629). -/
def Dev.twinHoldAddr (d : Dev) : W64 :=
  let a := match d.twin.peer with
    | some h => min d.addr.toNat h.addr.toNat
    | none => d.addr.toNat
  BitVec.ofNat 64 (0xFFFFFFFFFFFFF000 + 64 * (a % 64))

/-- A hold request of the twin engine is under way. -/
def Dev.twinAsking (d : Dev) : Bool :=
  let mine (w : Who) : Bool := match w with
    | .twin _ => true
    | _ => false
  d.trn.tags.any (fun e => mine e.2.who) || d.trn.waits.any (fun w => mine w.who)

/-- A hold request to a witness: 0x10 HACQ, 0x11 HREL, 0x12 HRENEW (R629). -/
def Dev.twinAsk (d : Dev) (op : Nat) (w : Addr) : Dev :=
  let k := d.mkReq op 0 w 0 0#32 d.twinHoldAddr 0 [] false
  let k := { k with lease := BitVec.ofNat 16 (if op = 0x11 then 0 else d.g F.pitTwinCfg_lease) }
  ({ d with twin := { d.twin with hacq := if op = 0x11 then d.twin.hacq else d.tallyMs } }).submit (.twin op) k

/-- HACQ where a witness is configured and nothing is under way. -/
def Dev.askHold (d : Dev) : Dev := match d.twinWitness with
  | some w => if d.twinAsking then d else d.twinAsk 0x10 w
  | none => d

/-- The hold is renewed, acquired or asked for again (R624, R630 to R632). -/
def Dev.twinRenew (d : Dev) : Dev :=
  let r := d.role
  if r = 2 && d.gb F.pitTwinStatus_lease_held then match d.twinWitness with
    | some w => if d.twinAsking then d else d.twinAsk 0x12 w
    | none => d
  else if r = 2 || r = 5 || (r = 1 && d.twin.elect) || (r = 4 && d.gb F.pitTwinStatus_image_ok) then d.askHold
  else d

/-- The hold is held: the deadline of R630, in ms of the tally. -/
def Dev.leaseHeld (d : Dev) : Dev :=
  let t := d.twin.hacq + d.g F.pitTwinCfg_lease - 2
  ({ d with twin := { d.twin with deadline := t, oldWit := none } }).sb F.pitTwinStatus_lease_held true

/-- The active is covered (R630): by its deadline, by packets of the standby, or because no witness is in use (R630, R631). -/
def Dev.covered (d : Dev) : Bool :=
  d.twinWitness.isNone || d.twin.oldWit.isSome || d.tallyMs < d.twin.deadline || d.now < d.twin.heard + 1000 * d.g F.pitTwinCfg_silence

/-! ### Loss, takeover and demotion (R630, R632 to R634) -/

/-- The work that this node has admitted for its tenants ends with GONE 1, posted writes are lost (R630). -/
def Dev.endTenants (d : Dev) : Dev :=
  let here (k : Pkt) : Bool := k.di ≠ 0
  let held := (d.trn.dwait ++ d.trn.fences).filter (fun w => here w.pkt)
  let beh := (d.trn.behind ++ d.trn.park).filter (fun q => here q.pkt)
  let tags := d.trn.ltags.keep (fun _ l => l.deliver && here l.pkt)
  let d := { d with trn := { d.trn with dwait := d.trn.dwait.filter (fun w => !here w.pkt), fences := d.trn.fences.filter (fun w => !here w.pkt), behind := d.trn.behind.filter (fun q => !here q.pkt), park := d.trn.park.filter (fun q => !here q.pkt) } }
  let ks := held.map (fun w => w.pkt) ++ beh.map (fun q => q.pkt)
  let d := d.each ks (fun d k => d.refuse k 3 1 (fun d => d.lostPosted (sliceDomain k.di) 1))
  let d := d.each tags (fun d e => (d.freeLocalTag e.1).respond e.2.pkt 3 1 [] 0 e.2.gen)
  (d.endOps (fun o => o.fn ≠ 0) 3 1).pumpLocal.pump

/-- An active that is not covered becomes orphan (R630). -/
def Dev.orphaned (d : Dev) : Dev :=
  if d.role ≠ 2 || d.covered then d
  else
    let d := ((d.setRole 5 3 hwPit).sb F.pitTwinStatus_lease_held false).sb F.pitTwinStatus_peer_ok false
    d.endTenants.raise 272

/-- A member takes over (R632, R633). -/
def Dev.takeOver (d : Dev) (code : Nat) (org : Origin) : Dev :=
  let d := { d with twin := { d.twin with staging := none, open_ := none, unacked := [], active := true } }
  let d := d.each (d.present.filter (fun n => n ≠ 0 && (d.stateByte n = 1 || d.stateByte n = 2))) (fun d n => d.is n 0 1 2)
  let d := (d.sb F.pitTwinStatus_peer_ok false).setRole 2 code org
  (d.bump F.pitCntTakeover_count).raise 270

/-- A member that finds the other one active is demoted (R634). -/
def Dev.demote (d : Dev) (org : Origin) : Dev :=
  let d := (d.setRole 1 2 org).sb F.pitTwinStatus_lease_held false
  let d := { d with twin := { d.twin with active := false } }
  (d.raise 271).reform 2 org

/-- The elect becomes active (R624). -/
def Dev.becomeActive (d : Dev) : Dev := ({ d with twin := { d.twin with elect := false, active := true } }).setRole 2 0 hwPit

/-- The standby hears nothing for silence, or FP7 is down: it is detached and asks for the hold (R632). -/
def Dev.activeLost (d : Dev) : Dev :=
  if d.role ≠ 3 || (d.linkState 7 ≠ 0 && d.now < d.twin.heard + 1000 * d.g F.pitTwinCfg_silence) then d
  else
    let d := ((d.setRole 4 4 hwPit).sb F.pitTwinStatus_peer_ok false).raise 269
    if d.gb F.pitTwinStatus_image_ok then d.askHold else d

/-- HACQ was answered CPL with a detail (R624, R630, R632). -/
def Dev.hacqDone (d : Dev) (detail : Nat) : Dev :=
  let r := d.role
  if r = 1 && d.twin.elect then d.leaseHeld.becomeActive
  else if r = 2 then d.leaseHeld
  else if r = 5 then
    if detail ≤ 1 then
      let f := d.leaseHeld.takeFree
      f.2.setRole 2 (f.1.toNat % 16) hwPit
    else d.leaseHeld
  else if r = 4 && detail ≤ 1 && d.gb F.pitTwinStatus_image_ok then d.leaseHeld.takeOver 1 hwPit
  else d

/-- An answer of the witness (R624, R629 to R634, R644). -/
def Dev.twinAnswer (d : Dev) (a : Nat × Nat × Nat × Nat) : Dev :=
  let op := a.1
  let code := a.2.1
  let detail := a.2.2.1
  if (code = 4 ∧ detail = 2) ∨ code = 5 ∨ code = 3 then d.raise 275
  else if op = 0x10 ∧ code = 0 then d.hacqDone detail
  else if op = 0x10 ∧ code = 2 ∧ detail = 1 ∧ d.role = 5 then d.demote hwPit
  else if op = 0x12 ∧ code = 0 then (if d.role = 2 then d.leaseHeld else d)
  else if op = 0x12 ∧ code = 7 ∧ (detail = 2 ∨ detail = 3) then (d.sb F.pitTwinStatus_lease_held false).askHold
  else d

/-- Every answer that has come is acted on, in order. -/
def Dev.twinAnswers (d : Dev) : Dev :=
  if d.twin.answers.isEmpty then d
  else ({ d with twin := { d.twin with answers := [] } }).each d.twin.answers Dev.twinAnswer

/-! ### Hellos (R624, R643) -/

/-- The held code of this member (R623, R643). -/
def Dev.heldCode (d : Dev) : Nat :=
  if d.twin.active then 1 else if d.gb F.pitTwinStatus_image_ok then 2 else 0

/-- This member's Hello (R623). -/
def Dev.ownTwinHello (d : Dev) : TwinHello :=
  ⟨1#8, d.serial, d.incarnation, d.addr, BitVec.ofNat 8 (d.g F.genStrapSd_sd / 128 % 4), BitVec.ofNat 8 d.heldCode,
    if d.role = 2 then 2#8 else if d.role = 3 then 3#8 else 0#8, BitVec.ofNat 4 (d.sizeLvl 8), BitVec.ofNat 4 (d.sizeLvl 16), d.lastCommitted⟩

/-- A Hello is sent. -/
def Dev.sendTwinHello (d : Dev) : Dev := d.shadowSend (twinHelloBytes d.ownTwinHello)

/-- Every 1 ms until the pair forms, a member whose FP7 is Open sends a Hello (R624). -/
def Dev.twinHelloTime (d : Dev) : Dev :=
  if d.twinMember && d.fp7Open && !d.gb F.pitTwinStatus_peer_ok && (d.role = 1 || d.role = 2 || d.role = 3) then d.sendTwinHello else d

/-- No VC7 credit within 1 s of Open (R624). -/
def Dev.twinNoCredit (d : Dev) : Dev :=
  if d.twinMember && d.role = 1 && d.fp7Open && d.ded 7 7 + d.sharedCr 7 = 0 then d.raise 269 else d

/-- The rank of a held code (R624): active state before a standby image before nothing. -/
def heldRank (h : Nat) : Nat := if h = 1 then 0 else if h = 2 then 1 else 2

/-- One member ranks above the other (R624). -/
def twinRanks (a b : TwinHello) : Bool :=
  if heldRank a.held.toNat ≠ heldRank b.held.toNat then heldRank a.held.toNat < heldRank b.held.toNat
  else if a.pref ≠ b.pref then a.pref = 1#8
  else a.serial.toNat < b.serial.toNat

/-- The Hello of a standby or undecided peer reaches an active: epoch 0 begins once the peer is standby (R627). -/
def Dev.peerAtActive (d : Dev) (h : TwinHello) : Dev := if h.role = 3#8 && !d.gb F.pitTwinStatus_peer_ok then d.openEpoch0 else d

/-- A member becomes, or is again, the standby of an active peer (R624, R627). -/
def Dev.beStandby (d : Dev) (h : TwinHello) : Dev :=
  let d := if d.role = 3 then d else ({ d with twin := { d.twin with elect := false, active := false } }).setRole 3 0 (twinOrg h)
  if d.gb F.pitTwinStatus_peer_ok || d.twin.staging.any (fun e => e.num = 0#64) then d
  else { d with twin := { d.twin with staging := some ⟨0#64, [], false, 0#64, 0#64⟩ } }

/-- The ranking of two forming members (R624). -/
def Dev.rankPair (d : Dev) (h : TwinHello) : Dev :=
  if !twinRanks d.ownTwinHello h then { d with twin := { d.twin with elect := false } }
  else
    let d := { d with twin := { d.twin with elect := true } }
    if d.twinWitness.isSome then d.askHold else d.becomeActive

/-- A Hello arrives (R622, R624, R634, R641). -/
def Dev.twinHello (d : Dev) (h : TwinHello) : Dev :=
  let d := d.shadowTake (twinHelloBytes h)
  if !d.twinMember then d
  else if h.version ≠ 1#8 then d.shadowUndef
  else
    let d := d.twinHeard
    if h.sv8.toNat ≠ d.sizeLvl 8 || h.sv10.toNat ≠ d.sizeLvl 16 then d.raise 269
    else
      let d := { d with twin := { d.twin with peer := some h } }
      if h.role = 2#8 then
        if d.role = 2 || d.role = 5 then d.demote (twinOrg h) else if d.role = 1 || d.role = 3 then d.beStandby h else d
      else if d.role = 1 then d.rankPair h
      else if d.role = 2 then d.peerAtActive h
      else d

/-- A fresh session on FP7 re-forms the pair (R243, R627). -/
def Dev.twinFresh (d : Dev) : Dev := if d.twinMember && (d.role = 2 || d.role = 3 || d.role = 4) then d.reform 0 hwPit else d

/-! ### Commands (R631, R633, R636, R645, R648) -/

/-- The judgement of a write of pit.twin_witness, which takes effect at once (R631). -/
def Dev.judgeWitness (d : Dev) (c : WCtx) : WOut := match d.judgeTable c with
  | .ok old new rs ex _ => .ok old new rs ex (fun d =>
      let was := d.twinWitness
      let d := d.wr c.off new
      let now := d.twinWitness
      if d.role = 2 && d.gb F.pitTwinStatus_lease_held && was ≠ now then
        let d := { d with twin := { d.twin with oldWit := was.map (·.toNat), deadline := 0 } }
        let d : Dev := match was with
          | some w => d.twinAsk 0x11 w
          | none => d
        let d := d.sb F.pitTwinStatus_lease_held false
        match now with
        | some w => d.twinAsk 0x10 w
        | none => d
      else if d.role = 2 || (d.role = 1 && d.twin.elect) then d.askHold
      else d)
  | o => o

/-- The first check of R645 that a command fails: op 0 resume, 1 take over, 2 re-form. -/
def Dev.twinCheck (d : Dev) (op : Nat) : Option Nat :=
  let r := d.role
  if (op = 0 ∧ r ≠ 2) ∨ (op = 1 ∧ r ≠ 3 ∧ r ≠ 4) ∨ (op = 2 ∧ r ≠ 2 ∧ r ≠ 3) then some 2
  else if op = 3 then some 3
  else if op = 1 ∧ !d.gb F.pitTwinStatus_image_ok then some 4
  else if d.gb F.pitTwinCmdStatus_busy then some 5
  else none

/-- The effect of an accepted command: the tenants' resumption ends with RESUMPTION_COMPLETE (R633, R636). -/
def Dev.twinDo (d : Dev) (op : Nat) : Dev :=
  let done (d : Dev) : Dev := d.s F.pitTwinCmdStatus_result 1
  if op = 0 then (((d.sb F.pitTwinCmdStatus_busy true).s F.pitTwinCmdStatus_result 0).s F.pitResumeStatus_state 2).s F.pitResumeStatus_cause 4
  else if op = 1 then done (d.takeOver 5 .manager)
  else done (d.reform 5 .manager)

/-- The judgement of a write of pit.twin_cmd (R645). -/
def Dev.judgeTwinCmd (d : Dev) (c : WCtx) : WOut :=
  let x := c.data.toNat &&& c.mask
  let rs : Bool := 4 ≤ x
  if !woOk c.be 3 then .bad 0#64 rs false
  else match d.twinCheck (x % 4) with
  | some r => .badEff 0#64 (fun d => d.s F.pitTwinCmdStatus_result r)
  | none => .ok 0#64 0#64 rs false (fun d => d.twinDo (x % 4))

/-- The judgement of a write of pit.twin_cfg: silence is at least four epochs (R648). -/
def Dev.judgeTwinCfg (d : Dev) (c : WCtx) : WOut := match d.judgeTable c with
  | .ok old new rs ex eff => if 1000 * fieldOf new 15 8 < 4 * fieldOf new 31 16 then .bad old rs ex else .ok old new rs ex eff
  | o => o

/-- A snapshot of a shadow-log record (R570, R648). -/
def Dev.twinSnap (d : Dev) : Dev := match d.twin.slog.find? (d.rd R.pitTwinRdSeq).toNat with
  | none => d.s F.pitTwinRdStatus_state 1
  | some ws => ((List.zip (List.range 8) ws).foldl (fun (d : Dev) e => d.wr (R.pitTwinRdRec e.1) e.2) d).s F.pitTwinRdStatus_state 0

/-- The judgement of a write of pit.twin_rd_seq. -/
def Dev.judgeTwinRd (d : Dev) (c : WCtx) : WOut := match d.judgeTable c with
  | .ok old new rs ex _ => .ok old new rs ex (fun d => (d.wr c.off new).twinSnap)
  | o => o

/-- A read of the upper half of twin_rd_rec[7] (R570). -/
def Dev.twinAdvance (d : Dev) : Dev := (d.wr R.pitTwinRdSeq (d.rd R.pitTwinRdSeq + 1)).twinSnap

end Sys2Proof.Machine
end

