-- ==== Sys2Proof/Machine/Firewatch.lean ====
section
/-! DEFINITION. Firewatch (15): raises, the open event, reactions, escalation, acknowledgement, Grave and Fence, history, forcing, guylines and wear. -/
namespace Sys2Proof.Machine

/-! ### Sources (R517 to R522) -/

/-- A source in a domain that is in Retain or Off is clamped to Clear (R522). -/
def Dev.srcOn (d : Dev) (n : Nat) : Bool := match d.pdSt (srcDomain n) with
  | .on | .closing | .drained => true
  | .retain | .off | .hwOff | .autoOff | .poweringOff | .powerOn | .bvcOff => false

/-- The class of a source in force (R527, R528). -/
def Dev.srcCls (d : Dev) (n : Nat) : Nat := d.g (F.fwtSrcCfg_class n)

/-- The guyline of a source is broken (R521). -/
def Dev.srcBroken (d : Dev) (n : Nat) : Bool := (d.rd (R.fwtBroken (n / 32))).getLsbD (n % 32)

/-- The source is forced (R538). -/
def Dev.srcForced (d : Dev) (n : Nat) : Bool := (d.rd (R.fwtForceSet (n / 32))).getLsbD (n % 32)

/-- The source's own line is asserted. -/
def Dev.srcRaw (d : Dev) (n : Nat) : Bool := (d.fwt.raw.lk 0#32 (n / 32)).getLsbD (n % 32)

/-- The source's own line set or cleared. -/
def Dev.setRaw (d : Dev) (n : Nat) (b : Bool) : Dev :=
  { d with fwt := { d.fwt with raw := d.fwt.raw.upd 0#32 (n / 32) (fun w => BitVec.ofNat 32 (setBit w.toNat (n % 32) b)) } }

/-- The source reads as asserted (R538, R554). -/
def Dev.srcLive (d : Dev) (n : Nat) : Bool := d.srcRaw n || d.srcForced n

/-- A bit of a vector register set or cleared. -/
def Dev.setVec (d : Dev) (off i : Nat) (b : Bool) : Dev := d.wr off (BitVec.ofNat 64 (setBit (d.rd off).toNat i b))

/-! ### Records and history (R536, R537, R563, R565) -/

/-- The aux word of a Firewatch record (R565). -/
def Dev.fwtAux (d : Dev) (src : Nat) : Nat :=
  d.g F.fwtEvent_id + d.g F.fwtEvent_merges * 2 ^ 16 + src * 2 ^ 32 + b2n d.fwt.evForced * 2 ^ 41 + b2n d.fwt.evBroken * 2 ^ 42

/-- A record of the open event (R537). -/
def Dev.fwtRec (d : Dev) (kind old new src extra : Nat) : Dev :=
  let flags := 16 * b2n d.fwt.evForced + 32 * b2n (decide (0 < d.g F.fwtEvent_merges))
  d.log { d.evRec hwFwt kind (BitVec.ofNat 64 old) (BitVec.ofNat 64 new) (BitVec.ofNat 64 (d.fwtAux src + extra)) with flags := BitVec.ofNat 16 flags }

/-- First source of the event. -/
def Dev.evFirst (d : Dev) : Nat := d.g F.fwtEventSrc_first
/-- Class of the event. -/
def Dev.evClass (d : Dev) : Nat := d.g F.fwtStatus_class
/-- An event is open. -/
def Dev.evOpen (d : Dev) : Bool := d.gb F.fwtStatus_open

/-- The newest history entry as words. -/
def Dev.histWords (d : Dev) : List W64 :=
  let k := d.g F.fwtHistPos_newest
  [d.rd (R.fwtHist (4 * k)), d.rd (R.fwtHist (4 * k + 1)), d.rd (R.fwtHist (4 * k + 2)), d.rd (R.fwtHist (4 * k + 3))]

/-- The newest history entry replaced. -/
def Dev.setHist (d : Dev) (w : List W64) : Dev :=
  let k := d.g F.fwtHistPos_newest
  (List.zip (List.range 4) w).foldl (fun (d : Dev) e => d.wr (R.fwtHist (4 * k + e.1)) e.2) d

/-- The open event's entry updated: tally, merges, last source, class now (R536). -/
def Dev.histNote (d : Dev) : Dev :=
  let w := bput (bput d.histWords 8 8 d.tally.toNat) 18 2 (d.g F.fwtEvent_merges)
  let w := bput w 22 2 (d.g F.fwtEventSrc_last)
  d.setHist (bput w 24 1 (bget w 24 1 % 16 + d.evClass * 16))

/-- Reactions taken, joined into the entry's union. -/
def Dev.histReact (d : Dev) (bits : Nat) : Dev := d.setHist (bput d.histWords 25 1 (bget d.histWords 25 1 ||| bits))

/-- A new entry for the event just opened. -/
def Dev.histNew (d : Dev) : Dev :=
  let v := d.g F.fwtHistPos_valid
  let d := if v = 0 then d else d.s F.fwtHistPos_newest ((d.g F.fwtHistPos_newest + 1) % 16)
  let d := if 16 ≤ v then d.bump F.fwtHistLost_count else d.s F.fwtHistPos_valid (v + 1)
  let t := d.tally.toNat
  let w := bput (bput (List.replicate 4 0#64) 0 8 t) 8 8 t
  let w := bput (bput w 16 2 (d.g F.fwtEvent_id)) 20 2 (d.evFirst + b2n d.fwt.evBroken * 2 ^ 14 + b2n d.fwt.evForced * 2 ^ 15)
  d.setHist (bput (bput w 22 2 d.evFirst) 24 1 (d.evClass + d.evClass * 16))

/-- The entry's state, with its tally. -/
def Dev.histState (d : Dev) (st : Nat) : Dev := d.setHist (bput (bput d.histWords 27 1 st) 8 8 d.tally.toNat)

/-- No timer runs. -/
def noTimer : Nat := 0xFFFFFFFF

/-- The event ends: its entry's state, its record, no timer (R536, R565). -/
def Dev.endEvent (d : Dev) (st : Nat) : Dev :=
  let c := d.evClass
  let d := (d.histState st).fwtRec 3 c c d.evFirst (st * 2 ^ 48)
  let d := (d.sb F.fwtStatus_open false).s F.fwtEventLeft_us noTimer
  { d with fwt := { d.fwt with errTaken := false, graveReal := false } }

/-! ### The chip reaction (R127, R151, R526, R534, R535, R546) -/

/-- The Store placed in self-refresh with its contents: no seal, no arming, no HOLD_OK (R127). -/
def Dev.storePark (d : Dev) : Dev :=
  if d.gb F.stoStatus_ready && d.sto.live then { d with sto := { d.sto with held := true } } else d

/-- A chip reset (R127). -/
def Dev.chipReset (d : Dev) : Dev := (if d.limited then d else d.storePark).pitchStart 2 false

/-- Every Chrorath port goes to electrical idle; none of the causes of R218 applies. -/
def Dev.portsIdle (d : Dev) : Dev := d.each (List.range 12) (fun d p => d.phyStop p 0)

/-- The device enters Fence (R535). -/
def Dev.enterFence (d : Dev) : Dev :=
  let d := d.sb F.fwtStatus_fence true
  let d := { d with fwt := { d.fwt with err := true, errAt := d.now } }
  d.portsIdle

/-- Chip and Fence reactions are suppressed: the pitch waits at step 4, or Bivouac runs (R151, R546). -/
def Dev.chipHeld (d : Dev) : Bool := (d.pitStep = 4 && !d.complete && !d.pins.reff) || d.bvc.phase ≠ BvcPhase.none

/-- The chip reaction of the open event: a chip reset or Fence by the profile, which ends the event (R109, R526). -/
def Dev.chipReaction (d : Dev) : Dev :=
  if d.chipHeld then d.s F.fwtEventLeft_us noTimer
  else if bitOf d.profile 2 then
    if d.fence then d.s F.fwtEventLeft_us noTimer
    else ((d.histReact 64).fwtRec 6 0 0 d.evFirst 0).enterFence.endEvent 3
  else ((d.fwtRec 5 0 0 d.evFirst 0).endEvent 2).chipReset

/-- The event has reached Grave (R534, R546): the latch, the count, the delayed chip reset. -/
def Dev.graveLatch (d : Dev) (real : Bool) : Dev :=
  let d := { d with fwt := { d.fwt with grave := true, graveDue := decide (d.bvc.phase = BvcPhase.none) } }
  let d := if real && !d.fwt.graveReal then
      let n := satAdd 16 (d.bkp 56 + 256 * d.bkp 57) 1
      let d := (d.setBkp 56 (n % 256)).setBkp 57 (n / 256 % 256)
      { d with fwt := { d.fwt with graveReal := true } }
    else d
  let d := d.whenD (d.bvc.phase ≠ BvcPhase.none) (fun d => d.setBkp 58 (setBit (d.bkp 58) 2 true))
  d.histReact 128

/-! ### Reactions (R526, R527) -/

/-- The host reaction (R361, R367). -/
def Dev.hostReaction (d : Dev) (src : Nat) : Dev :=
  let c := d.evClass
  let d : Dev := if c = 0 then d else
    let e := (((d.s F.hstIntErr_source src).s F.hstIntErr_class c).sb F.hstIntErr_valid true)
    if c ≤ 2 then e.aerCor 0 14 else e.aerUnc 0 22 false
  d.fireVec 0 (d.g F.fwtIrqCfg_vector)

/-- The reactions of a raise or a step: err, irq, trap, host, block, chip. -/
def Dev.react (d : Dev) (bits src blk trap : Nat) (chip : Bool) : Dev :=
  let d := d.histReact (bits % 64)
  let d := if bitOf bits 5 then { d with fwt := { d.fwt with err := true, errAt := if d.fwt.err then d.fwt.errAt else d.now, errTaken := true } } else d
  let d := d.whenD (bitOf bits 0) (fun d => d.licPulse (550 + d.evClass))
  let d := d.whenD (bitOf bits 2) (fun d => d.licTrap trap)
  let d := d.whenD (bitOf bits 1) (fun d => d.hostReaction src)
  let d := d.whenD (bitOf bits 3 && blk ≠ 0xFF && d.bvc.phase = BvcPhase.none) (fun d => d.fwtBlockReset blk)
  d.whenD (chip && bitOf bits 4) Dev.chipReaction

/-- The trap of a raise by the event's class: 1016, 1017 or 1018 (R526), as an offset from 1016. -/
def trapOf (c : Nat) : Nat := if c ≤ 3 then 0 else if c = 4 then 1 else 2

/-! ### Raises, opening and merging (R523 to R525, R543) -/

/-- A raise opens an event (R524). -/
def Dev.openEvent (d : Dev) (q : RaiseQ) (c : Nat) : Dev :=
  let id := d.g F.fwtEvent_id + 1
  let d := d.wr R.fwtEvent (BitVec.ofNat 64 (if id = 65536 then 1 else id))
  let d := (d.s F.fwtEventSrc_first q.src).s F.fwtEventSrc_last q.src
  let d := (d.sb F.fwtStatus_open true).s F.fwtStatus_class c
  let d := d.s F.fwtEventLeft_us (if 1 ≤ c ∧ c ≤ 4 then d.fwtTimer c else noTimer)
  let d := { d with fwt := { d.fwt with evForced := q.forced, evBroken := q.broken, errTaken := false, graveReal := false } }
  d.histNew.fwtRec 1 0 c q.src 0

/-- A raise merges into the open event (R525). -/
def Dev.mergeEvent (d : Dev) (q : RaiseQ) (c : Nat) : Dev :=
  let was := d.evClass
  let now := max was c
  let left := d.g F.fwtEventLeft_us
  let t := d.fwtTimer now
  let left' := if now = was then left else if now = 5 then noTimer else if was = 0 then t else if left = noTimer then left else min left t
  let d := (d.bump F.fwtEvent_merges).s F.fwtEventSrc_last q.src
  ((d.s F.fwtStatus_class now).s F.fwtEventLeft_us left').histNote

/-- One raise (R523): counted, latched, into an event, then its reactions in the event's class. -/
def Dev.raised (d : Dev) (q : RaiseQ) : Dev :=
  let n := q.src
  let c := d.srcCls n
  let d := (d.bump (F.fwtSrcCount_raises n)).setVec (R.fwtLatched (n / 32)) (n % 32) true
  let d := if n = 42 then { d with fwt := { d.fwt with f042 := q.port } } else d
  let before := if d.evOpen then d.evClass else 0
  let d := if d.evOpen then d.mergeEvent q c else d.openEvent q c
  let d := d.whenD (c = 5) (fun d => (d.graveLatch (!q.forced)).whenD (before ≠ 5) (fun d => d.fwtRec 7 0 0 d.evFirst 0))
  let blk := if n = 42 then q.port else srcBlock d n
  d.react (d.g (F.fwtSrcCfg_reactions n)) n blk (trapOf d.evClass) (c ≠ 5)

/-- A raise reaches Firewatch (R517, R521 to R523): from a source that exists, is not clamped, not unknown, and was Clear. -/
def Dev.takeRaise (d : Dev) (q : RaiseQ) : Dev :=
  let n := q.src
  let asserted := if q.forced then d.srcRaw n else d.srcLive n
  if (srcClass n).isNone || (!q.forced && !d.srcOn n) || (!q.forced && !q.broken && d.srcBroken n && d.srcCls n < 4) then d
  else
    let d := d.whenD q.level (fun d => d.setRaw n true)
    if asserted then d else d.raised q

/-- A raise in its place by source number (R543). -/
def insertRaise (q : RaiseQ) (l : List RaiseQ) : List RaiseQ := match l with
  | [] => [q]
  | x :: t => if q.src < x.src then q :: x :: t else x :: insertRaise q t

/-- The raises of one instant, in ascending source order; what they raise in turn follows. -/
def Dev.fwtRun (d : Dev) (fuel : Nat) : Dev := match fuel with
  | 0 => d
  | f + 1 =>
    if d.fwt.queue.isEmpty then d
    else
      let l := d.fwt.queue.foldl (fun (a : List RaiseQ) q => insertRaise q a) []
      (({ d with fwt := { d.fwt with queue := [] } }).each l Dev.takeRaise).fwtRun f

/-! ### Escalation, acknowledgement and Grave (R529, R532 to R535, R549) -/

/-- One more escalation step in the history, and its record. -/
def Dev.stepNote (d : Dev) (old new : Nat) : Dev :=
  let d := d.setHist (bput d.histWords 26 1 (min 255 (bget d.histWords 26 1 + 1)))
  d.histNote.fwtRec 2 old new (d.g F.fwtEventSrc_last) 0

/-- The escalation timer reaches zero (R529). -/
def Dev.escalate (d : Dev) : Dev :=
  let c := d.evClass
  if !d.evOpen || c = 0 || 5 ≤ c || d.fence || d.g F.fwtEventLeft_us = noTimer then d
  else if c = 4 then (d.stepNote 4 4).chipReaction
  else
    let d := (d.s F.fwtStatus_class (c + 1)).s F.fwtEventLeft_us (d.fwtTimer (c + 1))
    let d := d.stepNote c (c + 1)
    d.react (classReactions d.profile (c + 1) (srcOwned d.evFirst)) d.evFirst (srcBlock d d.evFirst) 3 false

/-- 10 ms after the Grave latch the chip is reset (R534, R546, R547). -/
def Dev.graveReset (d : Dev) : Dev :=
  if !d.fwt.graveDue then d
  else
    let d := { d with fwt := { d.fwt with graveDue := false } }
    if d.chipHeld then d
    else
      let d := d.fwtRec 5 0 0 d.evFirst 0
      (d.whenD (d.evOpen && d.evClass = 5) (fun d => d.endEvent 4)).chipReset

/-- The outcome of an acknowledgement (R532, R553). -/
def Dev.ackResult (d : Dev) (id merges : Nat) : Nat :=
  if id = 0 then 3
  else if !d.evOpen then 2
  else if id ≠ d.g F.fwtEvent_id then 3
  else if merges ≠ d.g F.fwtEvent_merges then 4 else 1

/-- The judgement of a write of fwt.ack (R532, R549). -/
def Dev.judgeAck (d : Dev) (c : WCtx) : WOut :=
  if !woOk c.be 0xFFFFFFFF then .bad 0#64 false false
  else
    let r := d.ackResult (fieldOf c.data 15 0) (fieldOf c.data 31 16)
    if r = 1 then .ok 0#64 0#64 false false (fun d => (d.endEvent 1).s F.fwtAckStatus_result 1)
    else .badEff 0#64 (fun d => d.s F.fwtAckStatus_result r)

/-- The ERR pair is released once nothing keeps it asserted and 1 ms has passed (R531). -/
def Dev.errKept (d : Dev) : Bool := (d.evOpen && d.fwt.errTaken) || d.fence || d.fwt.grave || d.now < d.fwt.errAt + 1000
@[inherit_doc Dev.errKept] def Dev.errReleased (d : Dev) : Dev := if d.errKept then d else { d with fwt := { d.fwt with err := false } }

/-! ### Configuration and forcing (R528, R530, R538, R544, R551) -/

/-- The judgement of a write of fwt.src_cfg[n] (R528, R544): reserved where the source is, its block bit reserved without an owning block. -/
def Dev.judgeSrcCfg (d : Dev) (n : Nat) (c : WCtx) : WOut :=
  let cur := d.rd (R.fwtSrcCfg n)
  let m := c.mask
  let x := c.data.toNat &&& m
  let fields := if (srcClass n).isNone then 0 else if srcOwned n then 0x73F else 0x737
  let rs : Bool := x &&& fields ≠ x
  let new := (x &&& fields) ||| (cur.toNat &&& (0xFFFFFFFF ^^^ (m &&& fields)))
  let cls := new / 256 % 8
  if 5 < cls || cls < cur.toNat / 256 % 8 || (cur.toNat &&& 0x3F) &&& new ≠ (cur.toNat &&& 0x3F) then .bad cur rs false
  else .ok cur (BitVec.ofNat 64 new) rs false (fun d =>
    let d := d.wr (R.fwtSrcCfg n) (BitVec.ofNat 64 new)
    if d.srcBroken n && 4 ≤ cls && !d.srcRaw n then { d with fwt := { d.fwt with queue := d.fwt.queue ++ [⟨n, true, d.fwt.f042, false, true⟩] } } else d)

/-- The judgement of a write of a timer: a shortened one applies to the running event of its class (R530). -/
def Dev.judgeTimer (d : Dev) (c : WCtx) : WOut := match d.judgeTable c with
  | .ok old new rs ex _ => .ok old new rs ex (fun d =>
      let d := d.wr c.off new
      let left := d.g F.fwtEventLeft_us
      if d.evOpen && d.evClass = (c.off - R.fwtTimer 0) / 4 + 1 && left ≠ noTimer then d.s F.fwtEventLeft_us (min left (new.toNat % 2 ^ 32)) else d)
  | o => o

/-- Implemented sources of a word, as a mask. -/
def srcMask (w : Nat) : Nat := (List.range 32).foldl (fun a b => if (srcClass (32 * w + b)).isSome then a + 2 ^ b else a) 0

/-- The judgement of a force write: `set` or clear (R538, R551). Its record carries the forced flag. -/
def Dev.judgeForce (d : Dev) (w : Nat) (set : Bool) (c : WCtx) : WOut :=
  let cur := d.rd (R.fwtForceSet w)
  let x := c.data.toNat &&& c.mask
  let bits := x &&& srcMask w
  let rs : Bool := bits ≠ x
  let ns := (List.range 32).filter (fun b => bitOf bits b)
  let grave := set && !d.testEn && ns.any (fun b => d.srcCls (32 * w + b) = 5)
  let new := if set then cur.toNat ||| bits else cur.toNat &&& (0xFFFFFFFF ^^^ bits)
  let flag (d : Dev) (r : Nat) (nw : W64) : Dev := d.log (d.recOf c (16 + 4 * b2n rs + 1024 * b2n (decide (r = 0 ∧ cur = nw)) + r) cur nw)
  let eff (d : Dev) : Dev :=
    if !d.swRoom 1 then d.holdRefuse
    else if grave then flag d 1 cur
    else
      let d := flag d 0 (BitVec.ofNat 64 new)
      let fresh := if set then (ns.filter (fun b => !d.srcLive (32 * w + b))).map (fun b => (⟨32 * w + b, false, d.fwt.f042, true, false⟩ : RaiseQ)) else []
      let d := d.wr (R.fwtForceSet w) (BitVec.ofNat 64 new)
      { d with fwt := { d.fwt with queue := d.fwt.queue ++ fresh } }
  .ok cur (BitVec.ofNat 64 new) rs true eff

/-! ### Guylines and wear (R521, R539) -/

/-- A guyline that can break: F000 to F015 have none, and the source's domain is On (R521, R522, log entry 124). -/
def Dev.hasGuyline (d : Dev) (n : Nat) : Bool := 16 ≤ n && (srcClass n).isSome && d.srcOn n

/-- The record of a guyline (R565). -/
def Dev.guyRec (d : Dev) (n : Nat) (broken : Bool) : Dev := d.logEv hwFwt 8 (b2n (!broken)) (b2n broken) n

/-- A pair is confirmed broken (R521). -/
def Dev.guyBroken (d : Dev) (n : Nat) : Dev :=
  if !d.hasGuyline n || d.srcBroken n then d
  else
    let d := (d.setVec (R.fwtBroken (n / 32)) (n % 32) true).guyRec n true
    if 4 ≤ d.srcCls n then { d with fwt := { d.fwt with queue := d.fwt.queue ++ [⟨n, true, d.fwt.f042, false, true⟩] } } else d.raise 9

/-- A broken pair reads asserted or clear again (R521, R544). -/
def Dev.guyMended (d : Dev) (n : Nat) (asserted : Bool) : Dev :=
  if !d.hasGuyline n || !d.srcBroken n then d
  else
    let d := (d.setVec (R.fwtBroken (n / 32)) (n % 32) false).guyRec n false
    if asserted then d.raiseLvl n else d.setRaw n false

/-- One sentinel measured (R539): asserted while the slowdown is at least the threshold. -/
def Dev.wearOne (d : Dev) (k x : Nat) : Dev :=
  let d := (d.s (F.fwtWear_slowdown k) x).sb (F.fwtWear_valid k) true
  if d.g F.fwtWearThresh_limit ≤ x then (if d.srcRaw (480 + k) then d else d.raiseLvl (480 + k)) else d.setRaw (480 + k) false

/-- The sentinels are measured (R539): those whose domain is On. -/
def Dev.wearAll (d : Dev) (xs : List Nat) : Dev :=
  (List.zip (List.range 16) xs).foldl (fun (d : Dev) e => if d.srcOn (480 + e.1) then d.wearOne e.1 e.2 else d) d

end Sys2Proof.Machine
end

