-- ==== Sys2Proof/Machine/Bivouac.lean ====
section
/-! DEFINITION. Bivouac (R605 to R613, R638 to R640), the reset seal (R126, R176), and power failing during a pitch (R147, R148). -/
namespace Sys2Proof.Machine

/-! ### The start (R605, R607, R608) -/

/-- No seal may be written: Fence, or a ChipFatal or Grave event open (R126, R607). -/
def Dev.sealBarred (d : Dev) : Bool := d.fence || (d.evOpen && 4 ≤ d.evClass)

/-- Step 1: lines are sent, trackers aborted, scrub stopped; the record, F264 and event 547; a re-pitch or drain under way ends; an active member closes its epoch (R608, R611, R640). -/
def Dev.bvcStart (d : Dev) (trigger : Nat) : Dev :=
  let barred := d.sealBarred
  let d := ((d.flushLines (fun _ => true)).dlAbort).sb F.stoStatus_scrub_on false
  let d := { d with bvc := { d.bvc with phase := .drain, trigger := trigger, tally := d.tally, noSeal := barred } }
  let d := ((d.logEv hwPit 40 0 0 (trigger + 256 * b2n barred)).raise 264).licPulse 547
  d.abandonWork.closeEpoch

/-! ### The end of the drain (R608 step 3, R610) -/

/-- What the resequencer, the local streams and the turn path hold ends. -/
def Dev.parkEnd (d : Dev) : Dev × Nat :=
  let ks := d.trn.park.map (fun q => q.pkt)
  let ls := d.trn.lpark
  let ts := d.iso.turn.filter (fun k => k.opcode ≠ 0x80#8)
  let d := { d with trn := { d.trn with park := [], lpark := [] }, iso := { d.iso with turn := [] } }
  let d := d.each ks (fun d k => d.refuse k 3 1 (fun d => d.lostPosted (sliceDomain k.di) 1))
  let d := d.each ts (fun d k => d.refuse k 3 1 (fun d => d.lostPosted 52 1))
  let d := d.each ls (fun d q => match q.via with
    | .loc p => if q.pkt.posted then d.lostPosted (linkDomain (8 + p.val)) 1 else d.localReply p.val q.pkt 3 1 0
    | .fabric _ | .turn => d)
  (d, ((ks ++ ts ++ ls.map (fun q => q.pkt)).filter (fun k => !k.posted)).length)

/-- The work of every block ends (R610): the device, and the requests answered GONE 1. -/
def Dev.allEnd (d : Dev) : Dev × Nat :=
  let tags := (d.trn.tags.filter (fun e => !e.2.pkt.posted)).length
  let d := d.endTags (fun _ => true) 3 1
  let p := d.parkEnd
  let blocks := (List.range 8).map (· + 0x20) ++ (List.range 4).map (· + 0x38) ++ [0x41] ++ List.range 12
  let r := blocks.foldl (fun (a : Dev × Nat) b => let e := a.1.workEnd b 0; (e.1, a.2 + e.2)) (p.1, tags + p.2)
  let e := r.1.egress 12
  (if e.groups.isEmpty then r.1 else r.1.hostPathLost, r.2)

/-- Lost posted writes not yet in a record. -/
def Dev.lostPending (d : Dev) : Nat := (d.pd.lost.map (fun e : Nat × Nat => e.2)).foldl (· + ·) 0

/-- Admitted posted writes that the end of the drain would count (R610). -/
def Dev.postedHeld (d : Dev) : Nat := d.allEnd.1.lostPending - d.lostPending

/-- Domains lo to hi in Off by Bivouac. -/
def Dev.bvcOff (d : Dev) (lo hi : Nat) : Dev := d.each ((List.range (hi + 1 - lo)).map (· + lo)) (fun d k => (d.clampDom k).setPd k .bvcOff)

/-- Step 3 (R608, R610): the drain's end, F265 where writes were counted, ports idle, D2 to D30 Off. -/
def Dev.bvcClose (d : Dev) : Dev :=
  let n := d.postedHeld
  let e := d.allEnd
  let d := (e.1.goneSynth e.2).whenD (0 < n) (fun d => d.raise 265)
  let d := { d with bvc := { d.bvc with lost := n } }
  let d := (d.portsIdle.bvcOff 2 30).logEv hwPit 41 0 0 (n % 2 ^ 32 + b2n (decide (0 < n)) * 2 ^ 32)
  d.fwtRun 16

/-! ### Steps 4 to 7 (R608, R612, R614) -/

/-- The seal is incomplete: posted writes were counted, or a discard was under way (R610, R639). -/
def Dev.sealIncomplete (d : Dev) : Bool := decide (0 < d.bvc.lost) || decide (d.g F.pitResumeStatus_state = 4)

/-- Steps 4 and 5: the write-back, the route snapshot, the warm image, every staged record and the kind 42 record. -/
def Dev.writeBack (d : Dev) : Dev :=
  let seq := d.bkpW 13
  let d := ({ d with sto := { d.sto with image := d.imageRegs } }).snapWrite
  let d := d.flushAll
  let ws := d.clg.watch
  let d := ({ d with clg := { d.clg with watch := [] } }).each ws Dev.ringWrite
  let d := (d.logEv hwPit 42 seq.toNat (seq + 1).toNat (b2n d.sealIncomplete)).flushAll
  d.logHeader

/-- The seal (R612). -/
def Dev.makeSeal (d : Dev) : Seal :=
  let sv := (List.range 16).foldl (fun a k => a + d.svSampled k * 16 ^ k) 0
  { seq := d.bkpW 13 + 1, inc := d.incarnation, tally := d.bvc.tally, trigger := d.bvc.trigger, incomplete := d.sealIncomplete,
    sd := BitVec.ofNat 32 (d.g F.genStrapSd_sd % 2 ^ 24 + b2n d.testEn * 2 ^ 24), sv := BitVec.ofNat 64 sv, token := d.bvc.token,
    head := d.rd R.clgHead, chain := d.headChain, lost := d.bvc.lost, role := d.role, imageOk := d.gb F.pitTwinStatus_image_ok,
    epoch := d.lastCommitted, boundary := d.rd R.pitTwinBoundary, peer := (d.twin.peer.map (fun h => h.serial)).getD 0#64 }

/-- Steps 6 and 7: seal A then seal B, backup bytes 52 to 55 and 59, the sealed bit, and the incomplete bit where R610 requires it. -/
def Dev.writeSeal (d : Dev) : Dev :=
  let s := d.makeSeal
  let d := ({ d with sto := { d.sto with sealA := some s, sealB := some s } }).stoMove 7 0x20000
  let d := (d.setBkpW 13 s.seq).setBkp 59 0
  d.setBkp 58 (setBit (setBit (d.bkp 58) 3 true) 2 (bitOf (d.bkp 58) 2 || s.incomplete))

/-! ### The hold (R79, R176, R608 step 8) -/

/-- The Store enters self-refresh, HOLD_OK is asserted, the monitor armed and the broken bit cleared; every domain but D0 and D1 is Off. -/
def Dev.holdEntry (d : Dev) : Dev :=
  let d := { d with sto := { d.sto with held := d.sto.live } }
  let d := { d with pins := { d.pins with holdOk := true } }
  (d.setBkp 58 (setBit (setBit (d.bkp 58) 0 true) 1 false)).bvcOff 2 63

/-- Uncorrectable errors that the write-back and the seal write meet, by their rows but for port actions (R186). -/
def Dev.bvcMeets (d : Dev) (bad : List BadUnit) : Dev := (d.each bad (fun d b => if b.crc then d.crcPage b.addr else d.ueUnit b.addr)).fwtRun 16

/-- Steps 3 to 8, and the pitch that a reset seal leads to (R126, R608). -/
def Dev.bvcFinish (d : Dev) (bad : List BadUnit) : Dev :=
  let d := d.bvcClose
  let d := if d.bvc.noSeal then d else d.bvcMeets bad
  let d := if d.bvc.noSeal then d.flushAll.setBkp 58 (setBit (d.bkp 58) 2 true) else d.writeBack.writeSeal
  let d := d.holdEntry
  let d := { d with bvc := { d.bvc with phase := .held } }
  d.whenD (d.bvc.trigger = 2) (fun d => d.pitchStart 1 true)

/-- The drain ends because no admitted posted write remains, or because its budget has run out (R608, R610). -/
def Dev.bvcDrained (d : Dev) (budget : Bool) (bad : List BadUnit) : Dev :=
  if d.bvc.phase = BvcPhase.drain && (budget || d.postedHeld = 0) then d.bvcFinish bad else d

/-! ### Triggers (R147, R148, R152, R605, R607) -/

/-- Power fails during a pitch that has held state to keep, or none to seal: no Bivouac; the Store to self-refresh, the monitor armed again, HOLD_OK asserted (R147, R148). -/
def Dev.pitchCut (d : Dev) : Dev :=
  let d := { d with sto := { d.sto with held := d.sto.held || d.sto.live } }
  let d := { d with pins := { d.pins with holdOk := true }, bvc := { d.bvc with phase := .held } }
  ((d.setBkp 58 (setBit (d.bkp 58) 0 true)).portsIdle).bvcOff 2 63

/-- Bivouac in a limited pitch: no seal, byte 58 and the hold stay (R607). -/
def Dev.bvcLimited (d : Dev) : Dev :=
  let d := { d with bvc := { d.bvc with phase := .held, noSeal := true } }
  ((d.raise 264).licPulse 547).bvcOff 2 63

/-- PWRFAIL_N or the monitor triggers (R605, R679); where there is no seal to write there is no drain (R607). -/
def Dev.bvcTrigger (d : Dev) (trigger : Nat) : Dev :=
  if !d.pins.main || d.bvc.phase ≠ BvcPhase.none then d
  else if d.limited then d.bvcLimited
  else if d.pitStep < 8 || (!d.complete && !d.gb F.pitPitchStatus_warm) then d.pitchCut
  else
    let d := d.bvcStart trigger
    if d.bvc.noSeal then (d.fwtRun 16).bvcFinish [] else d

/-- Main power stayed: a pitch as at power-up, and F268 (R638). -/
def Dev.returnNoLoss (d : Dev) : Dev := if d.pins.main && d.bvc.phase = BvcPhase.held then (d.pitchStart 0 false).raise 268 else d

/-- REFF fails during Bivouac before the seal is written: the held state is marked incomplete and the hold entered (R52). -/
def Dev.bvcNoReff (d : Dev) : Dev :=
  if d.bvc.phase = BvcPhase.drain then (d.setBkp 58 (setBit (d.bkp 58) 2 true)).whenD true (fun d => ({ d with bvc := { d.bvc with noSeal := true } }).bvcFinish []) else d

end Sys2Proof.Machine
end

