-- ==== Sys2Proof/Machine/Pins.lean ====
section
/-! DEFINITION. Pins, supplies, reference clocks and sensors (19): main power, PERST_N, PWRFAIL_N, rails, temperature, REFCLK and REFF, and the host link's power states and resets that come from outside. -/
namespace Sys2Proof.Machine

/-- Main power is on and the device is not held (R608): its domains can act. -/
def Dev.powered (d : Dev) : Bool := d.pins.main && d.bvc.phase ≠ BvcPhase.held

/-! ### Main power (R55, R147, R606, R658, R660, R663, R679) -/

/-- The main rails have been good for 2 ms: the Watch domain leaves its power-on reset, and a pitch starts (R125, R658). -/
def Dev.railsGood (d : Dev) : Dev :=
  if d.pins.main then d
  else
    let d := d.freshStart .vmain
    let d := { d with pins := { d.pins with main := true } }
    ({ d with emb := { d.emb with vmain := true } }).pitchStart 0 false

/-- The main rails fall away (R660, R663): every domain but Ember loses its state, the Watch domain's latch and staged records too; the Store keeps what it holds while HOLD_OK is high. -/
def Dev.powerLost (d : Dev) : Dev :=
  if !d.pins.main then d
  else
    let d := d.pitchClear
    let d := { d with fwt := Dev.reset.fwt, pd := Dev.reset.pd, clg := { d.clg with watch := [], missed := 0 } }
    let d := { d with pins := { d.pins with main := false }, emb := { d.emb with subst := false, goodPend := false, winOk := false, frz := [], wall := none } }
    let d := d.substBits
    if d.pins.holdOk then d else { d with sto := { d.sto with held := false, live := false } }

/-! ### PERST_N (R126, R127, R149, R150, R152, R638) -/

/-- PERST_N during a pitch: the host port alone is reset, and step 9 is ahead of it again (R149). -/
def Dev.hostPortReset (d : Dev) : Dev :=
  let d := d.hostPathLost
  let d := { d with hst := { d.hst with cfg := [], msix := [], pba := [], reqs := [], dlUp := false, l1 := .l1 } }
  let d := ((((d.s F.hstStatus_ltssm 0).sb F.hstStatus_dl_up false).s F.hstStatus_flit 0).s F.hstStatus_speed 0).s F.hstStatus_width 0
  ({ d with pit := { d.pit with ready := false } }).sb F.pitPitchStatus_config_ready false

/-- PERST_N is recognised low (R126, R149, R152, R638). -/
def Dev.perstLow (d : Dev) : Dev :=
  let was := d.pins.perst
  let d := { d with pins := { d.pins with perst := true } }
  if was || !d.pins.main || d.bvc.phase ≠ BvcPhase.none then d
  else if d.limited then (if d.pit.ready then d.pitchStart 1 false else d.hostPortReset)
  else if !d.complete then d.hostPortReset
  else if d.sealBarred then d.storePark.pitchStart 1 false
  else
    let d := { d with hst := { d.hst with dlUp := false } }
    (d.sb F.hstStatus_dl_up false).bvcStart 2

/-- PERST_N is released (R128, R137). -/
def Dev.perstHigh (d : Dev) : Dev := { d with pins := { d.pins with perst := false } }

/-! ### Rails (R656, R658, R680, R684, R685) -/

/-- The tolerance of a rail in mV (R656): rails 0 to 6. -/
def railTol (k : Nat) : Nat × Nat := nth [(728, 772), (873, 927), (1164, 1236), (1710, 1890), (3135, 3465), (1067, 1133), (380, 420)] k (0, 0)

/-- The trip level of a monitored rail in mV (R658). -/
def railTrip (k : Nat) : Nat := nth [700, 850, 1140, 1650, 3000] k 0

/-- A reading lies outside the tolerance of its rail. -/
def railOut (k mv : Nat) : Bool := decide (mv < (railTol k).1) || decide ((railTol k).2 < mv)

/-- One rail read (R685). -/
def Dev.railRead (d : Dev) (k mv : Nat) : Dev := (d.s (F.genRail_mv k) mv).sb (F.genRail_out_of_tol k) (railOut k mv)

/-- The rails are read (R680, R684, R685): F016 to F020 while a rail is outside tolerance and above its trip level, F021 for the Store's rails in service. -/
def Dev.railsRead (d : Dev) (mv : List Nat) : Dev :=
  if !d.pins.main then d
  else
    let xs := (List.zip (List.range 7) mv)
    let d := d.each xs (fun d e => d.railRead e.1 (e.2 % 8192))
    let d := d.each (xs.filter (fun e => e.1 < 5)) (fun d e => d.srcCond (16 + e.1) (railOut e.1 e.2 && decide (railTrip e.1 < e.2)))
    d.srcCond 21 (d.complete && xs.any (fun e => 5 ≤ e.1 && railOut e.1 e.2))

/-- VBAT is measured under load (R684, R685). -/
def Dev.vbatRead (d : Dev) (mv : Nat) : Dev :=
  if !d.pins.main then d
  else
    let d := (d.s (F.genRail_mv 7) mv).sb (F.genRail_out_of_tol 7) (mv < 2200)
    let d := if 1800 ≤ mv then { d with emb := { d.emb with vbat := true } } else d
    d.srcCond 22 (mv < 2200)

/-! ### Temperature (R164, R181, R671, R681, R684, R685) -/

/-- A list of numbers in ascending order, with one more. -/
def insertInt (x : Int) (l : List Int) : List Int := match l with
  | [] => [x]
  | y :: t => if x ≤ y then x :: y :: t else y :: insertInt x t

/-- Twice the median of six numbers: the sum of the two in the middle. -/
def median2 (l : List Int) : Int :=
  let s := l.foldl (fun (a : List Int) x => insertInt x a) []
  nth s 2 0 + nth s 3 0

/-- Sensor k of a reading is to be excluded (R681), in units of 0.125 °C. -/
def tempBad (temps : List Int) (k : Nat) : Bool :=
  let x := nth temps k 0
  let others := ((List.range 7).filter (fun i => i ≠ k)).map (fun i => nth temps i 0)
  decide (x < -440) || decide (1200 < x) || (k < 7 && decide (240 < (2 * x - median2 others).natAbs))

/-- The eight sensors are read (R671, R681, R685). -/
def Dev.tempStore (d : Dev) (temps : List Int) : Dev :=
  let d := d.each (List.range 8) (fun d k => (d.s (F.genTemp_temp k) (nth temps k 0 % 4096).toNat).sb (F.genTemp_valid k) true)
  let fresh := (List.range 8).filter (fun k => !d.gb (F.genTemp_excluded k) && tempBad temps k)
  d.each fresh (fun d k => (d.sb (F.genTemp_excluded k) true).raise 26)

/-- The hottest bridge junction of a reading; none while every bridge sensor is excluded (R671). -/
def Dev.hottest (d : Dev) (temps : List Int) : Option Int :=
  (((List.range 7).filter (fun k => !d.gb (F.genTemp_excluded k))).map (fun k => nth temps k 0)).foldl
    (fun (a : Option Int) x => match a with
      | none => some x
      | some y => some (max x y)) none

/-- A source with a level at which it is raised and one at or below which it clears. -/
def Dev.tempSrc (d : Dev) (n : Nat) (on off x : Int) : Dev := if on ≤ x then d.raiseLvl n else if x ≤ off then d.clearSrc n else d

/-- A temperature reading (R164, R181, R671, R681, R684). -/
def Dev.tempsRead (d : Dev) (temps : List Int) : Dev :=
  if !d.pins.main then d
  else
    let first := !d.gb (F.genTemp_valid 0)
    let d := d.tempStore temps
    let d := match d.hottest temps with
      | none => d
      | some h =>
        let old := signedOf 12 (d.g F.genTempMax_temp)
        let top := if first then h else max old h
        (((d.s F.genTempMax_temp (top % 4096).toNat).tempSrc 23 880 840 h).tempSrc 24 1000 960 h).tempSrc 25 1080 1040 h
    let s := nth temps 7 0
    if d.gb (F.genTemp_excluded 7) then d.sb F.stoStatus_hot true
    else
      let d := d.sb F.stoStatus_hot (680 < s)
      if 840 < s then d.raiseLvl 50 else if s < 800 then d.clearSrc 50 else d

/-! ### Reference clocks (R34, R52, R151) -/

/-- The data link goes down (R363, R366, R379, R380): F208 while PERST_N is released, and the block reset of D6. -/
def Dev.linkDown208 (d : Dev) : Dev := ((d.linkLost 0).hstCounters).whenD (!d.pins.perst) (fun d => d.raise 208)

/-- REFCLK is lost (R34): the host link goes down, F000. -/
def Dev.refclkGone (d : Dev) : Dev :=
  if !d.powered || !d.pins.refclk then { d with pins := { d.pins with refclk := false } }
  else
    let d := { d with pins := { d.pins with refclk := false } }
    (d.whenD d.hst.dlUp Dev.linkDown208).raiseLvl 0

/-- REFCLK is present again (R151). -/
def Dev.refclkBack (d : Dev) : Dev := ({ d with pins := { d.pins with refclk := true } }).whenD d.powered (fun d => d.clearSrc 0)

/-- REFF is lost (R34, R52, R58): F001, the Store to self-refresh; during Bivouac the hold is entered without a seal. -/
def Dev.reffGone (d : Dev) : Dev :=
  if !d.powered || !d.pins.reff then { d with pins := { d.pins with reff := false }, emb := { d.emb with winOk := false } }
  else
    let d := (({ d with pins := { d.pins with reff := false }, emb := { d.emb with winOk := false } }).substBits).raiseLvl 1
    if d.bvc.phase = BvcPhase.drain then d.bvcNoReff else d.storePark

/-- REFF is present again (R151). -/
def Dev.reffBack (d : Dev) : Dev := (({ d with pins := { d.pins with reff := true } }).substBits).whenD d.powered (fun d => d.clearSrc 1)

/-! ### PWRFAIL_N glitches and the host link (R338, R339, R363, R366, R677) -/

/-- A low of PWRFAIL_N shorter than 200 ns (R677). -/
def Dev.pwrGlitch (d : Dev) : Dev := if d.pins.main then d.raise 27 else d

/-- The host port can train (R134, R151, R338): the PLLs have locked, REFCLK is present, PERST_N released. -/
def Dev.hostTrains (d : Dev) : Bool := d.pins.main && d.pins.refclk && !d.pins.perst && d.bvc.phase = BvcPhase.none && 5 ≤ d.pitStep

/-- Host link training completes (R338). -/
def Dev.hostLinkUp (d : Dev) (speed width : Nat) (flit : Bool) : Dev := if d.hostTrains && !d.hst.dlUp then d.hostUp speed width flit else d

/-- The quads that serve the strapped width (R338). -/
def Dev.hostQuads (d : Dev) : List Nat := (List.range 4).filter (fun q => d.pdSt (2 + q) ≠ .hwOff)

/-- The depth of L1 that the manager has enabled in the L1 PM Substates capability (R339). -/
def Dev.l1Depth (d : Dev) (sub : L1Sub) : L1Sub := match sub with
  | .l1 => .l1
  | .l11 => if d.cfgBit 0 cfgL1ss 3 then .l11 else .l1
  | .l12 => if d.cfgBit 0 cfgL1ss 2 then .l12 else .l1

/-- The idle host link enters L1, where the manager has enabled it, at the depth enabled; in L1.2 the host PHY quads are held in Retain (R339). -/
def Dev.l1Entry (d : Dev) (sub : L1Sub) : Dev :=
  if !d.hst.dlUp || d.g F.hstStatus_ltssm ≠ 3 || !d.cfgBit 0 cfgLinkCtl 1 || !(d.egress 12).isEmpty then d
  else
    let d := d.s F.hstStatus_ltssm 5
    let d := { d with hst := { d.hst with l1 := d.l1Depth sub } }
    if d.hst.l1 = .l12 then d.each d.hostQuads (fun d q => ((d.clampDom (2 + q)).setPd (2 + q) .retain).bump (F.pitPdRetainCnt_count (2 + q))) else d

/-- A request takes the link out of L1 (R339). -/
def Dev.l1Leave (d : Dev) : Dev :=
  if !d.hst.dlUp || d.g F.hstStatus_ltssm ≠ 5 then d
  else
    let d := d.s F.hstStatus_ltssm 3
    let deep : Bool := d.hst.l1 = .l12
    ({ d with hst := { d.hst with l1 := .l1 } }).whenD deep (fun d => d.each d.hostQuads (fun d q => d.setPd (2 + q) .on))

/-- A hot reset (R363, R380). -/
def Dev.hotReset (d : Dev) : Dev := if d.hst.dlUp then (d.linkLost 7).hstCounters else d

/-- The data link goes down while PERST_N is released (R363, R366, R380). -/
def Dev.dlDown (d : Dev) : Dev := if d.hst.dlUp && !d.pins.perst then d.linkDown208 else d

end Sys2Proof.Machine
end

