-- ==== Sys2Proof/Machine/Changelog.lean ====
section
/-! DEFINITION. The change-log engine's commands (16): acknowledgement, record snapshots and the push to a host ring. -/
namespace Sys2Proof.Machine

/-! ### Acknowledgement (R568, R569, R571) -/

/-- Records below a sequence number are released: tail and anchor advance record by record. -/
def Dev.release (d : Dev) (n : Nat) : Dev := match n with
  | 0 => d
  | k + 1 => d.logDropTail.release k

/-- An accepted acknowledgement: the records below `a` are released, the header follows, and what was missed may be recorded. -/
def Dev.ackTo (d : Dev) (a : W64) : Dev :=
  let d := (d.release (a - d.rd R.clgTail).toNat).logHeader.clgLevels
  if d.hwRoom then d.missedRec else d

/-- A value lies within [tail, head]. -/
def Dev.ackLegal (d : Dev) (a : W64) : Bool := (d.rd R.clgTail).toNat ≤ a.toNat && a.toNat ≤ (d.rd R.clgHead).toNat

/-- The judgement of a write of clg.ack (R569). -/
def Dev.judgeClgAck (d : Dev) (c : WCtx) : WOut :=
  if !c.wide || !d.ackLegal c.data then .bad 0#64 false true
  else .ok 0#64 0#64 false true (fun d => d.ackTo c.data)

/-! ### Record snapshots (R563, R570) -/

/-- The judgement of a write of clg.rd_seq: a snapshot starts. -/
def Dev.judgeRdSeq (d : Dev) (c : WCtx) : WOut := match d.judgeTable c with
  | .ok old new rs ex _ => .ok old new rs ex (fun d => (d.wr c.off new).sb F.clgRdStatus_busy true)
  | o => o

/-- A read of the upper half of clg.rd_rec[7]. -/
def Dev.rdAdvance (d : Dev) : Dev := (d.wr R.clgRdSeq (d.rd R.clgRdSeq + 1)).sb F.clgRdStatus_busy true

/-- The words of a ring entry, with the bad flag where its unit is uncorrectable. -/
def entryWords (seq : W64) (e : LogEnt) (bad : Bool) : List W64 :=
  recWords seq (if bad then { e.body with flags := e.body.flags ||| 0x100#16 } else e.body) ++ [e.chain]

/-- The snapshot under way is taken; `bad` where the unit has an uncorrectable error. -/
def Dev.snapTaken (d : Dev) (bad : Bool) : Dev :=
  if !d.gb F.clgRdStatus_busy then d
  else
    let s := d.rd R.clgRdSeq
    let d := d.sb F.clgRdStatus_busy false
    match d.clg.ring.find? s.toNat with
    | none => d.s F.clgRdStatus_state 1
    | some e =>
      let b := bad || e.bad
      let d := (List.zip (List.range 8) (entryWords s e b)).foldl (fun (d : Dev) e => d.wr (R.clgRdRec e.1) e.2) d
      let d := (d.s F.clgRdStatus_state (if b then 2 else 0)).stoMove 4 64
      if bad then d.ueUnit (regionBase 16 + 64 * (s.toNat % d.clgN)) else d.whenD b (fun d => d.raise 46)

/-! ### Push (R572, R573) -/

/-- The judgement of a write of clg.push_ctl (R572). -/
def Dev.judgePushCtl (d : Dev) (c : WCtx) : WOut := match d.judgeTable c with
  | .ok old new rs ex eff => if fieldOf new 0 0 = 1 && !d.gb F.genNodeCfg_log_push then .bad old rs ex else .ok old new rs ex eff
  | o => o

/-- Pushing may run (R572). -/
def Dev.pushRuns (d : Dev) : Bool := d.gb F.clgPushCtl_enable && d.cfgBit 0 4 2 && !d.d3hot 0 && d.hst.dlUp

/-- Room left in the host ring. -/
def Dev.pushRoom (d : Dev) : Nat := 2 ^ d.g F.clgPushCtl_size - (d.rd R.clgPushPos - d.rd R.clgPushCons).toNat

/-- A record that was overwritten or released before it was pushed (R573). -/
def Dev.pushSkip (d : Dev) : Dev :=
  let t := d.rd R.clgTail
  let n := (t - d.rd R.clgPushPos).toNat
  if n = 0 || 2 ^ 63 ≤ n then d else (((d.wr R.clgPushPos t).bumpBy F.clgPushSkipped_count n).raise 252).attention

/-- One record to the host ring. -/
def Dev.pushOne (d : Dev) : Dev :=
  let s := d.rd R.clgPushPos
  match d.clg.ring.find? s.toNat with
  | none => d
  | some e =>
    let a := (d.rd R.clgPushBase).toNat + 64 * (s.toNat % 2 ^ d.g F.clgPushCtl_size)
    ((d.toHost 0 (.mwr 0 (BitVec.ofNat 64 a) (bytesOfWords (entryWords s e e.bad)) false) 64).wr R.clgPushPos (s + 1)).stoMove 4 64

/-- A batch of up to 16 records, and the producer word. -/
def Dev.pushBatch (d : Dev) : Dev :=
  if !d.pushRuns then d
  else
    let d := d.pushSkip
    let n := min (min 16 d.pushRoom) (d.rd R.clgHead - d.rd R.clgPushPos).toNat
    if n = 0 then d
    else
      let d := d.each (List.range n) (fun d _ => d.pushOne)
      d.toHost 0 (.mwr 0 (d.rd R.clgPushProd) (bytesLE 8 (d.rd R.clgPushPos).toNat) false) 8

/-- The judgement of a write of clg.push_cons: with auto_ack it is judged as a write of clg.ack too (R572). -/
def Dev.judgePushCons (d : Dev) (c : WCtx) : WOut := match d.judgeTable c with
  | .ok old new rs ex _ =>
    .ok old new rs ex (fun d =>
      let d := d.wr c.off new
      if !d.gb F.clgPushCtl_auto_ack then d
      else if d.ackLegal new then d.ackTo new
      else d.log (d.recOf { c with off := R.clgAck } 1 0#64 0#64))
  | o => o

end Sys2Proof.Machine
end

