-- ==== Sys2Proof/Machine/Views.lean ====
section
/-! DEFINITION. What a register reads (R19, R39, R40, R47): the stored value, or the one computed from the state it shows; the reads with an effect (R38, R71, R491, R570). -/
namespace Sys2Proof.Machine

/-- Index of a register in an array, none outside it. -/
def idxIn (off base stride n : Nat) : Option Nat :=
  if base ≤ off && (off - base) % stride = 0 && (off - base) / stride < n then some ((off - base) / stride) else none

/-- A value whose fields are given: (low bit, value) pairs joined. -/
def joinBits (l : List (Nat × Nat)) : W64 := BitVec.ofNat 64 (l.foldl (fun a e => a + e.2 * 2 ^ e.1) 0)

/-! ### The views by block -/

/-- The state code of a domain (R604): 0 Off, 1 Retain, 2 On, 3 in transition. -/
def Dev.pdCode (d : Dev) (k : Nat) : Nat := match d.pdSt k with
  | .on => 2
  | .retain => 1
  | .off | .hwOff | .autoOff | .bvcOff => 0
  | .closing | .drained | .poweringOff | .powerOn => 3

/-- Domains lo to lo + 31 as a 64-bit word. -/
def Dev.pdStates (d : Dev) (lo : Nat) : W64 := joinBits ((List.range 32).map (fun i => (2 * i, d.pdCode (lo + i))))

/-- gen and pit (R301, R604, R648). -/
def Dev.viewPit (d : Dev) (off : Nat) : W64 :=
  if off = R.pitIncarnation then d.incarnation.setWidth 64
  else if off = R.pitPdStateLo then d.pdStates 0
  else if off = R.pitPdStateHi then d.pdStates 32
  else if off = R.pitTwinQueue then BitVec.ofNat 64 (d.twinBytes / 1024)
  else d.rd off

/-- emb (R91): the mirrors of backup byte 58; the device bytes are words 12 to 15; the write-only dst.cmd reads zero (R19). -/
def Dev.viewEmb (d : Dev) (off : Nat) : W64 :=
  if off = R.embStatus then
    let v := setField (d.rd off) 7 7 (b2n (bitOf (d.bkp 58) 0))
    setField v 8 8 (b2n (bitOf (d.bkp 58) 1))
  else if off = R.embDst then setField (d.rd off) 1 0 0
  else d.rd off

/-- clg (R582). -/
def Dev.viewClg (d : Dev) (off : Nat) : W64 :=
  if off = R.clgStatus then
    let full := d.clgHold && decide (d.clgN - 4096 ≤ d.clgHeld)
    let resv := d.clgHold && decide (d.clgN - 4096 < d.clgHeld)
    joinBits [(0, b2n d.clgHold), (1, b2n (d.gb F.genNodeCfg_log_push)), (2, b2n full), (3, b2n resv), (4, d.g F.clgStatus_missing), (5, d.g F.clgStatus_attn), (6, b2n d.pushRuns), (8, d.sizeLvl 24)]
  else if off = R.clgCapacity then BitVec.ofNat 64 d.clgN
  else d.rd off

/-- The word of sources read as asserted now (R538, R554). -/
def Dev.liveWord (d : Dev) (w : Nat) : W64 := (d.fwt.raw.lk 0#32 w).setWidth 64 ||| d.rd (R.fwtForceSet w)

/-- fwt (R554). -/
def Dev.viewFwt (d : Dev) (off : Nat) : W64 :=
  if off = R.fwtStatus then joinBits [(0, d.g F.fwtStatus_open), (1, d.g F.fwtStatus_class), (4, d.g F.fwtStatus_fence), (5, b2n d.fwt.grave), (6, b2n d.fwt.err), (8, d.profile), (12, b2n d.testEn)]
  else if off = R.fwtGrave then joinBits [(0, b2n d.fwt.grave), (16, d.bkp 56 + 256 * d.bkp 57)]
  else match idxIn off (R.fwtForceClr 0) 4 16 with
  | some w => d.rd (R.fwtForceSet w)
  | none => match idxIn off (R.fwtLive 0) 4 16 with
    | some w => d.liveWord w
    | none => match idxIn off (R.fwtSrcInfo 0) 4 512 with
      | some n => match srcClass n with
        | some c => joinBits [(0, c), (8, srcBlock d n), (16, b2n (decide (16 ≤ n))), (17, 1)]
        | none => 0#64
      | none => d.rd off

/-- lic (R516): the CLR addresses read as their SET partners, traps as the OR over cores, no line bits beyond word 16; what belongs to a reserved number reads zero (R481). -/
def Dev.viewLic (d : Dev) (off : Nat) : W64 :=
  let orT (sh : Nat) : Nat := (List.range 16).foldl (fun a c => a ||| ((d.rd (R.licTstate c)).toNat / 2 ^ sh % 16)) 0
  if off = R.licPendSet 30 || off = R.licPendClr 30 then BitVec.ofNat 64 (orT 0 * 2 ^ 24)
  else if off = R.licActive 30 then BitVec.ofNat 64 (orT 8 * 2 ^ 24)
  else if 0x81000 ≤ off && off < 0x81300 then
    (let v := if (off - 0x81000) / 128 = 1 || (off - 0x81000) / 128 = 3 then d.rd (off - 128) else d.rd off
     v &&& BitVec.ofNat 64 (licValid (off % 128 / 4)))
  else if 0x84000 ≤ off && off < 0x85000 && (off % 256 = 4 || off % 256 = 0xC) then d.rd (off - 4)
  else match idxIn off (R.licCoreState 0) 4 16 with
  | some c => joinBits [(0, d.running c), (5, b2n (d.trapActive c)), (16, d.g (F.licCoreState_offer c))]
  | none => match idxIn off (R.licSrcCfg 0) 4 768 with
    | some i => if licNumber (i + 32) then d.rd off else 0#64
    | none => d.rd off

/-- crl of a port (R216, R218, R259). -/
def Dev.viewCrl (d : Dev) (off : Nat) : W64 :=
  let p := (off - 0x100000) / 0x10000
  let l := d.lnk p
  if off = R.crlPhycal p then d.rd off
  else if off = R.crlLinkLimits p then joinBits [(0, d.limitL), (16, sharedPool d.limitL)]
  else if off = R.crlPhyStatus p then
    let v : W64 := if d.portHeld p then 0#64 else d.rd off
    setField (setField v 11 10 (d.portRate p)) 16 16 (b2n (d.portHeld p))
  else if d.portHeld p then 0#64
  else if off = R.crlUnacked p then joinBits [(0, d.uCount p), (16, l.far.length)]
  else if off = R.crlTxShared p then joinBits [(0, d.sharedCr p), (16, segSize d.limitL)]
  else match idxIn off (R.crlRxOcc p 0) 4 8 with
  | some v => joinBits [(0, l.onDie v), (16, l.landed v)]
  | none => d.rd off

/-- net (R266, R301): the tables in force, once installed since the last reset of the engine (R297). -/
def Dev.viewNet (d : Dev) (off : Nat) : W64 :=
  if off = R.netStatus then setField (d.rd off) 28 16 d.net.lsdb.length
  else if 0x200100 ≤ off && off < 0x200200 && off % 32 = 0x10 then
    let p := (off - 0x200100) / 32
    setField (d.rd off) 7 0 (if d.portOpen p then d.portCost p else 0)
  else if off = R.netQuery then
    let q := d.g F.netQuery_dst
    let t := if d.net.shown then d.net.tbl else Routes.empty
    let up := t.escUp.find? q
    let dn := t.escDn.find? q
    joinBits [(0, q), (16, up.getD 0), (20, dn.getD 0), (23, b2n (up.isSome || dn.isSome))]
  else match idxIn off (R.netCampTbl 0) 4 64 with
  | some c => if d.net.shown then (d.net.tbl.camp.lk 0#32 c).setWidth 64 else 0#64
  | none => match idxIn off (R.netMemberTbl 0) 4 64 with
    | some m => if d.net.shown then (d.net.tbl.member.lk 0#32 m).setWidth 64 else 0#64
    | none => d.rd off

/-- trn: tags, lanes, parked packets and holds in use (R343). -/
def Dev.viewTrn (d : Dev) (off : Nat) : W64 :=
  if off = R.trnTags then BitVec.ofNat 64 d.trn.tags.length
  else if off = R.trnHostTags then BitVec.ofNat 64 d.hst.tags.length
  else if off = R.trnLanes then joinBits [(0, d.trn.srcLanes.length), (16, d.trn.dstLanes.length)]
  else if off = R.trnPark then BitVec.ofNat 64 d.trn.park.length
  else if off = R.trnHolds then joinBits [(0, d.trn.home.length), (32, d.trn.owned.length)]
  else d.rd off

/-- hst (R380). -/
def Dev.viewHst (d : Dev) (off : Nat) : W64 :=
  if off = R.hstStatus then
    let v := setField (d.rd off) 14 13 ((d.cfgW 0 cfgPmcsr).toNat % 4)
    let v := setField (setField v 16 16 (b2n d.vfEnable)) 17 17 (b2n (d.cfgBit 0 cfgSriovCtl 4))
    setField v 29 18 d.numVfs
  else if off = R.hstVecPool then joinBits [(0, d.vfVectors), (16, 32768 - d.pfVectors - d.vfVectors)]
  else d.rd off

/-- win (R413): lines, and what each local port holds. -/
def Dev.viewWin (d : Dev) (off : Nat) : W64 :=
  if off = R.winWcStatus then
    joinBits [(0, (d.win.lines.filter (fun l => !l.sending)).length), (16, (d.win.lines.filter (fun l => l.sending)).length)]
  else match idxIn off (R.winLpStatus 0) 16 4 with
  | some n => joinBits [(0, (d.trn.ltags.filter (fun e : Nat × LTag => e.1 / 4096 = n)).length), (16, (d.trn.deliv.filter (fun e : Nat × Nat => e.1 / 2 ^ 56 = n)).length)]
  | none => match idxIn off (R.winLpAdm 0) 16 4 with
    | some n => joinBits [(0, (d.trn.admitExp.filter (fun e : Nat × Nat => e.1 / 2 ^ 56 = n)).length), (16, (d.trn.lpark.filter (fun q => q.key / 2 ^ 56 = n)).length)]
    | none => d.rd off

/-- Window indices assigned (R444). -/
def Dev.windowsUsed (d : Dev) : Nat := d.present.foldl (fun a n => a + d.ig n 8 4) 0

/-- The per-instance registers (R444, R445). -/
def Dev.viewInst (d : Dev) (n o : Nat) : W64 :=
  let err := d.ins.mbxErr.lk 0 n
  if o = 0 then BitVec.ofNat 64 (d.stateByte n)
  else if o = 4 then BitVec.ofNat 64 (d.ig n 24 4)
  else if o = 0x14 then joinBits [(0, d.mbxByte n 36), (8, d.mbxByte n 37), (16, err % 256)]
  else if o = 0x18 then joinBits [(0, d.mbxByte n 38), (8, d.mbxByte n 39), (16, err / 256)]
  else if o = 0x20 then BitVec.ofNat 64 (d.ig n 40 4)
  else if o = 0x24 then BitVec.ofNat 64 (d.ig n 128 4)
  else if o = 0x28 then BitVec.ofNat 64 (d.ig n 44 4)
  else if 0x40 ≤ o && o < 0xC0 then d.slot n ((o - 0x40) / 8)
  else d.rd (R.insInst n + o)

/-- ins (R444, R477). -/
def Dev.viewIns (d : Dev) (off : Nat) : W64 :=
  if off = R.insPool then joinBits [(0, d.present.length), (14, d.windowsUsed)]
  else match idxIn off (R.insEvSum 0) 8 64 with
  | some j => joinBits ((List.range 64).map (fun b => (b, b2n (decide (d.rd (R.insEv (64 * j + b)) ≠ 0#64)))))
  | none => if 0x500000 ≤ off && off < 0x600000 then d.viewInst ((off - 0x500000) / 256) (off % 256) else d.rd off

/-- What the register at an offset reads. -/
def Dev.view (d : Dev) (off : Nat) : W64 :=
  let b := off / 0x10000
  if b ≤ 1 then d.viewPit off
  else if b = 2 then d.viewEmb off
  else if b = 3 then d.viewClg off
  else if b < 8 then d.viewFwt off
  else if b < 0xC then d.viewLic off
  else if b < 0x10 then d.rd off
  else if b < 0x1C then d.viewCrl off
  else if b < 0x24 then d.viewNet off
  else if b < 0x28 then d.viewTrn off
  else if b < 0x30 then d.viewHst off
  else if b < 0x40 then d.viewWin off
  else d.viewIns off

/-- An instance 0 mailbox offset: unmapped (R425, R444). -/
def noMailbox (off : Nat) : Bool := (0x500010 ≤ off && off < 0x500020) || (0x500040 ≤ off && off < 0x5000C0)

/-- The reserved upper half of a claim or eoi register (R516). -/
def resHalf (off : Nat) : Bool := (0x80400 ≤ off && off < 0x80480 || 0x80600 ≤ off && off < 0x80680) && off % 8 = 4

/-- The register that covers an offset: its row and its own offset; the upper half of a 64-bit register counts (R40, R47). -/
def regCover (off : Nat) : Option (RegDef × Nat) :=
  if noMailbox off then none
  else match regAt off with
  | some r => some (r, off)
  | none => match regAt (off - 4) with
    | some r => if r.wide && 4 ≤ off then some (r, off - 4) else none
    | none => none

/-- Write-only registers read zero (R19). -/
def RegDef.allWo (r : RegDef) : Bool := r.fields.all (fun f => f.acc = .wo)

/-- A read of `wide` bytes at an offset of PF control space without effect: none where unmapped. -/
def Dev.peek (d : Dev) (off : Nat) (wide : Bool) : Option W64 := match regCover off with
  | none => none
  | some (r, o) =>
    let v : W64 := if r.allWo then 0#64 else d.view o
    if wide then some v else some (BitVec.ofNat 64 (v.toNat / 2 ^ (8 * (off - o)) % 2 ^ 32))

/-! ### Reads with an effect -/

/-- The word of the time block at an offset, and the word read: tm_bin and its upper half are two words of one register (R91). -/
def timeIdx (off : Nat) : Option Nat := if 0x20000 ≤ off && off < 0x20020 && off % 4 = 0 then some ((off - 0x20000) / 4) else none

/-- A read by a reader whose LIC core is `core` (none: claims nothing) (R38, R71, R491, R570). -/
def Dev.readEff (d : Dev) (reader : Nat) (core : Option Nat) (off : Nat) (wide : Bool) : Dev × W64 :=
  match timeIdx off with
  | some i =>
    let r := d.timeRead reader i
    (r.1, if wide then r.2 else BitVec.ofNat 64 (r.2.toNat % 2 ^ 32))
  | none =>
    let v := (d.peek off wide).getD 0#64
    match idxIn off (R.licClaim 0) 8 16 with
    | some c => if core = some c then d.claim c else (d, v)
    | none =>
      if off = R.clgRdRec 7 + 4 || (off = R.clgRdRec 7 && wide) then (d.rdAdvance, v)
      else if off = R.pitTwinRdRec 7 + 4 || (off = R.pitTwinRdRec 7 && wide) then (d.twinAdvance, v)
      else (d, v)

end Sys2Proof.Machine
end

