-- ==== Sys2Proof/Machine/Access.lean ====
section
/-! DEFINITION. Accesses to control space: who may write which register and how a write of it is judged (R401 to R403, R501, R542, R557), the decomposition of R39, the VF control page (R445), the commons (R432), local control messages (R401 to R404, R410), and what settles after a command. -/
namespace Sys2Proof.Machine

/-! ### Registers with a judgement of their own -/

/-- The bank and kind of a SET or CLR word of the LIC: 0 mask_set, 1 mask_clr, 2 pend_set, 3 pend_clr (R516). -/
def licBankAt (off : Nat) : Option (Nat × LicBank) :=
  if 0x81000 ≤ off && off < 0x81200 && off % 128 / 4 < 25 then some ((off - 0x81000) / 128, .shared (Fin.ofNat 32 (off % 128 / 4)))
  else if 0x84000 ≤ off && off < 0x85000 && off % 256 < 16 then some (off % 256 / 4, .priv (Fin.ofNat 16 ((off - 0x84000) / 256)))
  else none

/-- The rights of a party to a lic register (R493, R501). -/
def Dev.licAuth (d : Dev) (pty : Party) (off : Nat) (data : W64) : Bool := match licBankAt off with
  | some (_, b) => d.bankAuth pty b
  | none =>
    if off = R.licSignal then d.signalAuth pty data
    else match idxIn off (R.licSrcCfg 0) 4 768 with
    | some i => licNums pty ((i + 32) / 32)
    | none => match idxIn off (R.licCoreCfg 0) 4 16 with
      | some c => d.licCore pty c
      | none => match idxIn off (R.licCoreVbase 0) 8 16 with
        | some c => d.licCore pty c
        | none => match idxIn off (R.licEoi 0) 8 16 with
          | some c => d.licOwn pty c
          | none => if 0x84000 ≤ off && off < 0x85000 then d.licCore pty ((off - 0x84000) / 256) else isPf pty

/-- The rights of a party to a register (R542, R557). -/
def Dev.authOf (d : Dev) (pty : Party) (off : Nat) (data : W64) : Bool :=
  if 0x80000 ≤ off && off < 0xC0000 then d.licAuth pty off data
  else isPf pty || off = R.fwtAck || (R.fwtLatched 0 ≤ off && off < R.fwtLatched 16)

/-- The judgement of a write to lic (R485, R486, R493, R506, R509, R512). -/
def Dev.judgeLic (d : Dev) (c : WCtx) : WOut := match licBankAt c.off with
  | some (k, b) => if k = 0 then d.judgeMask b true c else if k = 1 then d.judgeMask b false c else if k = 2 then d.judgePendSet b c else d.judgePendClr b c
  | none =>
    if c.off = R.licSignal then judgeSignal c
    else match idxIn c.off (R.licSrcCfg 0) 4 768 with
    | some i => d.judgeSrc (i + 32) c
    | none => match idxIn c.off (R.licCoreBind 0) 4 16 with
      | some i => d.judgeBind i c
      | none => match idxIn c.off (R.licEoi 0) 8 16 with
        | some i => judgeEoi i c
        | none => d.judgeTable c

/-- The judgement of a write to fwt (R528, R530, R532, R538). -/
def Dev.judgeFwt (d : Dev) (c : WCtx) : WOut :=
  if c.off = R.fwtAck then d.judgeAck c
  else match idxIn c.off (R.fwtTimer 0) 4 4 with
  | some _ => d.judgeTimer c
  | none => match idxIn c.off (R.fwtSrcCfg 0) 4 512 with
    | some n => d.judgeSrcCfg n c
    | none => match idxIn c.off (R.fwtForceSet 0) 4 16 with
      | some w => d.judgeForce w true c
      | none => match idxIn c.off (R.fwtForceClr 0) 4 16 with
        | some w => d.judgeForce w false c
        | none => d.judgeTable c

/-- The judgement of a write to pit. -/
def Dev.judgePit (d : Dev) (c : WCtx) : WOut :=
  if c.off = R.pitRepitch then d.judgeRepitch c
  else if c.off = R.pitPdReq then d.judgePdReq c
  else if c.off = R.pitResume then d.judgeResume c
  else if c.off = R.pitResumeCtl then d.judgeDiscard c
  else if c.off = R.pitTwinCfg then d.judgeTwinCfg c
  else if c.off = R.pitTwinWitness then d.judgeWitness c
  else if c.off = R.pitTwinCmd then d.judgeTwinCmd c
  else if c.off = R.pitTwinRdSeq then d.judgeTwinRd c
  else d.judgeTable c

/-- The judgement of a write to emb (R66 to R70, R74, R83). -/
def Dev.judgeEmb (d : Dev) (c : WCtx) : WOut :=
  let wall (r : WallReg) : WOut := d.judgeWall r (BitVec.ofNat 8 c.be) c
  if c.off = R.embTmCalTime then wall .calTime
  else if c.off = R.embTmCalDate then wall .calDate
  else if c.off = R.embTmBin then wall .bin
  else if c.off = R.embWctl then d.judgeWctl c
  else if c.off = R.embDst then d.judgeDst c
  else if c.off = R.embTrim then d.judgeTrim c
  else if c.off = R.embWake then d.judgeWake c
  else d.judgeTable c

/-- The judgement of a write to clg (R569, R570, R572). -/
def Dev.judgeClg (d : Dev) (c : WCtx) : WOut :=
  if c.off = R.clgAck then d.judgeClgAck c
  else if c.off = R.clgRdSeq then d.judgeRdSeq c
  else if c.off = R.clgPushCtl then d.judgePushCtl c
  else if c.off = R.clgPushCons then d.judgePushCons c
  else d.judgeTable c

/-- The judgement of a write to the added cost of a port: a changed cost is due in an LSA (R266, R271). -/
def Dev.judgeCost (d : Dev) (c : WCtx) : WOut := match d.judgeTable c with
  | .ok old new rs ex _ => .ok old new rs ex (fun d => (d.wr c.off new).whenD (old ≠ new) Dev.lsaDue)
  | o => o

/-! ### The registers of an instance (R425 to R427, R430, R444, R445) -/

/-- Slot data of an instance written whole. -/
def judgeSlot (n s : Nat) (old : W64) (c : WCtx) : WOut :=
  if !c.wide then .bad (BitVec.ofNat 64 (old.toNat % 2 ^ 32)) false true else .ok old c.data false true (fun d => d.slotWrite n s c.data)

/-- A ring of the inbox or the outbox of an instance. -/
def judgeRing (n : Nat) (inbox : Bool) (c : WCtx) : WOut :=
  let rs : Bool := 256 ≤ (c.data.toNat &&& c.mask)
  if !woOk c.be 0xFF then .bad 0#64 rs true
  else .ok 0#64 0#64 rs true (fun d => if inbox then d.ringInbox n (c.data.toNat % 256) else d.ringOutbox n (c.data.toNat % 256))

/-- Full, overflow and error bits cleared by their reader: `b` is the full byte, `sh` the slots' first error bit. -/
def Dev.judgeMbxClear (d : Dev) (n b sh : Nat) (c : WCtx) : WOut :=
  let x := c.data.toNat &&& c.mask
  let err := d.ins.mbxErr.lk 0 n
  let old := d.mbxByte n b + d.mbxByte n (b + 1) * 2 ^ 8 + err / 2 ^ sh % 256 * 2 ^ 16
  let new := old &&& (0xFFFFFF ^^^ (x % 2 ^ 24))
  .ok (BitVec.ofNat 64 old) (BitVec.ofNat 64 new) (decide (2 ^ 24 ≤ x)) true (fun d =>
    let d := (d.isFlop n b 1 (new % 256)).isFlop n (b + 1) 1 (new / 256 % 256)
    let kept := err &&& (0xFFFF ^^^ ((x / 2 ^ 16 % 256) * 2 ^ sh))
    { d with ins := { d.ins with mbxErr := d.ins.mbxErr.put 0 n kept } })

/-- The consumer index of a message ring written by its owner (R430). -/
def Dev.judgeMsgCons (d : Dev) (n : Nat) (c : WCtx) : WOut :=
  let cur := d.ig n 128 4
  let m := c.mask
  let new := (c.data.toNat &&& m) ||| (cur &&& (0xFFFFFFFF ^^^ m))
  let gap := (new + 2 ^ 32 - d.ig n 40 4) % 2 ^ 32
  if 1 ≤ gap && gap ≤ 2 ^ 31 then .bad (BitVec.ofNat 64 cur) false true
  else .ok (BitVec.ofNat 64 cur) (BitVec.ofNat 64 new) false true (fun d => d.isFlop n 128 4 new)

/-- The judgement of a write to the registers of instance n in PF control space (R444). -/
def Dev.judgeInst (d : Dev) (n : Nat) (c : WCtx) : WOut :=
  let o := c.off % 256
  if n = 0 && noMailbox c.off && ((0x10 ≤ o && o < 0x20) || (0x40 ≤ o && o < 0xC0)) then .unmapped
  else if o = 0x10 then judgeRing n true c
  else if o = 0x18 then d.judgeMbxClear n 38 8 c
  else if o = 0x24 then (if n = 0 then d.judgeMsgCons 0 c else .bad (BitVec.ofNat 64 (d.ig n 128 4)) false true)
  else if 0x40 ≤ o && o < 0x80 && (o % 8 = 0 || o % 8 = 4) then judgeSlot n ((o - 0x40) / 8) (d.slot n ((o - 0x40) / 8)) c
  else d.judgeTable c

/-- The judgement of a write to ins (R421, R444, R455, R472). -/
def Dev.judgeIns (d : Dev) (c : WCtx) : WOut :=
  if c.off = R.insCmd then d.judgeInsCmd c
  else if c.off = R.insDlCmd then d.judgeDlCmd c
  else if 0x500000 ≤ c.off && c.off < 0x600000 then d.judgeInst ((c.off - 0x500000) / 256) c
  else if 0x600000 ≤ c.off && c.off < 0x620000 then d.judgeBucket ((c.off - 0x600000) / 32) (c.off % 32 / 4) c
  else d.judgeTable c

/-- The judgement of a write to a register of PF control space. -/
def Dev.judgeOf (d : Dev) (pty : Party) (c : WCtx) : WOut :=
  let b := c.off / 0x10000
  if resHalf c.off then .none
  else if b = 1 then d.judgePit c
  else if b = 2 then d.judgeEmb c
  else if b = 3 then d.judgeClg c
  else if 4 ≤ b && b < 8 then d.judgeFwt c
  else if 8 ≤ b && b < 0xC then d.judgeLic c
  else if c.off = R.stoDbgCtl then d.judgeDbg c
  else if 0x10 ≤ b && b < 0x1C then
    (if c.off = R.crlPhyCfg (b - 0x10) then d.judgePhyCfg (b - 0x10) c else if c.off = R.crlEyeCtl (b - 0x10) then d.judgeEye (b - 0x10) c else d.judgeTable c)
  else if 0x200114 ≤ c.off && c.off < 0x200214 && c.off % 32 = 0x14 then d.judgeCost c
  else if c.off = R.hstPfVectors then d.judgePfVectors c
  else if c.off = R.winCmd then d.judgeWinCmd c
  else if 0x40 ≤ b && b < 0xF0 then d.judgeIns c
  else d.judgeTable c

/-! ### The decomposition of an access (R39 to R41) -/

/-- A write of a party arrives at the time block, whatever becomes of it (R71). -/
def Dev.timeBlockWrite (d : Dev) (pty : Party) (off : Nat) : Bool :=
  (timeIdx off).isSome && (match pty with
    | .pf => d.hostMem 0
    | .vf _ => false
    | .lp _ _ => true)

/-- One access to PF control space: the resume token is written with a record of zeros (R618); a write to the time block ends its reader's freeze (R71). -/
def Dev.oneWrite (d : Dev) (pty : Party) (off : Nat) (wide : Bool) (be : Nat) (data : W64) : Dev × Nat :=
  let d := d.whenD (d.timeBlockWrite pty off) (fun d => d.endFreeze (readerOf pty))
  if off = R.pitResumeToken then d.regCmdS pty off wide be 0#64 0#64 (isPf pty) (fun d c => d.judgeToken data c)
  else d.regCmdS pty off wide be data ((d.peek (off / 4 * 4) wide).getD 0#64) (d.authOf pty off data) (fun d c => d.judgeOf pty c)

/-- An 8-byte access at this offset is one access. -/
def oneWide (off : Nat) : Bool := off % 8 = 0 && ((regAt off).any (fun r => r.wide) || resHalf (off + 4))

/-- The dwords of an access, in ascending order: offset, byte enables, data. -/
def dwords (off be : Nat) (data : Nat) : List (Nat × Nat × Nat) :=
  let b := be * 2 ^ (off % 4)
  let x := data * 2 ^ (8 * (off % 4))
  ((List.range 3).map (fun i => (off / 4 * 4 + 4 * i, b / 2 ^ (4 * i) % 16, x / 2 ^ (32 * i) % 2 ^ 32))).filter (fun e => e.2.1 ≠ 0)

/-- A write of 4 or 8 bytes to PF control space; the greatest status of its accesses. -/
def Dev.pfWrite (d : Dev) (pty : Party) (off : Nat) (size8 : Bool) (be : Nat) (data : W64) : Dev × Nat :=
  let be := if size8 then be % 256 else be % 16
  let off := off % 2 ^ 24
  if size8 && be = 255 && oneWide off then d.oneWrite pty off true be data
  else (dwords off be data.toNat).foldl (fun (a : Dev × Nat) e =>
    let r := a.1.oneWrite pty e.1 false e.2.1 (BitVec.ofNat 64 e.2.2)
    (r.1, max a.2 r.2)) (d, 0)

/-! ### The VF control page (R441, R445, R478) -/

/-- A VF control page register that only reads. -/
def vfReadOnly (off : Nat) : Bool :=
  off < 0x10 || (0x100 ≤ off && off < 0x140) || off = 0x244 || off = 0x300 || off = 0x308 || (0x800 ≤ off && off < 0x818) || off = 0x820 || off = 0x824

/-- What a register of the control page of VF n reads (R441, R445, R478); write-only ones read zero. -/
def Dev.vfView (d : Dev) (n off : Nat) : W64 :=
  let rate (q : Nat) : W64 := match d.bucketOf n with
    | some b => d.rd (bucketFld b (2 * q)).off
    | none => 0#64
  if off = 0 then joinBits [(0, n), (12, d.istate n)]
  else if d.istate n = 0 then 0#64
  else if off = 4 then BitVec.ofNat 64 d.addr.toNat
  else if off = 8 then d.viewInst n 4
  else if off = 0xC then d.incarnation.setWidth 64
  else if 0x100 ≤ off && off < 0x140 then d.slot n ((off - 0x100) / 8)
  else if off = 0x140 then d.viewInst n 0x14
  else if 0x200 ≤ off && off < 0x240 then d.slot n (8 + (off - 0x200) / 8)
  else if off = 0x244 then BitVec.ofNat 64 ((d.viewInst n 0x18).toNat % 65536)
  else if off = 0x300 then d.viewInst n 0x20
  else if off = 0x304 then d.viewInst n 0x24
  else if off = 0x308 then d.viewInst n 0x28
  else if off = 0x800 then BitVec.ofNat 64 (d.ig n 18 2)
  else if off = 0x804 then BitVec.ofNat 64 (d.ig n 2 1)
  else if 0x808 ≤ off && off < 0x818 then rate ((off - 0x808) / 4)
  else if off = 0x820 then BitVec.ofNat 64 (d.ins.waitUs.lk 0 n)
  else if off = 0x824 then BitVec.ofNat 64 (d.ins.refused.lk 0 n)
  else 0#64

/-- The judgement of a write to the control page of VF n (R445). -/
def Dev.judgeVf (d : Dev) (n : Nat) (c : WCtx) : WOut :=
  if d.istate n = 0 then .unmapped
  else if vfReadOnly c.off then .none
  else if c.off = 0x140 then d.judgeMbxClear n 36 0 c
  else if 0x200 ≤ c.off && c.off < 0x240 && (c.off % 8 = 0 || c.off % 8 = 4) then judgeSlot n (8 + (c.off - 0x200) / 8) (d.slot n (8 + (c.off - 0x200) / 8)) c
  else if c.off = 0x240 then judgeRing n false c
  else if c.off = 0x304 then d.judgeMsgCons n c
  else .unmapped

/-- One access of VF n's host to its control page (R48, R352). -/
def Dev.vfOne (d : Dev) (n off : Nat) (wide : Bool) (be : Nat) (data : W64) : Dev :=
  let c : WCtx := ⟨.tenant n, 2, n, off, wide, be, data⟩
  if !d.hostMem n then d.aerUr n false
  else if d.onlyWatch then (d.commitS c .unmapped).1
  else match d.powerOf 0xF00000 with
  | .held => d.hold (.reg (.vf (BitVec.ofNat 12 n)) (BitVec.ofNat 24 off) wide (BitVec.ofNat 8 be) data)
  | .unmapped | .hwOff => (d.commitS c .unmapped).1
  | .on => (d.commitS c (d.judgeVf n c)).1

/-- A write to the control page of VF n. -/
def Dev.vfWrite (d : Dev) (n off : Nat) (size8 : Bool) (be : Nat) (data : W64) : Dev :=
  let be := if size8 then be % 256 else be % 16
  if size8 && be = 255 && off % 8 = 0 && ((0x100 ≤ off && off < 0x140) || (0x200 ≤ off && off < 0x240)) then d.vfOne n off true be data
  else d.each (dwords off be data.toNat) (fun d e => d.vfOne n e.1 false e.2.1 (BitVec.ofNat 64 e.2.2))

/-! ### Commons pages and the viewport (R39, R179, R432 to R434, R441) -/

/-- The page and offset that an access reaches, and the function it belongs to: none where it reaches no page. -/
def Dev.commonsAt (d : Dev) (pty : Party) (off : Nat) : Option (Nat × Nat × Nat) := match pty with
  | .pf => if 0xF00000 ≤ off then some (0, 16 * d.g F.insCview_group + (off - 0xF00000) / 0x10000, off % 0x10000) else none
  | .vf n => if 0x10000 ≤ off ∧ off < 0x20000 then some (n.toNat, n.toNat, off % 0x10000) else none
  | .lp _ _ => none

/-- Bytes written where enabled, in ascending order; a unit written in full loses its error (R179). -/
def Dev.memEnabled (d : Dev) (a : Nat) (bs : List Byte) (be : List Bool) : Dev :=
  if be.all id then d.memStore a bs
  else
    let d := (List.zip (List.range bs.length) (List.zip bs be)).foldl (fun (d : Dev) e => if e.2.2 then d.memWr (a + e.1) e.2.1 else d) d
    let full (u : Nat) : Bool := decide (a ≤ 64 * u) && decide (64 * u + 64 ≤ a + bs.length) && ((be.drop (64 * u - a)).take 64).all id
    ({ d with sto := { d.sto with errUnits := d.sto.errUnits.keep (fun u _ => !full u) } }).stoMove 2 (unitBytes a bs.length)

/-- A unit in a range of the commons has an uncorrectable error. -/
def Dev.memBad (d : Dev) (a n : Nat) : Bool := (List.range ((a + n + 63) / 64 - a / 64)).any (fun i => (d.sto.errUnits.find? (a / 64 + i)).isSome)

/-- An access to a commons page. A page beyond the access's end is not reached: an access of PCI Express never crosses it. -/
def Dev.commons (d : Dev) (pty : Party) (off : Nat) (write : Bool) (length : Nat) (bytes : List Byte) (be : List Bool) : Dev :=
  match d.commonsAt pty off with
  | none => d
  | some (fn, page, o) =>
    let n := min length (0x10000 - o)
    let a := page * 0x10000 + o
    let c : WCtx := ⟨partyOrigin pty, if fn = 0 then 0 else 2, fn, off, false, 15, BitVec.ofNat 64 (ofBytesLE (bytes.take 4))⟩
    let zero : Out := .rdata fn (List.replicate n 0#8) false
    if !d.hostMem fn then d.aerUr fn (!write)
    else if d.onlyWatch then (if write then (d.commitS c .unmapped).1 else d.emit zero)
    else match d.powerOf 0xF00000 with
    | .held => d.hold (.cons pty (BitVec.ofNat 24 off) write length bytes be)
    | .unmapped | .hwOff => if write then (d.commitS c .unmapped).1 else d.emit zero
    | .on =>
      if fn ≠ 0 && d.istate fn = 0 then (if write then d else d.emit zero)
      else if write then d.memEnabled a (bytes.take n) (be.take n)
      else (d.stoMove 2 (unitBytes a n)).emit (.rdata fn ((List.range n).map (fun i => d.memRd (a + i))) (d.memBad a n))

/-! ### Host accesses -/

/-- A write to BAR0 of a function, or to the local view (R39, R352); a VF slot beyond its BAR is unmapped (R342). -/
def Dev.barWrite (d : Dev) (pty : Party) (off : Nat) (size8 : Bool) (be : Nat) (data : W64) : Dev :=
  let n := if size8 then 8 else 4
  let bytes := bytesLE n data.toNat
  let bes := (List.range n).map (fun i => bitOf be i)
  match pty with
  | .pf => if 0xF00000 ≤ off then d.commons pty off true n bytes bes else (d.pfWrite pty off size8 be data).1
  | .vf v => if 0x20000 ≤ off then (if d.hostMem v.toNat then (d.commitS ⟨.tenant v.toNat, 2, v.toNat, off, size8, be, data⟩ .unmapped).1 else d.aerUr v.toNat false)
    else if 0x10000 ≤ off then d.commons pty off true n bytes bes else d.vfWrite v.toNat off size8 be data
  | .lp _ _ => (d.pfWrite pty off size8 be data).1

/-- A read with an effect by the host (R38): its data. -/
def Dev.hostRead (d : Dev) (off : Nat) (wide : Bool) : Dev :=
  if !d.hostMem 0 then d.aerUr 0 true
  else
    let n := if wide then 8 else 4
    if (d.onlyWatch && !(regDomain off = 1 || regDomain off = 0)) || d.powerOf off = Power.unmapped then d.emit (.rdata 0 (List.replicate n 0#8) false)
    else
      let r := d.readEff 0 ((idxIn off (R.licClaim 0) 8 16)) off wide
      r.1.emit (.rdata 0 (bytesLE n r.2.toNat) false)

/-! ### Local control messages (R401 to R404, R410, R411) -/

/-- The bytes of a control message, as its port's receive side handed them over. -/
def ctlMsgBytes (m : CtlMsg) : List Byte := (ctlBytes m.typ.toNat (m.core.toNat + 16 * b2n m.coreValid) m.ctag.toNat m.offset.toNat m.size.toNat 0 m.data).take m.length

/-- The core a control message names. -/
def ctlCore (m : CtlMsg) : Option Nat := if m.coreValid then some m.core.toNat else none

/-- The party of a control message. -/
def ctlParty (p : LPort) (m : CtlMsg) : Party := .lp p (if m.coreValid then some (Fin.ofNat 16 m.core.toNat) else none)

/-- The answer to a control message (R401, R403). -/
def Dev.cresp (d : Dev) (p : LPort) (m : CtlMsg) (status : Nat) (data : W64) : Dev :=
  d.enqueue (8 + p.val) 0 ⟨.raw (ctlBytes 0x22 (m.core.toNat + 16 * b2n m.coreValid) m.ctag.toNat m.offset.toNat m.size.toNat status data), 0, 24⟩

/-- The answer whose data no rule states: a free value (log entry 4). -/
def Dev.crespFree (d : Dev) (p : LPort) (m : CtlMsg) (status : Nat) : Dev := let r := d.takeFree; r.2.cresp p m status r.1

/-- One access of a local control read: its data and status (R216, R402, R403, R410, R491). -/
def Dev.localPeek (d : Dev) (p : LPort) (core : Option Nat) (off : Nat) (wide : Bool) : Dev × W64 × Nat :=
  if viewOf p.val off = 0 || (regCover off).isNone && !resHalf off then (d, 0#64, 2)
  else match d.powerOf off with
  | .unmapped => (d, 0#64, 2)
  | .held | .hwOff | .on => match idxIn off (R.licClaim 0) 8 16 with
    | some c => if core = some c && d.coreBound c p.val then (let r := d.claim c; (r.1, r.2, 0)) else (d, 0#64, 3)
    | none => let r := d.readEff (1 + p.val) none off wide; (r.1, r.2, 0)

/-- A local control read, decomposed (R39, R403): its data and status. -/
def Dev.ctlRead (d : Dev) (p : LPort) (core : Option Nat) (off n : Nat) : Dev × W64 × Nat :=
  if n = 8 && oneWide off then d.localPeek p core off true
  else
    let r := (dwords off (2 ^ n - 1) 0).foldl (fun (a : Dev × Nat × Nat) e =>
      let x := a.1.localPeek p core e.1 false
      (x.1, a.2.1 + x.2.1.toNat % 2 ^ 32 * 2 ^ (8 * (e.1 - off / 4 * 4)), max a.2.2 x.2.2)) (d, 0, 0)
    (r.1, BitVec.ofNat 64 (r.2.1 / 2 ^ (8 * (off % 4)) % 2 ^ (8 * n)), r.2.2)

/-- A control message that is no message of R401 is discarded and counted (R410). -/
def Dev.badCtl (d : Dev) (p : LPort) : Dev := (d.bump (F.winLpOrder_bad_ctl p.val)).raise 219

/-- A read of clg.rd_rec waits while its snapshot is in progress (R570). -/
def Dev.recBusy (d : Dev) (off : Nat) : Bool := R.clgRdRec 0 ≤ off && off < R.clgRdRec 8 && d.gb F.clgRdStatus_busy

/-- A read of a register waits: for its domain (R48), or for a record snapshot (R570). -/
def Dev.readWaits (d : Dev) (off : Nat) : Bool := d.recBusy off || d.powerOf off = Power.held

/-- A port's later control messages wait behind one that is held (R411). -/
def Dev.ctlWaits (d : Dev) (p : LPort) : Bool := d.held.any (fun h => match h with
  | .msg q _ => q = p
  | .reg _ _ _ _ _ | .claim _ _ | .read _ _ | .cons _ _ _ _ _ _ => false)

/-- A CREAD, CWRITE or RAISE of a local port performed (R403, R404, R410, R411). -/
def Dev.ctlDo (d : Dev) (p : LPort) (m : CtlMsg) : Dev :=
  let n := m.size.toNat
  let off := m.offset.toNat
  if m.typ = 0x30#8 && m.length = 16 then d.raiseMsg p.val (off % 65536) n
  else if !((m.typ = 0x20#8 && m.length = 16) || (m.typ = 0x21#8 && m.length = 24)) || !(n = 4 || n = 8) then d.badCtl p
  else if viewOf p.val off ≠ 0 && (d.powerOf off = Power.held || (m.typ = 0x20#8 && d.recBusy off)) then d.hold (.msg p m)
  else if m.typ = 0x20#8 then
    let r := d.ctlRead p (ctlCore m) off n
    if r.2.2 = 3 then r.1.crespFree p m 3 else r.1.cresp p m r.2.2 r.2.1
  else
    let r := d.pfWrite (ctlParty p m) off (n = 8) 255 m.data
    r.1.crespFree p m r.2

/-- The link domain of a local port is Closing, or its block is being reset: control messages are new work (R145, R591). -/
def Dev.lpCloses (d : Dev) (p : Nat) : Bool := d.blockClosing (8 + p) || (d.pdSt (27 + p)).shut

/-- A control message to a local port that takes no new work (R591, log entry 125): a CREAD or CWRITE is answered refused, a RAISE is discarded and counted as a lost posted write of the domain. -/
def Dev.ctlRefused (d : Dev) (p : LPort) (m : CtlMsg) : Dev :=
  if m.typ = 0x20#8 || m.typ = 0x21#8 then d.crespFree p m 1
  else if m.typ = 0x30#8 then d.lostPosted (27 + p.val) 1
  else d.badCtl p

/-- A control message arrives on VC0 of a local port. -/
def Dev.ctlMsg (d : Dev) (p : LPort) (m : CtlMsg) : Dev :=
  let d := d.consumeRaw (8 + p.val) (ctlMsgBytes m)
  if !d.portOpen (8 + p.val) then d
  else if d.lpCloses p.val then d.ctlRefused p m
  else if d.ctlWaits p then d.hold (.msg p m)
  else d.ctlDo p m

/-- A 4-byte read with an effect (R38): by the manager over BAR0, or by the local design. -/
def Dev.readBy (d : Dev) (pty : Party) (off : Nat) : Dev := match pty with
  | .pf => if d.hostMem 0 && !d.onlyWatch && d.readWaits off then d.hold (.read pty (BitVec.ofNat 24 off)) else d.hostRead off false
  | .vf _ => d
  | .lp p k => if viewOf p.val off ≠ 0 && d.readWaits off then d.hold (.read pty (BitVec.ofNat 24 off)) else (d.localPeek p (k.map (fun c => c.val)) off false).1

/-- A read of lic.claim[c] by a party (R38, R491). -/
def Dev.claimRead (d : Dev) (pty : Party) (c : Fin 16) : Dev := match pty with
  | .pf =>
    if d.hostMem 0 && !d.onlyWatch && d.powerOf (R.licClaim c.val) = Power.held then d.hold (.claim pty c) else d.hostRead (R.licClaim c.val) false
  | .vf _ => d
  | .lp p k =>
    if d.powerOf (R.licClaim c.val) = Power.held then d.hold (.claim pty c)
    else if k = some c && d.coreBound c.val p.val && d.portOpen (8 + p.val) then (d.claim c.val).1 else d

/-! ### What settles after a command -/

/-- The register offset that a held access waits for. -/
def heldOff (h : Held) : Nat := match h with
  | .reg (.vf _) _ _ _ _ | .cons _ _ _ _ _ _ => 0xF00000
  | .reg _ off _ _ _ => off.toNat
  | .msg _ m => m.offset.toNat
  | .claim _ c => R.licClaim c.val
  | .read _ off => off.toNat

/-- A held access still waits: its domain is not On (R48), or it reads a record whose snapshot is in progress (R570). -/
def Dev.heldWaits (d : Dev) (h : Held) : Bool := d.powerOf (heldOff h) = Power.held || (match h with
  | .read _ off => d.recBusy off.toNat
  | .msg _ m => m.typ = 0x20#8 && d.recBusy m.offset.toNat
  | .reg _ _ _ _ _ | .claim _ _ | .cons _ _ _ _ _ _ => false)

/-- A held access performed now that its domain is On (R48). -/
def Dev.heldDo (d : Dev) (h : Held) : Dev := match h with
  | .reg (.vf n) off wide be data => d.vfOne n.toNat off.toNat wide be.toNat data
  | .reg pty off wide be data => (d.oneWrite pty off.toNat wide be.toNat data).1
  | .msg p m => d.ctlMsg p m
  | .claim pty c => d.claimRead pty c
  | .read pty off => d.readBy pty off.toNat
  | .cons pty off write length bytes be => d.commons pty off.toNat write length bytes be

/-- The held accesses that need wait no longer are performed, in order (R48, R570). -/
def Dev.heldRun (d : Dev) : Dev :=
  if d.held.all d.heldWaits then d
  else
    let l := d.held
    ({ d with held := [] }).each l (fun d h => if d.heldWaits h then d.hold h else d.heldDo h)

/-- What follows a command without delay (log entry 10): raises, the witness's answers, the LIC's choices, the pitch, FENCEs, lines, host writes that waited for one, held accesses, and the shadow of what the command changed. -/
def Dev.settle (d old : Dev) : Dev :=
  let d := (d.fwtRun 16).twinAnswers
  let d := ((d.pumpFences.gcLines).stallRun).heldRun
  let d := ((d.pitchHook).fwtRun 16).licChoose
  (d.shadowUnits old).epochFull

end Sys2Proof.Machine
end

