-- ==== Sys2Proof/Machine/Command.lean ====
section
/-! DEFINITION. What the meanings of the commands share: where a command can arrive, writes and reads of one register by a party, packets by their path. -/
namespace Sys2Proof.Machine

/-- The host link is up, so that the host's requests and completions arrive (R338). -/
def Dev.hostHere (d : Dev) : Bool := d.powered && d.hst.dlUp

/-- A party's access can arrive: a local port's link is Open, a function's host link is up. -/
def Dev.partyHere (d : Dev) (p : Party) : Bool := match p with
  | .pf | .vf _ => d.hostHere
  | .lp n _ => d.powered && d.portOpen (8 + n.val)

/-- A packet can have come by a path: an Open port or one that has handed it over, or the turn path that holds it (log entry 15). -/
def Dev.viaHere (d : Dev) (v : Via) (k : Pkt) : Bool := match v with
  | .fabric p => d.powered && (d.portOpen p.val || (d.lnk p.val).done.any (fun e => e.2 = pktBytes k))
  | .loc p => d.powered && (d.portOpen (8 + p.val) || (d.lnk (8 + p.val)).done.any (fun e => e.2 = pktBytes k))
  | .turn => d.powered && d.iso.turn.contains k

/-- The state after a change of the device and what follows it. -/
def act (s : State) (f : Dev → Dev) : Host.Outcome State Fault Refusal := .next { s with dev := (f s.dev).settle s.dev }

/-- A change that needs a condition; without it the command has no effect (log entry 2). -/
def actIf (s : State) (c : Bool) (f : Dev → Dev) : Host.Outcome State Fault Refusal := if c then act s f else .next s

/-- A change of the chip, whose main power is on (R55, R608). -/
def chip (s : State) (f : Dev → Dev) : Host.Outcome State Fault Refusal := actIf s s.dev.powered f

/-- A change that comes over the host link. -/
def host (s : State) (f : Dev → Dev) : Host.Outcome State Fault Refusal := actIf s s.dev.hostHere f

/-- A 4-byte write of a party to a register of PF control space. -/
def regWr (s : State) (pty : Party) (off : Nat) (be : BitVec 8) (data : W32) : Host.Outcome State Fault Refusal :=
  actIf s (s.dev.partyHere pty) (fun d => (d.pfWrite pty off false be.toNat (data.setWidth 64)).1)

/-- An 8-byte write of a party to a register of PF control space. -/
def regWr8 (s : State) (pty : Party) (off : Nat) (data : W64) : Host.Outcome State Fault Refusal :=
  actIf s (s.dev.partyHere pty) (fun d => (d.pfWrite pty off true 255 data).1)

/-- A read with an effect. -/
def regRd (s : State) (pty : Party) (off : Nat) : Host.Outcome State Fault Refusal := actIf s (s.dev.partyHere pty) (fun d => d.readBy pty off)

/-- A read of word i of the time block (R71 to R73). -/
def timeBlk (s : State) (pty : Party) (i : Nat) : Host.Outcome State Fault Refusal := regRd s pty (R.embTmTallyLo + 4 * i)

/-- A request packet on a transport channel (R223, R303). -/
def packet (s : State) (via : Via) (vc : BitVec 3) (k : Pkt) : Host.Outcome State Fault Refusal :=
  actIf s (s.dev.viaHere via k && 1 ≤ vc.toNat && vc.toNat ≤ 6) (fun d => match via with
    | .loc p => d.localReq p vc.toNat k
    | .fabric _ | .turn => d.arrive via vc.toNat k)

/-- A response packet: of the local design, or of another node (R318, R396). -/
def rspPacket (s : State) (via : Via) (k : Pkt) : Host.Outcome State Fault Refusal :=
  actIf s (s.dev.viaHere via k) (fun d => match via with
    | .loc p => (d.consume via k).localAnswer p.val k
    | .fabric _ | .turn => d.arriveRsp via k)

/-- The function of a host party. -/
def partyFn (p : Party) : Option Nat := match p with
  | .pf => some 0
  | .vf n => some n.toNat
  | .lp _ _ => none

/-- A write of the row CONTROL_WRITE in its space (R39, R562); a poisoned write to BAR0 or BAR4 is discarded and reported (R355, R367). -/
def Dev.controlWrite (d : Dev) (a : Access) : Dev :=
  if a.ep && a.space ≠ .cfg && (partyFn a.pty).isSome then d.hostPoison (if a.space = .bar4 then a.fn.toNat else (partyFn a.pty).getD 0)
  else match a.space, a.pty with
  | .bar0, _ => d.barWrite a.pty a.off.toNat a.size8 a.be.toNat a.data
  | _, .lp _ _ => d
  | .cfg, _ => d.cfgWrite a.fn.toNat (a.off.toNat % 4096) a.be.toNat (a.data.setWidth 32)
  | .bar4, _ => d.msixWrite a.fn.toNat a.off.toNat a.size8 a.be.toNat a.data

/-- What waits for a resource is tried again (R36, R312, R357, R395). -/
def Dev.admission (d : Dev) (r : AdmRes) : Dev := match r with
  | .fabricTag | .sourceLane => d.pump
  | .hostTag => d.pumpHost
  | .localTag _ | .deliveryStream _ => (d.pumpLocal).pump

/-- A source lane entry freed (R312). -/
def Dev.freeSrcLane (d : Dev) (lane : Nat) : Dev := { d with trn := { d.trn with srcLanes := d.trn.srcLanes.del lane } }

/-- A delivery stream entry freed (R395). -/
def Dev.freeStream (d : Dev) (key : Nat) : Dev := { d with trn := { d.trn with deliv := d.trn.deliv.del key } }

/-- The end-to-end timeout of a tag expires (R316). -/
def Dev.tagExpired (d : Dev) (t : Nat) : Dev := match d.trn.tags.find? t with
  | none => d
  | some f => (((d.bump F.trnCntTimeout_count).raise 202).endTag t f 3 2).pump

/-- A write-combining line open for win.wc_cfg.timeout is sent (R391). -/
def Dev.lineTimeout (d : Dev) (fn off : Nat) : Dev := match d.win.lines.find? (fun l => l.inst = fn && l.off = off / 64 * 64 && !l.sending) with
  | some l => d.flushTo l
  | none => d

/-- A mailbox slot written by a party: the manager's inbox slots, a tenant's own outbox slots (R426, R444, R445). -/
def Dev.slotCmd (d : Dev) (pty : Party) (n : InstNo) (slot : Nat) (data : W64) : Dev := match pty with
  | .vf m => if m = n then d.vfWrite n.toNat (0x200 + 8 * slot) true 255 data else d
  | .pf | .lp _ _ => (d.pfWrite pty (R.insInbox n.toNat slot) true 255 data).1

/-- The consumer index of a message ring written by a party (R430, R444, R445). -/
def Dev.consCmd (d : Dev) (pty : Party) (n : InstNo) (be : Nat) (cons : W32) : Dev := match pty with
  | .vf m => if m = n then d.vfWrite n.toNat 0x304 false be (cons.setWidth 64) else d
  | .pf | .lp _ _ => (d.pfWrite pty (R.insMsgCons n.toNat) false be (cons.setWidth 64)).1

/-- The offset of a SET or CLR register: k is 0 mask_set, 1 mask_clr, 2 pend_set, 3 pend_clr (R516). -/
def bankOff (k : Nat) (b : LicBank) : Nat := match b with
  | .shared w => 0x81000 + 0x80 * k + 4 * w.val
  | .priv c => R.licPmaskSet c.val + 4 * k

/-- The offset of a LIC configuration register (R516). -/
def licCfgOff (r : LicCfg) : Nat := match r with
  | .src n => R.licSrcCfg 0 + 4 * n.val - 128
  | .psrc c k => R.licPsrcCfg c.val k.val
  | .core c => R.licCoreCfg c.val
  | .vbase c => R.licCoreVbase c.val

/-- The register is 64 bits wide. -/
def licCfgWide (r : LicCfg) : Bool := match r with
  | .vbase _ => true
  | .src _ | .psrc _ _ | .core _ => false

/-- A source of the hardware asserts (R523): a level that stays, or a raise that passes. -/
def Dev.sourceAsserts (d : Dev) (n : Nat) (level : Bool) (port : Nat) : Dev := { d with fwt := { d.fwt with queue := d.fwt.queue ++ [⟨n, level, port, false, false⟩] } }

/-- The witness's quiet period ends (R629). -/
def Dev.quietEnds (d : Dev) : Dev := { d with twin := { d.twin with quiet := false } }

/-- An Init flit; a fresh session on FP7 re-forms a pair (R241, R627). -/
def Dev.initCmd (d : Dev) (p : Nat) (f : Flit) : Dev :=
  let e := d.initIn p f
  e.whenD (p = 7 && e.g (F.crlCnt_count 7 9) ≠ d.g (F.crlCnt_count 7 9)) Dev.twinFresh

end Sys2Proof.Machine
end

