-- ==== Sys2Proof/Machine/BivouacCmds.lean ====
section
/-! DEFINITION. The commands of Bivouac and resumption (18). -/
namespace Sys2Proof.Machine

/-- PWRFAIL_N_LOW (R605). -/
def execPwrfailNLow (s : State) : Host.Outcome State Fault Refusal := act s (fun d => d.bvcTrigger 0)

/-- MONITOR_TRIP (R605, R658): any of the five rails triggers alike. -/
def execMonitorTrip (_rail : MainRail) (s : State) : Host.Outcome State Fault Refusal := act s (fun d => d.bvcTrigger 1)

/-- BIVOUAC_DRAIN_END (R608). -/
def execBivouacDrainEnd (bad : List BadUnit) (s : State) : Host.Outcome State Fault Refusal := act s (fun d => d.bvcDrained false bad)

/-- BIVOUAC_BUDGET_EXPIRY (R610). -/
def execBivouacBudgetExpiry (bad : List BadUnit) (s : State) : Host.Outcome State Fault Refusal := act s (fun d => d.bvcDrained true bad)

/-- RETURN_WITHOUT_LOSS (R638). -/
def execReturnWithoutLoss (s : State) : Host.Outcome State Fault Refusal := act s Dev.returnNoLoss

/-- RESUME_TOKEN_WRITE (R618). -/
def execResumeTokenWrite (pty : Party) (token : W64) (s : State) : Host.Outcome State Fault Refusal := regWr8 s pty R.pitResumeToken token

/-- RESUME (R619). -/
def execResume (pty : Party) (token : W64) (s : State) : Host.Outcome State Fault Refusal := regWr8 s pty R.pitResume token

/-- RESUME_DISCARD (R621). -/
def execResumeDiscard (pty : Party) (be : BitVec 8) (s : State) : Host.Outcome State Fault Refusal := regWr s pty R.pitResumeCtl be 1#32

/-- RESUMPTION_COMPLETE (R620). -/
def execResumptionComplete (s : State) : Host.Outcome State Fault Refusal := chip s Dev.resumeDone

/-- DISCARD_COMPLETE (R621). -/
def execDiscardComplete (s : State) : Host.Outcome State Fault Refusal := chip s Dev.discardDone

end Sys2Proof.Machine
end

