-- ==== Sys2Proof/Machine/ChangelogCmds.lean ====
section
/-! DEFINITION. The commands of the change log (16). -/
namespace Sys2Proof.Machine

/-- RECORD_WRITE (R567). -/
def execRecordWrite (s : State) : Host.Outcome State Fault Refusal := chip s Dev.flushOne

/-- CLG_ACK (R569). -/
def execClgAck (pty : Party) (seq : W64) (s : State) : Host.Outcome State Fault Refusal := regWr8 s pty R.clgAck seq

/-- RD_SEQ_WRITE (R570). -/
def execRdSeqWrite (pty : Party) (seq : W64) (s : State) : Host.Outcome State Fault Refusal := regWr8 s pty R.clgRdSeq seq

/-- RD_REC_ADVANCE (R570). -/
def execRdRecAdvance (pty : Party) (s : State) : Host.Outcome State Fault Refusal := regRd s pty (R.clgRdRec 7 + 4)

/-- SNAPSHOT_TAKEN (R570). -/
def execSnapshotTaken (bad : Bool) (s : State) : Host.Outcome State Fault Refusal := chip s (fun d => d.snapTaken bad)

/-- PUSH_BATCH (R572). -/
def execPushBatch (s : State) : Host.Outcome State Fault Refusal := chip s Dev.pushBatch

/-- PUSH_CONS_WRITE (R572). -/
def execPushConsWrite (pty : Party) (seq : W64) (s : State) : Host.Outcome State Fault Refusal := regWr8 s pty R.clgPushCons seq

end Sys2Proof.Machine
end

