-- ==== Sys2Proof/Machine/EmberCmds.lean ====
section
/-! DEFINITION. The commands of Ember (02): rails, crystal, second boundaries, the wall clock, the time block, trim, hold monitor, wake. -/
namespace Sys2Proof.Machine

/-- CRYSTAL_LOSS (R34, R58): substitute cycles and F002. -/
def execCrystalLoss (s : State) : Host.Outcome State Fault Refusal := act s Dev.crystalLost

/-- CRYSTAL_GOOD (R58, R59). -/
def execCrystalGood (s : State) : Host.Outcome State Fault Refusal := act s Dev.crystalGood

/-- EMBER_FRESH_START (R55, R60): only where both rails were absent. -/
def execEmberFreshStart (rail : Rail) (s : State) : Host.Outcome State Fault Refusal := act s (fun d => d.freshStart rail)

/-- SWITCH_TO_VBAT (R76). -/
def execSwitchToVbat (s : State) : Host.Outcome State Fault Refusal := act s Dev.switchToBat

/-- RETURN_TO_VMAIN (R76, R82). -/
def execReturnToVmain (s : State) : Host.Outcome State Fault Refusal := act s Dev.returnToMain

/-- EMBER_RAIL_ABSENT (R76). -/
def execEmberRailAbsent (rail : Rail) (s : State) : Host.Outcome State Fault Refusal := act s (fun d => d.railAbsent rail)

/-- SECOND_BOUNDARY (R57, R65, R69). -/
def execSecondBoundary (c : Clock) (s : State) : Host.Outcome State Fault Refusal := act s (fun d => d.secondBoundary c)

/-- OSC_STOP (R59). -/
def execOscStop (s : State) : Host.Outcome State Fault Refusal := act s Dev.oscStop

/-- WALL_CLOCK_WRITE (R66, R67, R71): tm_bin is written whole by one 8-byte access, or by halves. -/
def execWallClockWrite (pty : Party) (reg : WallReg) (be : BitVec 8) (data : W64) (s : State) : Host.Outcome State Fault Refusal := actIf s (s.dev.partyHere pty) (fun d => (d.pfWrite pty (wallOff reg) (reg = .bin) be.toNat data).1)

/-- WALL_WRITE_APPLY (R66 to R68). -/
def execWallWriteApply (atBoundary : Bool) (s : State) : Host.Outcome State Fault Refusal := act s (fun d => d.wallApply atBoundary)

/-- WCTL_WRITE (R67, R91). -/
def execWctlWrite (pty : Party) (be : BitVec 8) (data : W32) (s : State) : Host.Outcome State Fault Refusal := regWr s pty R.embWctl be data

/-- DST_ADD_HOUR (R69, R70). -/
def execDstAddHour (pty : Party) (s : State) : Host.Outcome State Fault Refusal := regWr s pty R.embDst 15#8 1#32

/-- DST_SUBTRACT_HOUR (R69, R70). -/
def execDstSubtractHour (pty : Party) (s : State) : Host.Outcome State Fault Refusal := regWr s pty R.embDst 15#8 2#32

/-- TM_TALLY_LO_READ (R71). -/
def execTmTallyLoRead (pty : Party) (s : State) : Host.Outcome State Fault Refusal := timeBlk s pty 0

/-- TIME_BLOCK_READ (R71 to R73). -/
def execTimeBlockRead (pty : Party) (reg : Fin 8) (s : State) : Host.Outcome State Fault Refusal := timeBlk s pty reg.val

/-- TM_END_READ (R73). -/
def execTmEndRead (pty : Party) (s : State) : Host.Outcome State Fault Refusal := timeBlk s pty 7

/-- FREEZE_LAPSE (R72). -/
def execFreezeLapse (reader : Fin 5) (s : State) : Host.Outcome State Fault Refusal := act s (fun d => d.freezeLapses reader.val)

/-- TRIM_WRITE (R74, R87). -/
def execTrimWrite (pty : Party) (be : BitVec 8) (data : W32) (s : State) : Host.Outcome State Fault Refusal := regWr s pty R.embTrim be data

/-- TRIM_WINDOW_END (R74, R75). -/
def execTrimWindowEnd (offset : BitVec 16) (s : State) : Host.Outcome State Fault Refusal := act s (fun d => d.trimWindow offset.toNat)

/-- SWITCH_OVER_SUMMARY (R78). -/
def execSwitchOverSummary (s : State) : Host.Outcome State Fault Refusal := act s Dev.switchSummary

/-- HOLD_BREAK (R79). -/
def execHoldBreak (s : State) : Host.Outcome State Fault Refusal := act s Dev.holdBroken

/-- WAKE_WRITE (R83, R87). -/
def execWakeWrite (pty : Party) (be : BitVec 8) (data : W32) (s : State) : Host.Outcome State Fault Refusal := regWr s pty R.embWake be data

/-- WAKE_EXPIRY (R82, R83). -/
def execWakeExpiry (s : State) : Host.Outcome State Fault Refusal := act s Dev.wakeExpires

/-- PWRON_PULSE_END (R82). -/
def execPwronPulseEnd (s : State) : Host.Outcome State Fault Refusal := act s Dev.pulseEnds

end Sys2Proof.Machine
end

