-- ==== Sys2Proof/Machine/FirewatchCmds.lean ====
section
/-! DEFINITION. The commands of Firewatch (15). -/
namespace Sys2Proof.Machine

/-- SOURCE_RAISE (R523): a raise of the hardware's own. -/
def execSourceRaise (n : Fin 512) (level : Bool) (port : Port) (s : State) : Host.Outcome State Fault Refusal := chip s (fun d => d.sourceAsserts n.val level port.val)

/-- GUYLINE_BROKEN (R521). -/
def execGuylineBroken (n : Fin 512) (s : State) : Host.Outcome State Fault Refusal := chip s (fun d => d.guyBroken n.val)

/-- GUYLINE_MENDED (R521). -/
def execGuylineMended (n : Fin 512) (asserted : Bool) (s : State) : Host.Outcome State Fault Refusal := chip s (fun d => d.guyMended n.val asserted)

/-- ESCALATION_STEP (R529). -/
def execEscalationStep (s : State) : Host.Outcome State Fault Refusal := chip s Dev.escalate

/-- GRAVE_CHIP_RESET (R534). -/
def execGraveChipReset (s : State) : Host.Outcome State Fault Refusal := chip s Dev.graveReset

/-- FWT_ACK (R532). -/
def execFwtAck (pty : Party) (be : BitVec 8) (data : W32) (s : State) : Host.Outcome State Fault Refusal := regWr s pty R.fwtAck be data

/-- FORCE_SET (R538). -/
def execForceSet (pty : Party) (w : Fin 16) (be : BitVec 8) (data : W32) (s : State) : Host.Outcome State Fault Refusal := regWr s pty (R.fwtForceSet w.val) be data

/-- FORCE_CLR (R538). -/
def execForceClr (pty : Party) (w : Fin 16) (be : BitVec 8) (data : W32) (s : State) : Host.Outcome State Fault Refusal := regWr s pty (R.fwtForceClr w.val) be data

/-- FWT_SRC_CFG_WRITE (R528, R544). -/
def execFwtSrcCfgWrite (pty : Party) (n : Fin 512) (be : BitVec 8) (data : W32) (s : State) : Host.Outcome State Fault Refusal := regWr s pty (R.fwtSrcCfg n.val) be data

/-- WEAR_MEASUREMENT (R539). -/
def execWearMeasurement (slowdowns : List (BitVec 16)) (s : State) : Host.Outcome State Fault Refusal := chip s (fun d => d.wearAll (slowdowns.map (fun x => x.toNat)))

/-- ERR_RELEASE (R531). -/
def execErrRelease (s : State) : Host.Outcome State Fault Refusal := chip s Dev.errReleased

end Sys2Proof.Machine
end

