-- ==== Sys2Proof/Machine/HostCmds.lean ====
section
/-! DEFINITION. The commands of the host port (10). -/
namespace Sys2Proof.Machine

/-- HOST_LINK_UP (R338). -/
def execHostLinkUp (speed width : BitVec 3) (flit : Bool) (s : State) : Host.Outcome State Fault Refusal := chip s (fun d => d.hostLinkUp speed.toNat width.toNat flit)

/-- CONFIG_WRITE (R137, R344, R348). -/
def execConfigWrite (fn : InstNo) (off : BitVec 12) (be : BitVec 8) (data : W32) (s : State) : Host.Outcome State Fault Refusal := host s (fun d => d.cfgWrite fn.toNat off.toNat be.toNat data)

/-- PF_FLR (R363): the write of Initiate Function Level Reset in the PF. -/
def execPfFlr (s : State) : Host.Outcome State Fault Refusal := host s (fun d => d.cfgWrite 0 cfgDevCtl 2 (d.cfgW 0 cfgDevCtl ||| 0x8000#32))

/-- VF_FLR (R363): the write of Initiate Function Level Reset in VF n. -/
def execVfFlr (n : InstNo) (s : State) : Host.Outcome State Fault Refusal := actIf s (s.dev.hostHere && n ≠ 0#12) (fun d => d.cfgWrite n.toNat cfgDevCtl 2 (d.cfgW n.toNat cfgDevCtl ||| 0x8000#32))

/-- VF_ENABLE_SET (R351): the write of VF Enable. -/
def execVfEnableSet (s : State) : Host.Outcome State Fault Refusal := host s (fun d => d.cfgWrite 0 cfgSriovCtl 1 (d.cfgW 0 cfgSriovCtl ||| 1#32))

/-- VF_ENABLE_CLEAR (R363): the clearing of VF Enable. -/
def execVfEnableClear (s : State) : Host.Outcome State Fault Refusal := host s (fun d => d.cfgWrite 0 cfgSriovCtl 1 (d.cfgW 0 cfgSriovCtl &&& 0xFFFFFFFE#32))

/-- HOT_RESET (R363, R380). -/
def execHotReset (s : State) : Host.Outcome State Fault Refusal := chip s Dev.hotReset

/-- DL_DOWN (R363, R366). -/
def execDlDown (s : State) : Host.Outcome State Fault Refusal := chip s Dev.dlDown

/-- HOST_BAR2_WRITE (R355, R386, R390). -/
def execHostBar2Write (fn : InstNo) (off : BitVec 64) (bytes : List Byte) (be : List Bool) (ep : Bool) (s : State) : Host.Outcome State Fault Refusal := host s (fun d => d.hostWrite2 fn.toNat off.toNat bytes be ep)

/-- HOST_BAR2_READ (R385, R386). -/
def execHostBar2Read (fn : InstNo) (reqTag : BitVec 16) (off : BitVec 64) (length : Nat) (s : State) : Host.Outcome State Fault Refusal := host s (fun d => d.hostNp2 1 fn.toNat reqTag off.toNat length [] 0)

/-- HOST_BAR2_ATOMIC (R352). -/
def execHostBar2Atomic (fn : InstNo) (reqTag : BitVec 16) (off : BitVec 64) (kind : AtomicKind) (width : Nat) (operands : List Byte) (s : State) : Host.Outcome State Fault Refusal := host s (fun d => d.hostAtomic2 fn.toNat reqTag off.toNat kind width operands)

/-- MSIX_TABLE_WRITE (R360, R374). -/
def execMsixTableWrite (fn : InstNo) (off : BitVec 24) (size8 : Bool) (be : BitVec 8) (data : W64) (s : State) : Host.Outcome State Fault Refusal := host s (fun d => d.msixWrite fn.toNat off.toNat size8 be.toNat data)

/-- HOST_MESSAGE (R352). -/
def execHostMessage (fn : InstNo) (x : HostMsg) (s : State) : Host.Outcome State Fault Refusal := host s (fun d => d.hostMsg fn.toNat x)

/-- CPL_LIMIT_EXPIRY (R353, R354). -/
def execCplLimitExpiry (fn : InstNo) (reqTag : BitVec 16) (s : State) : Host.Outcome State Fault Refusal := chip s (fun d => d.cplLimit fn.toNat reqTag)

/-- HOST_COMPLETION (R358). -/
def execHostCompletion (htag : BitVec 16) (status : HostStatus) (data : List Byte) (s : State) : Host.Outcome State Fault Refusal := host s (fun d => d.hostCpl htag.toNat status data)

/-- COMPLETION_TIMEOUT (R358). -/
def execCompletionTimeout (htag : BitVec 16) (s : State) : Host.Outcome State Fault Refusal := chip s (fun d => d.hostCplTimeout htag.toNat)

/-- ASPM_L1_ENTRY (R339). -/
def execAspmL1Entry (sub : L1Sub) (s : State) : Host.Outcome State Fault Refusal := chip s (fun d => d.l1Entry sub)

/-- L1_EXIT (R339). -/
def execL1Exit (s : State) : Host.Outcome State Fault Refusal := chip s Dev.l1Leave

/-- HOST_LINK_ERROR (R367, R368). -/
def execHostLinkError (e : HostErr) (fn : InstNo) (s : State) : Host.Outcome State Fault Refusal := host s (fun d => d.hostError e fn.toNat)

/-- HOST_CORRECTED_INTERVAL (R368). -/
def execHostCorrectedInterval (s : State) : Host.Outcome State Fault Refusal := chip s Dev.hostCorrEnd

end Sys2Proof.Machine
end

