-- ==== Sys2Proof/Machine/InstanceCmds.lean ====
section
/-! DEFINITION. The commands of the instance engine (12): commands, mailboxes, messages, the commons. -/
namespace Sys2Proof.Machine

/-- INS_PITCH (R421, R422). -/
def execInsPitch (pty : Party) (index : InstNo) (s : State) : Host.Outcome State Fault Refusal := regWr s pty R.insCmd 15#8 (BitVec.ofNat 32 (0 * 2 ^ 16 + index.toNat))

/-- INS_RESIZE (R421, R422). -/
def execInsResize (pty : Party) (index : InstNo) (s : State) : Host.Outcome State Fault Refusal := regWr s pty R.insCmd 15#8 (BitVec.ofNat 32 (1 * 2 ^ 16 + index.toNat))

/-- INS_DESTROY (R423). -/
def execInsDestroy (pty : Party) (index : InstNo) (s : State) : Host.Outcome State Fault Refusal := regWr s pty R.insCmd 15#8 (BitVec.ofNat 32 (2 * 2 ^ 16 + index.toNat))

/-- INS_READ (R421). -/
def execInsRead (pty : Party) (index : InstNo) (s : State) : Host.Outcome State Fault Refusal := regWr s pty R.insCmd 15#8 (BitVec.ofNat 32 (3 * 2 ^ 16 + index.toNat))

/-- INS_CMD_COMPLETE (R422). -/
def execInsCmdComplete (s : State) : Host.Outcome State Fault Refusal := chip s Dev.insDone

/-- FLR_COMPLETE (R423). -/
def execFlrComplete (n : InstNo) (s : State) : Host.Outcome State Fault Refusal := chip s (fun d => d.flrFinish n.toNat)

/-- INBOX_RING (R426). -/
def execInboxRing (pty : Party) (n : InstNo) (mask : BitVec 8) (s : State) : Host.Outcome State Fault Refusal := regWr s pty (R.insInboxRing n.toNat) 15#8 (mask.setWidth 32)

/-- OUTBOX_RING (R426, R445). -/
def execOutboxRing (n : InstNo) (mask : BitVec 8) (s : State) : Host.Outcome State Fault Refusal := actIf s (s.dev.partyHere (.vf n)) (fun d => d.vfWrite n.toNat 0x240 false 15 (mask.setWidth 64))

/-- MAILBOX_SLOT_WRITE (R426): an inbox slot by the manager, an outbox slot by the tenant. -/
def execMailboxSlotWrite (pty : Party) (n : InstNo) (slot : Fin 8) (data : W64) (s : State) : Host.Outcome State Fault Refusal := actIf s (s.dev.partyHere pty) (fun d => d.slotCmd pty n slot.val data)

/-- MSG_CONS_WRITE (R430): by the owner of the ring. -/
def execMsgConsWrite (pty : Party) (n : InstNo) (be : BitVec 8) (cons : BitVec 32) (s : State) : Host.Outcome State Fault Refusal := actIf s (s.dev.partyHere pty) (fun d => d.consCmd pty n be.toNat cons)

/-- COMMONS_ACCESS (R432, R433). -/
def execCommonsAccess (pty : Party) (off : BitVec 24) (write : Bool) (length : Nat) (bytes : List Byte) (be : List Bool) (s : State) : Host.Outcome State Fault Refusal := actIf s (s.dev.partyHere pty) (fun d => d.commons pty off.toNat write length bytes be)

end Sys2Proof.Machine
end

