-- ==== Sys2Proof/Machine/IsolationCmds.lean ====
section
/-! DEFINITION. The commands of rate limits, egress and the dirty log (13). -/
namespace Sys2Proof.Machine

/-- BUCKET_REFILL (R453). -/
def execBucketRefill (s : State) : Host.Outcome State Fault Refusal := chip s Dev.refill

/-- BUCKET_LIMIT_WRITE (R455). -/
def execBucketLimitWrite (pty : Party) (bucket : BitVec 12) (field : Fin 8) (be : BitVec 8) (data : W32) (s : State) : Host.Outcome State Fault Refusal := regWr s pty (R.insBucketLimits bucket.toNat + 4 * field.val) be data

/-- EGRESS_VISIT (R456, R457). -/
def execEgressVisit (e : Fin 14) (s : State) : Host.Outcome State Fault Refusal := chip s (fun d => d.visit e.val)

/-- DL_START (R463). -/
def execDlStart (pty : Party) (t : BitVec 10) (s : State) : Host.Outcome State Fault Refusal := regWr s pty R.insDlCmd 15#8 (BitVec.ofNat 32 (0 * 2 ^ 16 + t.toNat))

/-- DL_SWITCH (R464). -/
def execDlSwitch (pty : Party) (t : BitVec 10) (s : State) : Host.Outcome State Fault Refusal := regWr s pty R.insDlCmd 15#8 (BitVec.ofNat 32 (1 * 2 ^ 16 + t.toNat))

/-- DL_STOP (R468). -/
def execDlStop (pty : Party) (t : BitVec 10) (s : State) : Host.Outcome State Fault Refusal := regWr s pty R.insDlCmd 15#8 (BitVec.ofNat 32 (2 * 2 ^ 16 + t.toNat))

/-- DL_READ (R477). -/
def execDlRead (pty : Party) (t : BitVec 10) (s : State) : Host.Outcome State Fault Refusal := regWr s pty R.insDlCmd 15#8 (BitVec.ofNat 32 (3 * 2 ^ 16 + t.toNat))

/-- DL_SWITCH_DRAIN_DONE (R464). -/
def execDlSwitchDrainDone (t : BitVec 10) (s : State) : Host.Outcome State Fault Refusal := chip s (fun d => d.dlFinish t.toNat)

/-- DL_WORD_WRITE (R461). -/
def execDlWordWrite (t : BitVec 10) (half : Bool) (word : Nat) (s : State) : Host.Outcome State Fault Refusal := chip s (fun d => d.dlWriteDue t.toNat half word)

end Sys2Proof.Machine
end

