-- ==== Sys2Proof/Machine/LicCmds.lean ====
section
/-! DEFINITION. The commands of the LIC (14). -/
namespace Sys2Proof.Machine

/-- SIGNAL (R485, R501). -/
def execSignal (pty : Party) (be : BitVec 8) (data : W32) (s : State) : Host.Outcome State Fault Refusal := regWr s pty R.licSignal be data

/-- MASK_SET (R506). -/
def execMaskSet (pty : Party) (b : LicBank) (be : BitVec 8) (data : W32) (s : State) : Host.Outcome State Fault Refusal := regWr s pty (bankOff 0 b) be data

/-- MASK_CLR (R506). -/
def execMaskClr (pty : Party) (b : LicBank) (be : BitVec 8) (data : W32) (s : State) : Host.Outcome State Fault Refusal := regWr s pty (bankOff 1 b) be data

/-- PEND_SET (R485). -/
def execPendSet (pty : Party) (b : LicBank) (be : BitVec 8) (data : W32) (s : State) : Host.Outcome State Fault Refusal := regWr s pty (bankOff 2 b) be data

/-- PEND_CLR (R486). -/
def execPendClr (pty : Party) (b : LicBank) (be : BitVec 8) (data : W32) (s : State) : Host.Outcome State Fault Refusal := regWr s pty (bankOff 3 b) be data

/-- LIC_SRC_CFG_WRITE (R506, R516). -/
def execLicSrcCfgWrite (pty : Party) (r : LicCfg) (be : BitVec 8) (data : W64) (s : State) : Host.Outcome State Fault Refusal := actIf s (s.dev.partyHere pty) (fun d => (d.pfWrite pty (licCfgOff r) (licCfgWide r) be.toNat data).1)

/-- CORE_BIND_WRITE (R509). -/
def execCoreBindWrite (pty : Party) (c : Fin 16) (be : BitVec 8) (data : W32) (s : State) : Host.Outcome State Fault Refusal := regWr s pty (R.licCoreBind c.val) be data

/-- CLAIM_READ (R491). -/
def execClaimRead (pty : Party) (c : Fin 16) (s : State) : Host.Outcome State Fault Refusal := actIf s (s.dev.partyHere pty) (fun d => d.claimRead pty c)

/-- EOI (R493). -/
def execEoi (pty : Party) (c : Fin 16) (be : BitVec 8) (data : W32) (s : State) : Host.Outcome State Fault Refusal := regWr s pty (R.licEoi c.val) be data

/-- DELIVER_CREDIT (R489). -/
def execDeliverCredit (c : Fin 16) (s : State) : Host.Outcome State Fault Refusal := chip s (fun d => d.deliverPrep c.val)

/-- DELIVER_CREDIT_WAIT (R508). -/
def execDeliverCreditWait (p : LPort) (s : State) : Host.Outcome State Fault Refusal := chip s (fun d => d.deliverWaits p.val)

/-- LIC_GATE_ENTRY (R497). -/
def execLicGateEntry (s : State) : Host.Outcome State Fault Refusal := chip s Dev.gateEntry

/-- LIC_WAKE (R498, R499). -/
def execLicWake (accessWaits : Bool) (s : State) : Host.Outcome State Fault Refusal := chip s (fun d => d.licWakeUp accessWaits)

/-- LIC_RESTORE_COMPLETE (R499). -/
def execLicRestoreComplete (crcOk : Bool) (s : State) : Host.Outcome State Fault Refusal := chip s (fun d => d.licRestored crcOk)

end Sys2Proof.Machine
end

