-- ==== Sys2Proof/Machine/LinkCmds.lean ====
section
/-! DEFINITION. The commands of the link layer of a crl port (07). -/
namespace Sys2Proof.Machine

/-- FLIT_SLOT (R222, R230, R231): whether the Store takes a spill, and whether a read of the far ring meets an error. -/
def execFlitSlot (p : Port) (spillOk readBad : Bool) (s : State) : Host.Outcome State Fault Refusal := chip s (fun d => d.flitSlot p.val spillOk readBad)

/-- DATA_FLIT (R227 to R237, R249, R250). -/
def execDataFlit (p : Port) (f : Flit) (s : State) : Host.Outcome State Fault Refusal := chip s (fun d => (d.takeUp p.val).dataIn p.val f)

/-- NULL_FLIT (R227). -/
def execNullFlit (p : Port) (f : Flit) (s : State) : Host.Outcome State Fault Refusal := chip s (fun d => (d.takeUp p.val).nullIn p.val f)

/-- INIT_FLIT (R240 to R243). -/
def execInitFlit (p : Port) (f : Flit) (s : State) : Host.Outcome State Fault Refusal := chip s (fun d => (d.takeUp p.val).initCmd p.val f)

/-- UNDEFINED_FLIT (R248). -/
def execUndefinedFlit (p : Port) (f : Flit) (s : State) : Host.Outcome State Fault Refusal := chip s (fun d => (d.takeUp p.val).undefIn p.val f)

/-- BAD_FLIT (R227). -/
def execBadFlit (p : Port) (s : State) : Host.Outcome State Fault Refusal := chip s (fun d => (d.takeUp p.val).badIn p.val)

/-- REPLAY_TIMEOUT (R233). -/
def execReplayTimeout (p : Port) (s : State) : Host.Outcome State Fault Refusal := chip s (fun d => d.replayTimer p.val)

/-- RECEIVE_DELIVERY (R225, R236, R238): `readBad` where a read of the landing ring meets an error (R256). -/
def execReceiveDelivery (p : Port) (vc : Fin 8) (readBad : Bool) (s : State) : Host.Outcome State Fault Refusal := chip s (fun d => d.deliverSlot p.val vc.val readBad)

/-- INIT_TIMEOUT (R241). -/
def execInitTimeout (p : Port) (s : State) : Host.Outcome State Fault Refusal := chip s (fun d => d.initTimer p.val)

/-- SESSION_LAPSE (R244, R400). -/
def execSessionLapse (p : Port) (s : State) : Host.Outcome State Fault Refusal := chip s (fun d => d.lapse p.val)

/-- SEND_STALL (R247). -/
def execSendStall (p : Port) (s : State) : Host.Outcome State Fault Refusal := chip s (fun d => d.sendStalled p.val)

/-- REPLAY_RATE_INTERVAL (R247). -/
def execReplayRateInterval (p : Port) (s : State) : Host.Outcome State Fault Refusal := chip s (fun d => d.replayInterval p.val)

end Sys2Proof.Machine
end

