-- ==== Sys2Proof/Machine/NetCmds.lean ====
section
/-! DEFINITION. The commands of discovery and routing (08). -/
namespace Sys2Proof.Machine

/-- HELLO (R263, R268). -/
def execHello (p : FPort) (h : Hello) (s : State) : Host.Outcome State Fault Refusal := chip s (fun d => (d.consumeRaw p.val (helloBytes h)).helloCmd p.val h)

/-- HELLO_INTERVAL (R267). -/
def execHelloInterval (p : FPort) (s : State) : Host.Outcome State Fault Refusal := chip s (fun d => d.sendHello p.val)

/-- NEIGHBOUR_DEAD (R268). -/
def execNeighbourDead (p : FPort) (s : State) : Host.Outcome State Fault Refusal := chip s (fun d => d.nbrDead p.val)

/-- LSA (R264, R270, R273). -/
def execLsa (p : FPort) (hdr : NetHdr) (l : Lsa) (s : State) : Host.Outcome State Fault Refusal := chip s (fun d => (d.consumeRaw p.val (lsaBytes hdr l)).lsaCmd p.val hdr l)

/-- NETWORK_ACK (R273). -/
def execNetworkAck (p : FPort) (hdr : NetHdr) (keys : List LsaKey) (s : State) : Host.Outcome State Fault Refusal := chip s (fun d => (d.consumeRaw p.val (keysBytes hdr false keys)).ackCmd p.val hdr keys)

/-- SUMMARY (R269). -/
def execSummary (p : FPort) (hdr : NetHdr) (last : Bool) (keys : List LsaKey) (s : State) : Host.Outcome State Fault Refusal := chip s (fun d => (d.consumeRaw p.val (keysBytes hdr last keys)).summaryCmd p.val hdr last keys)

/-- NETWORK_REQUEST (R269). -/
def execNetworkRequest (p : FPort) (hdr : NetHdr) (keys : List LsaKey) (s : State) : Host.Outcome State Fault Refusal := chip s (fun d => (d.consumeRaw p.val (keysBytes hdr false keys)).requestCmd p.val hdr keys)

/-- REQUEST_RESEND (R269). -/
def execRequestResend (p : FPort) (s : State) : Host.Outcome State Fault Refusal := chip s (fun d => d.requestAgain p.val)

/-- LSA_RESEND (R273). -/
def execLsaResend (p : FPort) (s : State) : Host.Outcome State Fault Refusal := chip s (fun d => d.lsaAgain p.val)

/-- LSA_ORIGINATION (R271). -/
def execLsaOrigination (s : State) : Host.Outcome State Fault Refusal := chip s Dev.originateCmd

/-- LSA_DELETION (R273). -/
def execLsaDeletion (serial : Serial) (s : State) : Host.Outcome State Fault Refusal := chip s (fun d => d.deleteLsa serial)

/-- ROUTE_RUN (R278). -/
def execRouteRun (s : State) : Host.Outcome State Fault Refusal := chip s Dev.routeRun

/-- ROUTE_INSTALL (R278, R280). -/
def execRouteInstall (s : State) : Host.Outcome State Fault Refusal := chip s Dev.routeInstall

/-- DAMPING_END (R291). -/
def execDampingEnd (p : FPort) (s : State) : Host.Outcome State Fault Refusal := chip s (fun d => d.undamp p.val)

/-- DAMPING_COUNT_RESET (R291). -/
def execDampingCountReset (p : FPort) (s : State) : Host.Outcome State Fault Refusal := chip s (fun d => d.s (F.netNbrCost_downs p.val) 0)

/-- CONVERGENCE (R275, R289). -/
def execConvergence (s : State) : Host.Outcome State Fault Refusal := chip s Dev.convergenceCmd

end Sys2Proof.Machine
end

