-- ==== Sys2Proof/Machine/PhyCmds.lean ====
section
/-! DEFINITION. The commands of the physical layer of a crl port (06). -/
namespace Sys2Proof.Machine

/-- TRAINING_START (R201). -/
def execTrainingStart (p : Port) (s : State) : Host.Outcome State Fault Refusal := chip s (fun d => d.trainStart p.val)

/-- TRAINING_FRAME (R200, R202). -/
def execTrainingFrame (p : Port) (lane : Fin 8) (frame : BitVec 256) (s : State) : Host.Outcome State Fault Refusal := chip s (fun d => d.frame p.val lane.val frame)

/-- TRAINING_STEP_TIMEOUT (R201). -/
def execTrainingStepTimeout (p : Port) (s : State) : Host.Outcome State Fault Refusal := chip s (fun d => d.stepTimeout p.val)

/-- TRAINING_IDLE_END (R203). -/
def execTrainingIdleEnd (p : Port) (s : State) : Host.Outcome State Fault Refusal := chip s (fun d => d.trainIdleEnd p.val)

/-- DESKEW_END (R201). -/
def execDeskewEnd (p : Port) (s : State) : Host.Outcome State Fault Refusal := chip s (fun d => d.deskewed p.val)

/-- TRAINING_CONFIG_END (R201). -/
def execTrainingConfigEnd (p : Port) (s : State) : Host.Outcome State Fault Refusal := chip s (fun d => d.configured p.val)

/-- SWITCH_COUNT_END (R201). -/
def execSwitchCountEnd (p : Port) (s : State) : Host.Outcome State Fault Refusal := chip s (fun d => d.switched p.val)

/-- DATA_LOCK (R204). -/
def execDataLock (p : Port) (s : State) : Host.Outcome State Fault Refusal := chip s (fun d => d.dataLocked p.val)

/-- FEC_CODEWORD (R198, R204, R206). -/
def execFecCodeword (p : Port) (lane : Fin 8) (cw : List (BitVec 10)) (s : State) : Host.Outcome State Fault Refusal := chip s (fun d => d.codeword p.val lane.val cw)

/-- SYNC_BLOCK (R199, R204). -/
def execSyncBlock (p : Port) (lane : Fin 8) (header : BitVec 2) (payload : BitVec 64) (s : State) : Host.Outcome State Fault Refusal := chip s (fun d => d.syncBlk p.val lane.val header.toNat payload)

/-- LOCK_LOSS (R204, R205). -/
def execLockLoss (p : Port) (lane : Fin 8) (s : State) : Host.Outcome State Fault Refusal := chip s (fun d => d.laneLost p.val lane.val)

/-- LOCK_RETURN (R205, R211): `expiring` where the lock-loss timer expires in the same CORE cycle. -/
def execLockReturn (p : Port) (lane : Fin 8) (expiring : Bool) (s : State) : Host.Outcome State Fault Refusal := chip s (fun d => d.laneFound p.val lane.val expiring)

/-- LOCK_LOSS_TIMER_EXPIRY (R205). -/
def execLockLossTimerExpiry (p : Port) (s : State) : Host.Outcome State Fault Refusal := chip s (fun d => d.lockTimer p.val)

/-- RETRAIN (R212): crl.phy_cfg written with retrain 1 and its other bit as it stands. -/
def execRetrain (pty : Party) (p : Port) (s : State) : Host.Outcome State Fault Refusal := regWr s pty (R.crlPhyCfg p.val) 15#8 (BitVec.ofNat 32 (s.dev.g (F.crlPhyCfg_nrz_fec p.val) + 2))

/-- PHYCAL_MEASUREMENT (R207). -/
def execPhycalMeasurement (ohms : Nat) (s : State) : Host.Outcome State Fault Refusal := chip s (fun d => d.calService ohms)

/-- EYE_SCAN (R208). -/
def execEyeScan (pty : Party) (p : Port) (be : BitVec 8) (data : W32) (s : State) : Host.Outcome State Fault Refusal := regWr s pty (R.crlEyeCtl p.val) be data

/-- EYE_SCAN_COMPLETE (R208). -/
def execEyeScanComplete (p : Port) (width height : BitVec 8) (s : State) : Host.Outcome State Fault Refusal := chip s (fun d => d.eyeDone p.val width.toNat height.toNat)

/-- CORRECTED_SYMBOL_INTERVAL (R206). -/
def execCorrectedSymbolInterval (p : Port) (s : State) : Host.Outcome State Fault Refusal := chip s (fun d => d.corrInterval p.val)

end Sys2Proof.Machine
end

