-- ==== Sys2Proof/Machine/PinCmds.lean ====
section
/-! DEFINITION. The commands of the pins, supplies, reference clocks and sensors (01, 04, 10, 19). -/
namespace Sys2Proof.Machine

/-- CONTROL_WRITE (R19, R39, R352, R557). -/
def execControlWrite (a : Access) (s : State) : Host.Outcome State Fault Refusal := actIf s (s.dev.partyHere a.pty) (fun d => d.controlWrite a)

/-- REFCLK_LOST (R34). -/
def execRefclkLost (s : State) : Host.Outcome State Fault Refusal := act s Dev.refclkGone

/-- REFCLK_RETURN (R151). -/
def execRefclkReturn (s : State) : Host.Outcome State Fault Refusal := act s Dev.refclkBack

/-- REFF_LOST (R34, R52). -/
def execReffLost (s : State) : Host.Outcome State Fault Refusal := act s Dev.reffGone

/-- REFF_RETURN (R151). -/
def execReffReturn (s : State) : Host.Outcome State Fault Refusal := act s Dev.reffBack

/-- RAILS_GOOD (R125, R658). -/
def execRailsGood (s : State) : Host.Outcome State Fault Refusal := act s Dev.railsGood

/-- MAIN_POWER_LOSS (R660, R663). -/
def execMainPowerLoss (s : State) : Host.Outcome State Fault Refusal := act s Dev.powerLost

/-- PERST_N_ASSERT (R126, R149, R152). -/
def execPerstNAssert (s : State) : Host.Outcome State Fault Refusal := act s Dev.perstLow

/-- PERST_N_RELEASE (R128, R149). -/
def execPerstNRelease (s : State) : Host.Outcome State Fault Refusal := act s Dev.perstHigh

/-- RAIL_READING (R656, R680, R685). -/
def execRailReading (mv : List Nat) (s : State) : Host.Outcome State Fault Refusal := chip s (fun d => d.railsRead mv)

/-- VBAT_MEASUREMENT (R684, R685). -/
def execVbatMeasurement (mv : Nat) (s : State) : Host.Outcome State Fault Refusal := chip s (fun d => d.vbatRead mv)

/-- TEMP_READING (R671, R681). -/
def execTempReading (temps : List Int) (s : State) : Host.Outcome State Fault Refusal := chip s (fun d => d.tempsRead temps)

/-- PWRFAIL_N_GLITCH (R677). -/
def execPwrfailNGlitch (s : State) : Host.Outcome State Fault Refusal := chip s Dev.pwrGlitch

end Sys2Proof.Machine
end

