-- ==== Sys2Proof/Machine/PitchCmds.lean ====
section
/-! DEFINITION. The commands of the pitch (03, 04): straps, the steps of a pitch, block re-pitches. -/
namespace Sys2Proof.Machine

/-- STRAP_SAMPLING_COMPLETE (R99 to R105). -/
def execStrapSamplingComplete (x : StrapSamples) (s : State) : Host.Outcome State Fault Refusal := chip s (fun d => d.strapsDone x)

/-- STRAP_REREAD (R113). -/
def execStrapReread (x : StrapPass) (s : State) : Host.Outcome State Fault Refusal := chip s (fun d => d.reread x)

/-- PLL_LOCK (R134, R151, R207). -/
def execPllLock (ohms : Nat) (s : State) : Host.Outcome State Fault Refusal := chip s (fun d => d.pllLocked ohms)

/-- STORE_EXIT_COMPLETE (R129, R178). -/
def execStoreExitComplete (badA badB : Bool) (s : State) : Host.Outcome State Fault Refusal := chip s (fun d => d.storeUp badA badB)

/-- STORE_ATTEMPT_FAIL (R152, R180). -/
def execStoreAttemptFail (s : State) : Host.Outcome State Fault Refusal := chip s Dev.storeFails

/-- COLD_INIT_COMPLETE (R134). -/
def execColdInitComplete (ringPagesOk : Bool) (s : State) : Host.Outcome State Fault Refusal := chip s (fun d => d.coldDone ringPagesOk)

/-- WARM_VALIDATION_COMPLETE (R616, R697). -/
def execWarmValidationComplete (r : WarmReads) (s : State) : Host.Outcome State Fault Refusal := chip s (fun d => d.warmDone r)

/-- CONFIGURATION_READY (R134, R137). -/
def execConfigurationReady (s : State) : Host.Outcome State Fault Refusal := chip s Dev.configReady

/-- JOIN_TIMEOUT (R155). -/
def execJoinTimeout (s : State) : Host.Outcome State Fault Refusal := chip s Dev.joinLate

/-- BLOCK_REPITCH (R145, R154). -/
def execBlockRepitch (pty : Party) (be : BitVec 8) (code : BitVec 8) (s : State) : Host.Outcome State Fault Refusal := regWr s pty R.pitRepitch be (code.setWidth 32)

/-- REPITCH_DRAIN_END (R145). -/
def execRepitchDrainEnd (block : BitVec 8) (s : State) : Host.Outcome State Fault Refusal := chip s (fun d => d.resetBlock block.toNat false)

/-- REPITCH_DRAIN_LIMIT (R154). -/
def execRepitchDrainLimit (block : BitVec 8) (s : State) : Host.Outcome State Fault Refusal := chip s (fun d => d.resetBlock block.toNat true)

/-- REPITCH_RESTORE_COMPLETE (R145). -/
def execRepitchRestoreComplete (block : BitVec 8) (s : State) : Host.Outcome State Fault Refusal := chip s (fun d => d.reopenBlock block.toNat)

end Sys2Proof.Machine
end

