-- ==== Sys2Proof/Machine/PowerCmds.lean ====
section
/-! DEFINITION. The commands of the power domains (17). -/
namespace Sys2Proof.Machine

/-- PD_OFF (R590, R595). -/
def execPdOff (pty : Party) (be : BitVec 8) (domain : Fin 64) (s : State) : Host.Outcome State Fault Refusal := regWr s pty R.pitPdReq be (BitVec.ofNat 32 (1 * 2 ^ 8 + domain.val))

/-- PD_ON (R594, R595). -/
def execPdOn (pty : Party) (be : BitVec 8) (domain : Fin 64) (s : State) : Host.Outcome State Fault Refusal := regWr s pty R.pitPdReq be (BitVec.ofNat 32 (0 * 2 ^ 8 + domain.val))

/-- PD_DRAIN_END (R590). -/
def execPdDrainEnd (s : State) : Host.Outcome State Fault Refusal := chip s (fun d => d.pdDrained false)

/-- PD_DRAIN_LIMIT (R592). -/
def execPdDrainLimit (s : State) : Host.Outcome State Fault Refusal := chip s (fun d => d.pdDrained true)

/-- LOST_WRITE_RECORD (R565). -/
def execLostWriteRecord (domain : Fin 64) (s : State) : Host.Outcome State Fault Refusal := chip s (fun d => d.lostRecord domain.val)

/-- PD_POWER_OFF_COMPLETE (R590). -/
def execPdPowerOffComplete (s : State) : Host.Outcome State Fault Refusal := chip s Dev.pdOffDone

/-- PD_POWER_ON_COMPLETE (R594). -/
def execPdPowerOnComplete (s : State) : Host.Outcome State Fault Refusal := chip s Dev.pdOnDone

/-- POWER_GOOD_TIMEOUT (R603). -/
def execPowerGoodTimeout (s : State) : Host.Outcome State Fault Refusal := chip s Dev.pdTimeout

/-- AUTO_RETAIN_ENTRY (R587). -/
def execAutoRetainEntry (domain : Fin 64) (s : State) : Host.Outcome State Fault Refusal := chip s (fun d => d.retainEntry domain.val)

/-- RETAIN_WAKE (R585). -/
def execRetainWake (domain : Fin 64) (crcOk : Bool) (s : State) : Host.Outcome State Fault Refusal := chip s (fun d => d.retainWake domain.val crcOk)

end Sys2Proof.Machine
end

