-- ==== Sys2Proof/Machine/StoreCmds.lean ====
section
/-! DEFINITION. The commands of the Store (05). -/
namespace Sys2Proof.Machine

/-- SCRUB_READ (R168 to R174). -/
def execScrubRead (r : UnitRead) (s : State) : Host.Outcome State Fault Refusal := chip s (fun d => d.scrub r)

/-- DBG_READ (R187, R190). -/
def execDbgRead (pty : Party) (s : State) : Host.Outcome State Fault Refusal := regWr s pty R.stoDbgCtl 15#8 1#32

/-- DBG_READ_COMPLETE (R187). -/
def execDbgReadComplete (poison : Bool) (s : State) : Host.Outcome State Fault Refusal := chip s (fun d => d.dbgDone poison)

/-- STORE_CHANNEL_FAIL (R180). -/
def execStoreChannelFail (s : State) : Host.Outcome State Fault Refusal := chip s Dev.channelFail

end Sys2Proof.Machine
end

