-- ==== Sys2Proof/Machine/TransportCmds.lean ====
section
/-! DEFINITION. The commands of transport (09): packets by opcode, responses, timers, holds. -/
namespace Sys2Proof.Machine

/-- PACKET_FORWARD (R284, R285): a packet addressed to another node. -/
def execPacketForward (via : Via) (vc : BitVec 3) (k : Pkt) (s : State) : Host.Outcome State Fault Refusal := actIf s (s.dev.viaHere via k && !s.dev.isSelf k.dst) (fun d => if vcClass vc.toNat = .response then d.arriveRsp via k else d.arrive via vc.toNat k)

/-- ESCAPE_MOVE (R288). -/
def execEscapeMove (p : FPort) (vc : BitVec 3) (s : State) : Host.Outcome State Fault Refusal := chip s (fun d => d.escapeMove p.val vc.toNat)

/-- RD (R304, R311). -/
def execRd (via : Via) (vc : BitVec 3) (k : Pkt) (s : State) : Host.Outcome State Fault Refusal := packet s via vc { k with opcode := 0x01#8 }

/-- WRP (R304, R311). -/
def execWrp (via : Via) (vc : BitVec 3) (k : Pkt) (s : State) : Host.Outcome State Fault Refusal := packet s via vc { k with opcode := 0x02#8 }

/-- WRA (R304). -/
def execWra (via : Via) (vc : BitVec 3) (k : Pkt) (s : State) : Host.Outcome State Fault Refusal := packet s via vc { k with opcode := 0x03#8 }

/-- FADD (R304). -/
def execFadd (via : Via) (vc : BitVec 3) (k : Pkt) (s : State) : Host.Outcome State Fault Refusal := packet s via vc { k with opcode := 0x04#8 }

/-- SWAP (R304). -/
def execSwap (via : Via) (vc : BitVec 3) (k : Pkt) (s : State) : Host.Outcome State Fault Refusal := packet s via vc { k with opcode := 0x05#8 }

/-- CAS (R304). -/
def execCas (via : Via) (vc : BitVec 3) (k : Pkt) (s : State) : Host.Outcome State Fault Refusal := packet s via vc { k with opcode := 0x06#8 }

/-- MSG (R429). -/
def execMsg (via : Via) (vc : BitVec 3) (k : Pkt) (s : State) : Host.Outcome State Fault Refusal := packet s via vc { k with opcode := 0x07#8 }

/-- MSGA (R430). -/
def execMsga (via : Via) (vc : BitVec 3) (k : Pkt) (s : State) : Host.Outcome State Fault Refusal := packet s via vc { k with opcode := 0x08#8 }

/-- FENCE (R311). -/
def execFence (via : Via) (vc : BitVec 3) (k : Pkt) (s : State) : Host.Outcome State Fault Refusal := packet s via vc { k with opcode := 0x09#8 }

/-- PROBE (R305). -/
def execProbe (via : Via) (vc : BitVec 3) (k : Pkt) (s : State) : Host.Outcome State Fault Refusal := packet s via vc { k with opcode := 0x0A#8 }

/-- HACQ (R323, R629). -/
def execHacq (via : Via) (vc : BitVec 3) (k : Pkt) (s : State) : Host.Outcome State Fault Refusal := packet s via vc { k with opcode := 0x10#8 }

/-- HREL (R323). -/
def execHrel (via : Via) (vc : BitVec 3) (k : Pkt) (s : State) : Host.Outcome State Fault Refusal := packet s via vc { k with opcode := 0x11#8 }

/-- HRENEW (R323). -/
def execHrenew (via : Via) (vc : BitVec 3) (k : Pkt) (s : State) : Host.Outcome State Fault Refusal := packet s via vc { k with opcode := 0x12#8 }

/-- HQUERY (R323). -/
def execHquery (via : Via) (vc : BitVec 3) (k : Pkt) (s : State) : Host.Outcome State Fault Refusal := packet s via vc { k with opcode := 0x13#8 }

/-- HDROP (R324). -/
def execHdrop (via : Via) (vc : BitVec 3) (k : Pkt) (s : State) : Host.Outcome State Fault Refusal := packet s via vc { k with opcode := 0x14#8 }

/-- RSP (R318, R326, R396): from a local port, the answer of its design; on a VC of another class it is a malformed request. -/
def execRsp (via : Via) (vc : BitVec 3) (k : Pkt) (s : State) : Host.Outcome State Fault Refusal :=
  if vcClass vc.toNat = .response then rspPacket s via { k with opcode := 0x80#8 } else packet s via vc { k with opcode := 0x80#8 }

/-- UNDEFINED_OPCODE (R326): on every path as a packet of its VC's class. -/
def execUndefinedOpcode (via : Via) (vc : BitVec 3) (k : Pkt) (s : State) : Host.Outcome State Fault Refusal := if opClass k.opcode = none then packet s via vc k else .next s

/-- TAG_ADMISSION (R36, R312, R357, R395): what waits for the resource is tried again. -/
def execTagAdmission (r : AdmRes) (s : State) : Host.Outcome State Fault Refusal := chip s (fun d => d.admission r)

/-- GAP_SKIP (R313). -/
def execGapSkip (node : Addr) (flow : BitVec 16) (s : State) : Host.Outcome State Fault Refusal := chip s (fun d => d.gapSkipLane (node.toNat * 65536 + flow.toNat))

/-- SOURCE_LANE_FREE (R312). -/
def execSourceLaneFree (node : Addr) (flow : BitVec 16) (s : State) : Host.Outcome State Fault Refusal := chip s (fun d => (d.freeSrcLane (node.toNat * 65536 + flow.toNat)).pump)

/-- DELIVERY_STREAM_FREE (R395). -/
def execDeliveryStreamFree (p : LPort) (src : Addr) (inst : InstNo) (key : BitVec 32) (s : State) : Host.Outcome State Fault Refusal := chip s (fun d => (d.freeStream (streamKey p.val src.toNat inst.toNat key.toNat)).pumpLocal)

/-- BUSY_RETRY (R308). -/
def execBusyRetry (tag : BitVec 16) (s : State) : Host.Outcome State Fault Refusal := chip s (fun d => d.retryTag tag.toNat)

/-- END_TO_END_TIMEOUT (R316). -/
def execEndToEndTimeout (tag : BitVec 16) (s : State) : Host.Outcome State Fault Refusal := chip s (fun d => d.tagExpired tag.toNat)

/-- LOCAL_TAG_TIMEOUT (R317). -/
def execLocalTagTimeout (p : LPort) (tag : Fin 4096) (s : State) : Host.Outcome State Fault Refusal := chip s (fun d => d.localTagExpired (p.val * 4096 + tag.val))

/-- HOLD_EXPIRY (R330). -/
def execHoldExpiry (home : InstNo) (addr : BitVec 64) (s : State) : Host.Outcome State Fault Refusal := chip s (fun d => d.tickHold home.toNat addr)

end Sys2Proof.Machine
end

