-- ==== Sys2Proof/Machine/TwinCmds.lean ====
section
/-! DEFINITION. The commands of twin pairs (18). -/
namespace Sys2Proof.Machine

/-- SHADOW_HELLO (R624, R634). -/
def execShadowHello (h : TwinHello) (s : State) : Host.Outcome State Fault Refusal := chip s (fun d => d.twinHello h)

/-- DELTA (R626). -/
def execDelta (version : BitVec 8) (epoch : W64) (entries : List DeltaEnt) (s : State) : Host.Outcome State Fault Refusal := chip s (fun d => d.shadowDelta version epoch entries)

/-- COMMIT (R626). -/
def execCommit (c : TwinCommit) (s : State) : Host.Outcome State Fault Refusal := chip s (fun d => d.shadowCommit c)

/-- SHADOW_ACK (R626, R627). -/
def execShadowAck (version : BitVec 8) (epoch : W64) (rejected : Bool) (s : State) : Host.Outcome State Fault Refusal := chip s (fun d => d.shadowAck version epoch rejected)

/-- TWIN_HELLO_INTERVAL (R624). -/
def execTwinHelloInterval (s : State) : Host.Outcome State Fault Refusal := chip s Dev.twinHelloTime

/-- TWIN_CREDIT_TIMEOUT (R624). -/
def execTwinCreditTimeout (s : State) : Host.Outcome State Fault Refusal := chip s Dev.twinNoCredit

/-- EPOCH_CLOSE (R625). -/
def execEpochClose (s : State) : Host.Outcome State Fault Refusal := chip s Dev.closeEpoch

/-- TWIN_RENEW (R630). -/
def execTwinRenew (s : State) : Host.Outcome State Fault Refusal := chip s Dev.twinRenew

/-- ORPHAN (R630). -/
def execOrphan (s : State) : Host.Outcome State Fault Refusal := chip s Dev.orphaned

/-- ACTIVE_LOST (R632). -/
def execActiveLost (s : State) : Host.Outcome State Fault Refusal := chip s Dev.activeLost

/-- WITNESS_QUIET_END (R629). -/
def execWitnessQuietEnd (s : State) : Host.Outcome State Fault Refusal := chip s Dev.quietEnds

/-- TWIN_WITNESS_WRITE (R631). -/
def execTwinWitnessWrite (pty : Party) (be : BitVec 8) (data : W32) (s : State) : Host.Outcome State Fault Refusal := regWr s pty R.pitTwinWitness be data

/-- TWIN_RESUME (R636). -/
def execTwinResume (pty : Party) (be : BitVec 8) (s : State) : Host.Outcome State Fault Refusal := regWr s pty R.pitTwinCmd be 0#32

/-- TWIN_TAKE_OVER (R633). -/
def execTwinTakeOver (pty : Party) (be : BitVec 8) (s : State) : Host.Outcome State Fault Refusal := regWr s pty R.pitTwinCmd be 1#32

/-- TWIN_REFORM (R627). -/
def execTwinReform (pty : Party) (be : BitVec 8) (s : State) : Host.Outcome State Fault Refusal := regWr s pty R.pitTwinCmd be 2#32

/-- TWIN_RD_SEQ_WRITE (R648). -/
def execTwinRdSeqWrite (pty : Party) (seq : W64) (s : State) : Host.Outcome State Fault Refusal := regWr8 s pty R.pitTwinRdSeq seq

/-- TWIN_RD_REC_ADVANCE (R570, R648). -/
def execTwinRdRecAdvance (pty : Party) (s : State) : Host.Outcome State Fault Refusal := regRd s pty (R.pitTwinRdRec 7 + 4)

end Sys2Proof.Machine
end

