-- ==== Sys2Proof/Machine/WindowCmds.lean ====
section
/-! DEFINITION. The commands of windows, write combining and the local ports (11). -/
namespace Sys2Proof.Machine

/-- WIN_COMMIT (R382, R384). -/
def execWinCommit (pty : Party) (index : BitVec 16) (s : State) : Host.Outcome State Fault Refusal := regWr s pty R.winCmd 15#8 (BitVec.ofNat 32 (0 * 2 ^ 16 + index.toNat))

/-- WIN_READ (R382). -/
def execWinRead (pty : Party) (index : BitVec 16) (s : State) : Host.Outcome State Fault Refusal := regWr s pty R.winCmd 15#8 (BitVec.ofNat 32 (1 * 2 ^ 16 + index.toNat))

/-- WIN_DISABLE (R382). -/
def execWinDisable (pty : Party) (index : BitVec 16) (s : State) : Host.Outcome State Fault Refusal := regWr s pty R.winCmd 15#8 (BitVec.ofNat 32 (2 * 2 ^ 16 + index.toNat))

/-- WIN_CMD_COMPLETE (R384). -/
def execWinCmdComplete (s : State) : Host.Outcome State Fault Refusal := chip s Dev.winDone

/-- WC_LINE_TIMEOUT (R391). -/
def execWcLineTimeout (fn : InstNo) (off : BitVec 64) (s : State) : Host.Outcome State Fault Refusal := chip s (fun d => d.lineTimeout fn.toNat off.toNat)

/-- LOCAL_REQUEST (R398, R409, R446). -/
def execLocalRequest (p : LPort) (vc : BitVec 3) (k : Pkt) (s : State) : Host.Outcome State Fault Refusal := actIf s (s.dev.viaHere (.loc p) k) (fun d => d.localReq p vc.toNat k)

/-- LOCAL_GAP_SKIP (R399). -/
def execLocalGapSkip (p : LPort) (inst : InstNo) (dst : Addr) (key : BitVec 32) (s : State) : Host.Outcome State Fault Refusal := chip s (fun d => d.localSkip p.val (streamKey p.val dst.toNat inst.toNat key.toNat))

/-- CREAD (R403). -/
def execCread (p : LPort) (x : CtlMsg) (s : State) : Host.Outcome State Fault Refusal := chip s (fun d => d.ctlMsg p { x with typ := 0x20#8 })

/-- CWRITE (R403). -/
def execCwrite (p : LPort) (x : CtlMsg) (s : State) : Host.Outcome State Fault Refusal := chip s (fun d => d.ctlMsg p { x with typ := 0x21#8 })

/-- RAISE (R404). -/
def execRaise (p : LPort) (x : CtlMsg) (s : State) : Host.Outcome State Fault Refusal := chip s (fun d => d.ctlMsg p { x with typ := 0x30#8 })

end Sys2Proof.Machine
end

