-- ==== Sys2Proof/Machine/Dispatch.lean ====
section
/-! DEFINITION. One arm per command: the direct call of its meaning. -/
namespace Sys2Proof.Machine

def exec (i : Instr) (s : State) : Host.Outcome State Fault Refusal :=
  match i with
  | .controlWrite a => Sys2Proof.Machine.execControlWrite a s
  | .tagAdmission r => Sys2Proof.Machine.execTagAdmission r s
  | .refclkLost => Sys2Proof.Machine.execRefclkLost s
  | .reffLost => Sys2Proof.Machine.execReffLost s
  | .reffReturn => Sys2Proof.Machine.execReffReturn s
  | .crystalLoss => Sys2Proof.Machine.execCrystalLoss s
  | .crystalGood => Sys2Proof.Machine.execCrystalGood s
  | .emberFreshStart rail => Sys2Proof.Machine.execEmberFreshStart rail s
  | .switchToVbat => Sys2Proof.Machine.execSwitchToVbat s
  | .returnToVmain => Sys2Proof.Machine.execReturnToVmain s
  | .emberRailAbsent rail => Sys2Proof.Machine.execEmberRailAbsent rail s
  | .secondBoundary c => Sys2Proof.Machine.execSecondBoundary c s
  | .oscStop => Sys2Proof.Machine.execOscStop s
  | .wallClockWrite pty reg be data => Sys2Proof.Machine.execWallClockWrite pty reg be data s
  | .wallWriteApply atBoundary => Sys2Proof.Machine.execWallWriteApply atBoundary s
  | .wctlWrite pty be data => Sys2Proof.Machine.execWctlWrite pty be data s
  | .dstAddHour pty => Sys2Proof.Machine.execDstAddHour pty s
  | .dstSubtractHour pty => Sys2Proof.Machine.execDstSubtractHour pty s
  | .tmTallyLoRead pty => Sys2Proof.Machine.execTmTallyLoRead pty s
  | .timeBlockRead pty reg => Sys2Proof.Machine.execTimeBlockRead pty reg s
  | .tmEndRead pty => Sys2Proof.Machine.execTmEndRead pty s
  | .freezeLapse reader => Sys2Proof.Machine.execFreezeLapse reader s
  | .trimWrite pty be data => Sys2Proof.Machine.execTrimWrite pty be data s
  | .trimWindowEnd offset => Sys2Proof.Machine.execTrimWindowEnd offset s
  | .switchOverSummary => Sys2Proof.Machine.execSwitchOverSummary s
  | .holdBreak => Sys2Proof.Machine.execHoldBreak s
  | .wakeWrite pty be data => Sys2Proof.Machine.execWakeWrite pty be data s
  | .wakeExpiry => Sys2Proof.Machine.execWakeExpiry s
  | .pwronPulseEnd => Sys2Proof.Machine.execPwronPulseEnd s
  | .railsGood => Sys2Proof.Machine.execRailsGood s
  | .strapSamplingComplete x => Sys2Proof.Machine.execStrapSamplingComplete x s
  | .strapReread x => Sys2Proof.Machine.execStrapReread x s
  | .pllLock ohms => Sys2Proof.Machine.execPllLock ohms s
  | .storeExitComplete badA badB => Sys2Proof.Machine.execStoreExitComplete badA badB s
  | .storeAttemptFail => Sys2Proof.Machine.execStoreAttemptFail s
  | .coldInitComplete ringPagesOk => Sys2Proof.Machine.execColdInitComplete ringPagesOk s
  | .warmValidationComplete r => Sys2Proof.Machine.execWarmValidationComplete r s
  | .configurationReady => Sys2Proof.Machine.execConfigurationReady s
  | .perstNAssert => Sys2Proof.Machine.execPerstNAssert s
  | .perstNRelease => Sys2Proof.Machine.execPerstNRelease s
  | .joinTimeout => Sys2Proof.Machine.execJoinTimeout s
  | .blockRepitch pty be code => Sys2Proof.Machine.execBlockRepitch pty be code s
  | .repitchDrainEnd block => Sys2Proof.Machine.execRepitchDrainEnd block s
  | .repitchDrainLimit block => Sys2Proof.Machine.execRepitchDrainLimit block s
  | .repitchRestoreComplete block => Sys2Proof.Machine.execRepitchRestoreComplete block s
  | .scrubRead r => Sys2Proof.Machine.execScrubRead r s
  | .dbgRead pty => Sys2Proof.Machine.execDbgRead pty s
  | .dbgReadComplete poison => Sys2Proof.Machine.execDbgReadComplete poison s
  | .storeChannelFail => Sys2Proof.Machine.execStoreChannelFail s
  | .trainingStart p => Sys2Proof.Machine.execTrainingStart p s
  | .trainingFrame p lane frame => Sys2Proof.Machine.execTrainingFrame p lane frame s
  | .trainingStepTimeout p => Sys2Proof.Machine.execTrainingStepTimeout p s
  | .trainingIdleEnd p => Sys2Proof.Machine.execTrainingIdleEnd p s
  | .deskewEnd p => Sys2Proof.Machine.execDeskewEnd p s
  | .trainingConfigEnd p => Sys2Proof.Machine.execTrainingConfigEnd p s
  | .switchCountEnd p => Sys2Proof.Machine.execSwitchCountEnd p s
  | .dataLock p => Sys2Proof.Machine.execDataLock p s
  | .fecCodeword p lane cw => Sys2Proof.Machine.execFecCodeword p lane cw s
  | .syncBlock p lane header payload => Sys2Proof.Machine.execSyncBlock p lane header payload s
  | .lockLoss p lane => Sys2Proof.Machine.execLockLoss p lane s
  | .lockReturn p lane expiring => Sys2Proof.Machine.execLockReturn p lane expiring s
  | .lockLossTimerExpiry p => Sys2Proof.Machine.execLockLossTimerExpiry p s
  | .retrain pty p => Sys2Proof.Machine.execRetrain pty p s
  | .phycalMeasurement ohms => Sys2Proof.Machine.execPhycalMeasurement ohms s
  | .eyeScan pty p be data => Sys2Proof.Machine.execEyeScan pty p be data s
  | .eyeScanComplete p width height => Sys2Proof.Machine.execEyeScanComplete p width height s
  | .correctedSymbolInterval p => Sys2Proof.Machine.execCorrectedSymbolInterval p s
  | .flitSlot p spillOk readBad => Sys2Proof.Machine.execFlitSlot p spillOk readBad s
  | .dataFlit p f => Sys2Proof.Machine.execDataFlit p f s
  | .nullFlit p f => Sys2Proof.Machine.execNullFlit p f s
  | .initFlit p f => Sys2Proof.Machine.execInitFlit p f s
  | .undefinedFlit p f => Sys2Proof.Machine.execUndefinedFlit p f s
  | .badFlit p => Sys2Proof.Machine.execBadFlit p s
  | .replayTimeout p => Sys2Proof.Machine.execReplayTimeout p s
  | .receiveDelivery p vc readBad => Sys2Proof.Machine.execReceiveDelivery p vc readBad s
  | .initTimeout p => Sys2Proof.Machine.execInitTimeout p s
  | .sessionLapse p => Sys2Proof.Machine.execSessionLapse p s
  | .sendStall p => Sys2Proof.Machine.execSendStall p s
  | .replayRateInterval p => Sys2Proof.Machine.execReplayRateInterval p s
  | .hello p h => Sys2Proof.Machine.execHello p h s
  | .helloInterval p => Sys2Proof.Machine.execHelloInterval p s
  | .neighbourDead p => Sys2Proof.Machine.execNeighbourDead p s
  | .lsa p hdr l => Sys2Proof.Machine.execLsa p hdr l s
  | .networkAck p hdr keys => Sys2Proof.Machine.execNetworkAck p hdr keys s
  | .summary p hdr last keys => Sys2Proof.Machine.execSummary p hdr last keys s
  | .networkRequest p hdr keys => Sys2Proof.Machine.execNetworkRequest p hdr keys s
  | .requestResend p => Sys2Proof.Machine.execRequestResend p s
  | .lsaResend p => Sys2Proof.Machine.execLsaResend p s
  | .lsaOrigination => Sys2Proof.Machine.execLsaOrigination s
  | .lsaDeletion serial => Sys2Proof.Machine.execLsaDeletion serial s
  | .routeRun => Sys2Proof.Machine.execRouteRun s
  | .routeInstall => Sys2Proof.Machine.execRouteInstall s
  | .packetForward via vc k => Sys2Proof.Machine.execPacketForward via vc k s
  | .escapeMove p vc => Sys2Proof.Machine.execEscapeMove p vc s
  | .dampingEnd p => Sys2Proof.Machine.execDampingEnd p s
  | .rd via vc k => Sys2Proof.Machine.execRd via vc k s
  | .wrp via vc k => Sys2Proof.Machine.execWrp via vc k s
  | .wra via vc k => Sys2Proof.Machine.execWra via vc k s
  | .fadd via vc k => Sys2Proof.Machine.execFadd via vc k s
  | .swap via vc k => Sys2Proof.Machine.execSwap via vc k s
  | .cas via vc k => Sys2Proof.Machine.execCas via vc k s
  | .msg via vc k => Sys2Proof.Machine.execMsg via vc k s
  | .msga via vc k => Sys2Proof.Machine.execMsga via vc k s
  | .fence via vc k => Sys2Proof.Machine.execFence via vc k s
  | .probe via vc k => Sys2Proof.Machine.execProbe via vc k s
  | .hacq via vc k => Sys2Proof.Machine.execHacq via vc k s
  | .hrel via vc k => Sys2Proof.Machine.execHrel via vc k s
  | .hrenew via vc k => Sys2Proof.Machine.execHrenew via vc k s
  | .hquery via vc k => Sys2Proof.Machine.execHquery via vc k s
  | .hdrop via vc k => Sys2Proof.Machine.execHdrop via vc k s
  | .rsp via vc k => Sys2Proof.Machine.execRsp via vc k s
  | .undefinedOpcode via vc k => Sys2Proof.Machine.execUndefinedOpcode via vc k s
  | .gapSkip node flow => Sys2Proof.Machine.execGapSkip node flow s
  | .sourceLaneFree node flow => Sys2Proof.Machine.execSourceLaneFree node flow s
  | .busyRetry tag => Sys2Proof.Machine.execBusyRetry tag s
  | .endToEndTimeout tag => Sys2Proof.Machine.execEndToEndTimeout tag s
  | .localTagTimeout p tag => Sys2Proof.Machine.execLocalTagTimeout p tag s
  | .holdExpiry home addr => Sys2Proof.Machine.execHoldExpiry home addr s
  | .configWrite fn off be data => Sys2Proof.Machine.execConfigWrite fn off be data s
  | .pfFlr => Sys2Proof.Machine.execPfFlr s
  | .vfFlr n => Sys2Proof.Machine.execVfFlr n s
  | .vfEnableSet => Sys2Proof.Machine.execVfEnableSet s
  | .vfEnableClear => Sys2Proof.Machine.execVfEnableClear s
  | .hotReset => Sys2Proof.Machine.execHotReset s
  | .dlDown => Sys2Proof.Machine.execDlDown s
  | .hostBar2Write fn off bytes be ep => Sys2Proof.Machine.execHostBar2Write fn off bytes be ep s
  | .hostBar2Read fn reqTag off length => Sys2Proof.Machine.execHostBar2Read fn reqTag off length s
  | .hostBar2Atomic fn reqTag off kind width operands => Sys2Proof.Machine.execHostBar2Atomic fn reqTag off kind width operands s
  | .msixTableWrite fn off size8 be data => Sys2Proof.Machine.execMsixTableWrite fn off size8 be data s
  | .hostMessage fn m => Sys2Proof.Machine.execHostMessage fn m s
  | .cplLimitExpiry fn reqTag => Sys2Proof.Machine.execCplLimitExpiry fn reqTag s
  | .hostCompletion htag status data => Sys2Proof.Machine.execHostCompletion htag status data s
  | .completionTimeout htag => Sys2Proof.Machine.execCompletionTimeout htag s
  | .l1Exit => Sys2Proof.Machine.execL1Exit s
  | .hostCorrectedInterval => Sys2Proof.Machine.execHostCorrectedInterval s
  | .winCommit pty index => Sys2Proof.Machine.execWinCommit pty index s
  | .winRead pty index => Sys2Proof.Machine.execWinRead pty index s
  | .winDisable pty index => Sys2Proof.Machine.execWinDisable pty index s
  | .wcLineTimeout fn off => Sys2Proof.Machine.execWcLineTimeout fn off s
  | .localRequest p vc k => Sys2Proof.Machine.execLocalRequest p vc k s
  | .localGapSkip p inst dst key => Sys2Proof.Machine.execLocalGapSkip p inst dst key s
  | .cread p m => Sys2Proof.Machine.execCread p m s
  | .cwrite p m => Sys2Proof.Machine.execCwrite p m s
  | .raise p m => Sys2Proof.Machine.execRaise p m s
  | .insPitch pty index => Sys2Proof.Machine.execInsPitch pty index s
  | .insResize pty index => Sys2Proof.Machine.execInsResize pty index s
  | .insDestroy pty index => Sys2Proof.Machine.execInsDestroy pty index s
  | .insRead pty index => Sys2Proof.Machine.execInsRead pty index s
  | .flrComplete n => Sys2Proof.Machine.execFlrComplete n s
  | .inboxRing pty n mask => Sys2Proof.Machine.execInboxRing pty n mask s
  | .outboxRing n mask => Sys2Proof.Machine.execOutboxRing n mask s
  | .mailboxSlotWrite pty n slot data => Sys2Proof.Machine.execMailboxSlotWrite pty n slot data s
  | .msgConsWrite pty n be cons => Sys2Proof.Machine.execMsgConsWrite pty n be cons s
  | .commonsAccess pty off write length bytes be => Sys2Proof.Machine.execCommonsAccess pty off write length bytes be s
  | .bucketRefill => Sys2Proof.Machine.execBucketRefill s
  | .bucketLimitWrite pty bucket field be data => Sys2Proof.Machine.execBucketLimitWrite pty bucket field be data s
  | .egressVisit e => Sys2Proof.Machine.execEgressVisit e s
  | .dlStart pty t => Sys2Proof.Machine.execDlStart pty t s
  | .dlSwitch pty t => Sys2Proof.Machine.execDlSwitch pty t s
  | .dlStop pty t => Sys2Proof.Machine.execDlStop pty t s
  | .dlRead pty t => Sys2Proof.Machine.execDlRead pty t s
  | .dlSwitchDrainDone t => Sys2Proof.Machine.execDlSwitchDrainDone t s
  | .dlWordWrite t half word => Sys2Proof.Machine.execDlWordWrite t half word s
  | .signal pty be data => Sys2Proof.Machine.execSignal pty be data s
  | .pendSet pty b be data => Sys2Proof.Machine.execPendSet pty b be data s
  | .pendClr pty b be data => Sys2Proof.Machine.execPendClr pty b be data s
  | .maskSet pty b be data => Sys2Proof.Machine.execMaskSet pty b be data s
  | .maskClr pty b be data => Sys2Proof.Machine.execMaskClr pty b be data s
  | .licSrcCfgWrite pty r be data => Sys2Proof.Machine.execLicSrcCfgWrite pty r be data s
  | .coreBindWrite pty c be data => Sys2Proof.Machine.execCoreBindWrite pty c be data s
  | .claimRead pty c => Sys2Proof.Machine.execClaimRead pty c s
  | .eoi pty c be data => Sys2Proof.Machine.execEoi pty c be data s
  | .deliverCredit c => Sys2Proof.Machine.execDeliverCredit c s
  | .deliverCreditWait p => Sys2Proof.Machine.execDeliverCreditWait p s
  | .licGateEntry => Sys2Proof.Machine.execLicGateEntry s
  | .licWake accessWaits => Sys2Proof.Machine.execLicWake accessWaits s
  | .licRestoreComplete crcOk => Sys2Proof.Machine.execLicRestoreComplete crcOk s
  | .sourceRaise n level port => Sys2Proof.Machine.execSourceRaise n level port s
  | .guylineBroken n => Sys2Proof.Machine.execGuylineBroken n s
  | .guylineMended n asserted => Sys2Proof.Machine.execGuylineMended n asserted s
  | .escalationStep => Sys2Proof.Machine.execEscalationStep s
  | .graveChipReset => Sys2Proof.Machine.execGraveChipReset s
  | .fwtAck pty be data => Sys2Proof.Machine.execFwtAck pty be data s
  | .forceSet pty w be data => Sys2Proof.Machine.execForceSet pty w be data s
  | .forceClr pty w be data => Sys2Proof.Machine.execForceClr pty w be data s
  | .fwtSrcCfgWrite pty n be data => Sys2Proof.Machine.execFwtSrcCfgWrite pty n be data s
  | .wearMeasurement slowdowns => Sys2Proof.Machine.execWearMeasurement slowdowns s
  | .errRelease => Sys2Proof.Machine.execErrRelease s
  | .recordWrite => Sys2Proof.Machine.execRecordWrite s
  | .clgAck pty seq => Sys2Proof.Machine.execClgAck pty seq s
  | .rdSeqWrite pty seq => Sys2Proof.Machine.execRdSeqWrite pty seq s
  | .rdRecAdvance pty => Sys2Proof.Machine.execRdRecAdvance pty s
  | .snapshotTaken bad => Sys2Proof.Machine.execSnapshotTaken bad s
  | .pushBatch => Sys2Proof.Machine.execPushBatch s
  | .pushConsWrite pty seq => Sys2Proof.Machine.execPushConsWrite pty seq s
  | .pdOff pty be domain => Sys2Proof.Machine.execPdOff pty be domain s
  | .pdOn pty be domain => Sys2Proof.Machine.execPdOn pty be domain s
  | .pdDrainEnd => Sys2Proof.Machine.execPdDrainEnd s
  | .pdDrainLimit => Sys2Proof.Machine.execPdDrainLimit s
  | .lostWriteRecord domain => Sys2Proof.Machine.execLostWriteRecord domain s
  | .pdPowerOffComplete => Sys2Proof.Machine.execPdPowerOffComplete s
  | .pdPowerOnComplete => Sys2Proof.Machine.execPdPowerOnComplete s
  | .powerGoodTimeout => Sys2Proof.Machine.execPowerGoodTimeout s
  | .autoRetainEntry domain => Sys2Proof.Machine.execAutoRetainEntry domain s
  | .retainWake domain crcOk => Sys2Proof.Machine.execRetainWake domain crcOk s
  | .pwrfailNLow => Sys2Proof.Machine.execPwrfailNLow s
  | .monitorTrip rail => Sys2Proof.Machine.execMonitorTrip rail s
  | .bivouacDrainEnd bad => Sys2Proof.Machine.execBivouacDrainEnd bad s
  | .bivouacBudgetExpiry bad => Sys2Proof.Machine.execBivouacBudgetExpiry bad s
  | .returnWithoutLoss => Sys2Proof.Machine.execReturnWithoutLoss s
  | .resumeTokenWrite pty token => Sys2Proof.Machine.execResumeTokenWrite pty token s
  | .resume pty token => Sys2Proof.Machine.execResume pty token s
  | .resumeDiscard pty be => Sys2Proof.Machine.execResumeDiscard pty be s
  | .resumptionComplete => Sys2Proof.Machine.execResumptionComplete s
  | .discardComplete => Sys2Proof.Machine.execDiscardComplete s
  | .shadowHello h => Sys2Proof.Machine.execShadowHello h s
  | .delta version epoch entries => Sys2Proof.Machine.execDelta version epoch entries s
  | .commit c => Sys2Proof.Machine.execCommit c s
  | .shadowAck version epoch rejected => Sys2Proof.Machine.execShadowAck version epoch rejected s
  | .twinHelloInterval => Sys2Proof.Machine.execTwinHelloInterval s
  | .twinCreditTimeout => Sys2Proof.Machine.execTwinCreditTimeout s
  | .epochClose => Sys2Proof.Machine.execEpochClose s
  | .twinRenew => Sys2Proof.Machine.execTwinRenew s
  | .orphan => Sys2Proof.Machine.execOrphan s
  | .activeLost => Sys2Proof.Machine.execActiveLost s
  | .witnessQuietEnd => Sys2Proof.Machine.execWitnessQuietEnd s
  | .twinWitnessWrite pty be data => Sys2Proof.Machine.execTwinWitnessWrite pty be data s
  | .twinResume pty be => Sys2Proof.Machine.execTwinResume pty be s
  | .twinTakeOver pty be => Sys2Proof.Machine.execTwinTakeOver pty be s
  | .twinReform pty be => Sys2Proof.Machine.execTwinReform pty be s
  | .twinRdSeqWrite pty seq => Sys2Proof.Machine.execTwinRdSeqWrite pty seq s
  | .twinRdRecAdvance pty => Sys2Proof.Machine.execTwinRdRecAdvance pty s
  | .pwrfailNGlitch => Sys2Proof.Machine.execPwrfailNGlitch s
  | .railReading mv => Sys2Proof.Machine.execRailReading mv s
  | .vbatMeasurement mv => Sys2Proof.Machine.execVbatMeasurement mv s
  | .tempReading temps => Sys2Proof.Machine.execTempReading temps s
  | .refclkReturn => Sys2Proof.Machine.execRefclkReturn s
  | .hostLinkUp speed width flit => Sys2Proof.Machine.execHostLinkUp speed width flit s
  | .aspmL1Entry sub => Sys2Proof.Machine.execAspmL1Entry sub s
  | .hostLinkError e fn => Sys2Proof.Machine.execHostLinkError e fn s
  | .convergence => Sys2Proof.Machine.execConvergence s
  | .dampingCountReset p => Sys2Proof.Machine.execDampingCountReset p s
  | .deliveryStreamFree p src inst key => Sys2Proof.Machine.execDeliveryStreamFree p src inst key s
  | .insCmdComplete => Sys2Proof.Machine.execInsCmdComplete s
  | .winCmdComplete => Sys2Proof.Machine.execWinCmdComplete s
  | .mainPowerLoss => Sys2Proof.Machine.execMainPowerLoss s

end Sys2Proof.Machine
end

