-- ==== Sys2Proof/Machine/Tick.lean ====
section
/-! DEFINITION. A microsecond passes (log entry 1): Ember's cycles, the open event's timer, the drained domain's power. -/
namespace Sys2Proof.Machine

/-- The timer of an open event runs (R529, R549). -/
def Dev.eventRuns (d : Dev) : Bool :=
  d.evOpen && 1 ≤ d.evClass && d.evClass ≤ 4 && d.g F.fwtEventLeft_us ≠ noTimer && 0 < d.g F.fwtEventLeft_us

/-- The open event's timer counts one microsecond (R530). -/
def Dev.eventTick (d : Dev) : Dev := if d.eventRuns then d.s F.fwtEventLeft_us (d.g F.fwtEventLeft_us - 1) else d

/-- One microsecond (log entry 1). -/
def Dev.tick (d : Dev) : Dev := (({ d with now := d.now + 1 }).emberTick.eventTick).pdLeaving.calTick.stallTick

end Sys2Proof.Machine
end

