-- ==== Sys2Proof/Safety.lean ====
section
/-! DEFINITION. What a sound state and a safe step are, in the terms the statements use: the canonical form of the tables, what no step takes back, and when a command leaves nothing to follow. -/
namespace Sys2Proof.Machine

/-- The commons memory is in its one canonical form: addresses strictly rising, no entry equal to the zero an unlisted byte reads as (log entry 12). -/
def Memory.wf (m : List Host.Cell) : Bool := SMap.canon (α := Byte) m 0#8

/-- The registers and the commons memory of a device are in canonical form, so that equal contents are equal data. -/
def Dev.sound (d : Dev) : Bool := SMap.wf d.regs && Memory.wf d.ins.mem

/-- A state is sound when its device is. -/
def State.sound (s : State) : Bool := s.dev.sound

/-- What no step takes back: the serial number of the die stays (R54), the passed microseconds and the free values taken never fall, what has left the device stays on record, and canonical tables stay canonical. -/
structure Kept (a b : Dev) : Prop where
  serial : b.serial = a.serial
  now : a.now ≤ b.now
  free : a.free ≤ b.free
  out : a.out <+: b.out
  regs : SMap.wf a.regs = true → SMap.wf b.regs = true
  mem : Memory.wf a.ins.mem = true → Memory.wf b.ins.mem = true

/-- The state in which a command leaves the machine: `d` is the command's own effect on the device, followed by what the effect sets off at once (log entry 10). -/
def State.after (s : State) (d : Dev) : State := { s with dev := d.settle s.dev }

/-- An effect that sets nothing off: no raise in Firewatch's queue, no answer to a witness, no FENCE, no request behind one and no line waiting to end, no stalled host access, no held access that can go on, no pitch step due, nothing for the LIC to choose, no epoch that records changes. -/
def Dev.quiet (d : Dev) : Bool :=
  d.fwt.queue.isEmpty && d.twin.answers.isEmpty && d.trn.fences.isEmpty && d.trn.behind.isEmpty &&
  !d.win.lines.any (fun l => l.sending) && d.win.stalled.isEmpty && d.held.all d.heldWaits &&
  !((d.pitStep = 12 || d.complete) && d.gb F.netStatus_converged && !d.gb F.pitPitchStatus_converged) &&
  (d.licGated || d.pdSt 50 ≠ .on || !d.licBusy) && (d.twin.open_.isNone || (d.role ≠ 2 && d.role ≠ 5))

/-- The manager's 4-byte write of a whole register of control space (R39, R556). -/
def mgrWrite (off : Nat) (data : W32) : WCtx := ⟨.manager, 0, 0, off, false, 15, data.setWidth 64⟩

/-- The manager's 8-byte write of a 64-bit register (R40). -/
def mgrWrite8 (off : Nat) (data : W64) : WCtx := ⟨.manager, 0, 0, off, true, 255, data⟩

/-- The manager's access to a register arrives and its block answers: host link up, Memory Space Enable (R352), no limited pitch or Fence outside the Watch and Ember blocks (R152, R535), the domain On (R48). -/
def Dev.reaches (d : Dev) (off : Nat) : Bool :=
  d.hostHere && d.hostMem 0 && (!d.onlyWatch || decide (regDomain off = 1) || decide (regDomain off = 0)) && decide (d.powerOf off = Power.on)

/-- And the change log has room for the record of a software change (R568). -/
def Dev.ready (d : Dev) (off : Nat) : Bool := d.reaches off && d.swRoom 1

/-- The device in which the manager's write of a register is judged: a write to the time block, whatever becomes of it, ends the host's freeze (R71). -/
def Dev.unfrozen (d : Dev) (off : Nat) : Dev := if (timeIdx off).isSome then d.endFreeze 0 else d

/-- The device after a write is recorded: `flags` as R563 gives them, the old and the new value (R558, R562). -/
def Dev.logged (d : Dev) (c : WCtx) (flags : Nat) (old new : W64) : Dev := d.log (d.recOf c flags old new)

/-! ### A request in the order of its lane (R311, R313) -/

/-- The device that performs a request of a fabric port or the turn path which is the next of its lane: handed over, its lane advanced, its instance's domain awake. -/
def Dev.taken (d : Dev) (via : Via) (k : Pkt) : Dev :=
  ((d.consume via k).setLane k.lane (k.sseq.toNat + 1)).touch (sliceDomain k.di) (sliceDomain k.di)

/-- A request arrives by a fabric port or the turn path and is admitted: on a request VC of transport, step 12 past, no drain of a Bivouac or a discard, addressed to this node, which carries transport, its source and instance as R447 wants (R134, R140, R284, R285, R447, R609, R621). -/
def Dev.admits (d : Dev) (via : Via) (vc : Nat) (k : Pkt) : Bool :=
  let e := d.consume via k
  (match via with
   | .loc _ => false
   | .fabric _ | .turn => true) &&
  d.viaHere via k && 1 ≤ vc && vc ≤ 6 && vcClass vc ≠ .response && e.joined && !e.draining && e.isSelf k.dst && !e.noTransport && !e.restoring && (e.fabricSpoof k).isNone

/-- An admitted request is the next of its lane (R313). -/
def Dev.inLane (d : Dev) (via : Via) (vc : Nat) (k : Pkt) : Bool :=
  d.admits via vc k && !bypassLane k && !k.laneOpen && decide ((d.consume via k).laneExp k.lane = some k.sseq.toNat)

/-- No earlier request holds one up at its destination: no fence, no request behind one, none of its stream under way on a path of its own (R311). -/
def Dev.unheld (d : Dev) (k : Pkt) : Bool :=
  !d.trn.fences.any (fun f => related f.pkt k) && !d.trn.behind.any (fun q => related q.pkt k) && (k.opcode = 9#8 || !d.pendingElsewhere k (d.targetOf k))

/-- A request that is the next of its lane is served: of its VC's class, well formed and without a reserved encoding, held up by none before it, and its instance takes it (R311, R326, R327, R419, R423). -/
def Dev.serves (d : Dev) (via : Via) (vc : Nat) (k : Pkt) : Bool :=
  d.inLane via vc k && decide (opClass k.opcode = some (vcClass vc)) && !malformed k && !reservedEnc k &&
  (d.taken via k).unheld k && ((d.taken via k).instGate k).isNone

/-- The host address an inbound window maps a request to (R387). -/
def hostAddr (k : Pkt) (w : List W64) : Nat := (bget w 16 8 + (k.addr.toNat - bget w 0 8)) % 2 ^ 64

/-- The device in which an inbound request reaches host memory: its block's domain awake and, for a request that writes, the dirty bit marked (R387, R459). -/
def Dev.inboundAt (d : Dev) (k : Pkt) (w : List W64) : Dev :=
  let e := d.touch (blockDomain (inboundBlk k.di)) (blockDomain (inboundBlk k.di))
  if k.opcode = 1#8 then e else e.mark k.di (hostAddr k w)

/-- An inbound request is permitted and can go to the host: the window permits it and covers it, its block and domain are open, the function may master, and an atomic is of a size and a host that take it (R387, R352). -/
def Dev.inboundOk (d : Dev) (k : Pkt) (w : List W64) : Bool :=
  let op := k.opcode.toNat
  let e := d.inboundAt k w
  bitOf (bget w 35 1) (permBit op) && decide (k.addr.toNat + k.length.toNat ≤ bget w 0 8 + bget w 8 8) &&
  !e.blockClosing (inboundBlk k.di) && !(e.pdSt (blockDomain (inboundBlk k.di))).shut &&
  !((op = 4 || op = 5) && k.length.toNat = 16) && e.mayMaster k.di && (op < 4 || 6 < op || e.cfgBit 0 cfgDevCtl2 6)

/-- A request for the local design can be delivered now: its port is present and open, its delivery stream has or finds an entry, and a tag is free where it needs one (R388, R395). -/
def Dev.localOk (d : Dev) (k : Pkt) (p : Nat) : Bool :=
  decide (d.ig k.di 1 1 = p) && decide (p < 4) && !d.lpAbsent p && !d.blockClosing (8 + p) && !(d.pdSt (27 + p)).shut &&
  ((d.trn.deliv.find? (streamKey p k.src.toNat k.si k.key.toNat)).isSome || decide (d.streamsOf p < 1024)) &&
  (k.posted || (d.freshLocalTag p).isSome)

end Sys2Proof.Machine
end

