-- ==== Sys2Proof/Certificates/Slice0/Obligations.lean ====
section
/-! DEFINITION. The statements about the model, for the provers. A completion statement says `exec i s = .next (s.after d)`: `d` is the command's own effect on the device, and `State.after` adds what that effect sets off at once; `QuietEffectsStay` says when that is nothing. -/
open Sys2Proof Sys2Proof.Machine

/-! ### The machine: the queue, what follows a command, what no step takes back -/

/-- A step with a command at the front of the queue is `exec` of that command on the state with the queue's rest. -/
def Obligations.StepRunsFrontCommand : Prop :=
  ∀ (s : State) (c : Instr) (rest : List Instr), s.pending = c :: rest → step s = exec c { s with pending := rest }

/-- On an empty queue a microsecond passes (the model's choice, log entry 1): the step completes, the queue stays empty and the model's clock advances by one. -/
def Obligations.IdleStepTicks : Prop :=
  ∀ s : State, s.pending = [] → step s = .next (s.after s.dev.tick) ∧ (s.after s.dev.tick).pending = [] ∧ s.dev.now + 1 ≤ (s.after s.dev.tick).dev.now

/-- No command stops the machine: `exec` answers a next state for every command in every state. -/
def Obligations.EveryCommandCompletes : Prop :=
  ∀ (c : Instr) (s : State), ∃ t, exec c s = .next t

/-- No command touches the queue of waiting commands, and a step takes at most its front. -/
def Obligations.CommandsKeepTheQueue : Prop :=
  (∀ (c : Instr) (s t : State), exec c s = .next t → t.pending = s.pending) ∧
  (∀ s t : State, step s = .next t → t.pending = s.pending.tail)

/-- Nothing follows an effect that sets nothing off: what stands in the completion statements is then the whole of the new state. -/
def Obligations.QuietEffectsStay : Prop :=
  ∀ (s : State) (d : Dev), d.quiet = true → s.after d = { s with dev := d }

/-- Every step of every state keeps the registers and the commons memory in their canonical form. -/
def Obligations.StepKeepsSoundness : Prop :=
  ∀ s t : State, s.sound = true → step s = .next t → t.sound = true

/-- The state after reset is sound: its tables are in canonical form, the queue is empty, nothing has left the device and no memory byte is listed. -/
def Obligations.ResetIsSound : Prop :=
  State.reset.sound = true ∧ State.reset.pending = [] ∧ State.reset.dev.out = [] ∧ State.reset.dev.ins.mem = [] ∧
  State.reset.dev.pins.main = false ∧ State.reset.dev.powered = false ∧ (∀ a, State.reset.dev.memRd a = 0#8)

/-- No step takes back what has happened: the die serial number stays (R13), the microseconds and free values that have passed never fall, what has left the device stays on record. -/
def Obligations.StepTakesNothingBack : Prop :=
  (∀ (c : Instr) (s t : State), exec c s = .next t → Kept s.dev t.dev) ∧ (∀ s t : State, step s = .next t → Kept s.dev t.dev)

/-- A command of the host does nothing while the host link is down: it cannot arrive (log entry 2). -/
def Obligations.HostCommandsNeedTheLink : Prop :=
  ∀ s : State, s.dev.hostHere = false →
    (∀ fn off be x, exec (.configWrite fn off be x) s = .next s) ∧ exec .pfFlr s = .next s ∧ (∀ n, exec (.vfFlr n) s = .next s) ∧ exec .vfEnableSet s = .next s ∧ exec .vfEnableClear s = .next s ∧
    (∀ fn o b e p, exec (.hostBar2Write fn o b e p) s = .next s) ∧ (∀ fn t o n, exec (.hostBar2Read fn t o n) s = .next s) ∧ (∀ fn t o k w b, exec (.hostBar2Atomic fn t o k w b) s = .next s) ∧
    (∀ fn o w be x, exec (.msixTableWrite fn o w be x) s = .next s) ∧ (∀ fn x, exec (.hostMessage fn x) s = .next s) ∧ (∀ t u b, exec (.hostCompletion t u b) s = .next s) ∧
    (∀ e fn, exec (.hostLinkError e fn) s = .next s) ∧ (∀ i, exec (.winCommit .pf i) s = .next s) ∧ (∀ i, exec (.insPitch .pf i) s = .next s) ∧ (∀ be k, exec (.pdOff .pf be k) s = .next s) ∧
    (∀ be x, exec (.fwtAck .pf be x) s = .next s) ∧ (∀ x, exec (.clgAck .pf x) s = .next s) ∧ (∀ x, exec (.resume .pf x) s = .next s) ∧ (∀ a : Access, a.pty = .pf → exec (.controlWrite a) s = .next s)

/-- On a sound state (StepKeepsSoundness) a write of the commons stores its bytes and no other byte of memory changes, nor any register but the byte counter of class 2 of the Store (R190): read byte by byte (R427, R433). -/
def Obligations.CommonsWriteFrame : Prop :=
  (∀ (d : Dev) (a x : Nat) (b : List Byte), d.sound = true → (d.memStore a b).memRd x = if a ≤ x ∧ x < a + b.length then b.getD (x - a) 0#8 else d.memRd x) ∧
  (∀ (s : State) (n : InstNo) (o : BitVec 24) (b : List Byte) (t : State), s.sound = true → s.dev.hostHere = true → s.dev.hostMem n.toNat = true → s.dev.onlyWatch = false → s.dev.powerOf 0xF00000 = Power.on → n ≠ 0#12 → s.dev.istate n.toNat ≠ 0 →
    0x10000 ≤ o.toNat → o.toNat < 0x20000 → b.length ≤ 0x20000 - o.toNat → (s.dev.memStore (n.toNat * 0x10000 + o.toNat % 0x10000) b).quiet = true →
    exec (.commonsAccess (.vf n) o true b.length b (List.replicate b.length true)) s = .next t →
    (∀ x, x ≠ R.stoBwBytes 2 → t.dev.regs.find? x = s.dev.regs.find? x) ∧ t.dev.out = s.dev.out ∧ t.dev.hst = s.dev.hst ∧
    (∀ i, i < b.length → t.dev.memRd (n.toNat * 0x10000 + o.toNat % 0x10000 + i) = b.getD i 0#8) ∧
    (∀ a, a < n.toNat * 0x10000 + o.toNat % 0x10000 ∨ n.toNat * 0x10000 + o.toNat % 0x10000 + b.length ≤ a → t.dev.memRd a = s.dev.memRd a))

/-- The write of a register's value, and of a field of it, changes no other register and nothing else of the device: the frame of every statement that gives a new state by register and field writes. -/
def Obligations.RegisterWritesFrame : Prop :=
  (∀ (d : Dev) (off x : Nat) (v : W64), (d.wr off v).regs.find? x = (if x = off then some v else d.regs.find? x) ∧ { d.wr off v with regs := d.regs } = d) ∧
  (∀ (d : Dev) (f g : Fld) (n : Nat), f.lo ≤ f.hi → f.hi < 64 → g.lo ≤ g.hi → g.hi < 64 → (d.s f n).regs.find? f.off = some (setField (d.rd f.off) f.hi f.lo n) ∧
    fieldOf (setField (d.rd f.off) f.hi f.lo n) f.hi f.lo = n % 2 ^ (f.hi + 1 - f.lo) ∧
    (g.hi < f.lo ∨ f.hi < g.lo → fieldOf (setField (d.rd f.off) f.hi f.lo n) g.hi g.lo = fieldOf (d.rd f.off) g.hi g.lo) ∧
    (∀ x, x ≠ f.off → (d.s f n).regs.find? x = d.regs.find? x) ∧ { d.s f n with regs := d.regs } = d)

/-- A refused write of the manager leaves its rejected record and nothing else (R19, R558): with the log open and nothing missed, the device is the same but for the record at the end of the staged ones, old and new value alike; at the time block the write has ended the host's freeze as well (R71). -/
def Obligations.RefusedWriteLeavesOnlyItsRecord : Prop :=
  ∀ (s : State) (fn : InstNo) (off : BitVec 24) (x : W32) (old : W64) (rs : Bool),
    s.dev.ready off.toNat = true → off.toNat % 4 = 0 → off.toNat < 0xF00000 → regMapped off.toNat = true → off.toNat ≠ R.pitResumeToken → (s.dev.unfrozen off.toNat).judgeOf .pf (mgrWrite off.toNat x) = .bad old rs false →
    s.dev.limited = false → s.dev.pit.logOpen = true → s.dev.clg.missed = 0 → s.dev.clg.staged.length < 16 →
    exec (.controlWrite ⟨.pf, .bar0, fn, off, false, 15#8, x.setWidth 64, false⟩) s = .next (s.after
      { s.dev.unfrozen off.toNat with clg := { s.dev.clg with staged := s.dev.clg.staged ++ [s.dev.recOf (mgrWrite off.toNat x) (1 + 4 * b2n rs) old old] } })

/-! ### Rules of the spec, word for word -/

/-- R87: the manager's write of a reserved encoding (a trim of -512, a wake unit of 6 or 7, a wake count of 0 with a unit) leaves a rejected record and nothing else, whatever the bits outside the fields. -/
def Obligations.ReservedEmberEncodingsRejected : Prop :=
  (∀ (s : State) (x : W32), s.dev.ready R.embTrim = true → x.toNat % 1024 = 512 →
    exec (.trimWrite .pf 15#8 x) s = .next (s.after (s.dev.logged (mgrWrite R.embTrim x) (1 + 4 * b2n (decide (1024 ≤ x.toNat))) (s.dev.rd R.embTrim) (s.dev.rd R.embTrim)))) ∧
  (∀ (s : State) (x : W32), s.dev.ready R.embWake = true → x.toNat % 8 = 6 ∨ x.toNat % 8 = 7 ∨ (x.toNat % 8 ≠ 0 ∧ x.toNat / 2 ^ 16 % 2 ^ 12 = 0) →
    exec (.wakeWrite .pf 15#8 x) s = .next (s.after
      (s.dev.logged (mgrWrite R.embWake x) (1 + 4 * b2n (decide (x.toNat / 16 % 2 ^ 12 ≠ 0 ∨ 2 ^ 28 ≤ x.toNat))) (s.dev.rd R.embWake) (s.dev.rd R.embWake))))

/-- R90: while bit 0 (armed) of backup byte 58 is 0, a hold break changes nothing. -/
def Obligations.UnarmedHoldBreakIsNotRecorded : Prop :=
  ∀ s : State, bitOf (s.dev.bkp 58) 0 = false → exec .holdBreak s = .next (s.after s.dev)

/-- R513: the manager's write of lic.core_cfg[c] with a pmr of 17 to 31 leaves a rejected record and nothing else, whatever the bits outside the field. -/
def Obligations.ReservedThresholdRejected : Prop :=
  ∀ (s : State) (c : Fin 16) (x : W32), s.dev.ready (R.licCoreCfg c.val) = true → 17 ≤ x.toNat % 32 →
    exec (.licSrcCfgWrite .pf (.core c) 15#8 (x.setWidth 64)) s =
      .next (s.after (s.dev.logged (mgrWrite (R.licCoreCfg c.val) x) (1 + 4 * b2n (decide (32 ≤ x.toNat))) (s.dev.rd (R.licCoreCfg c.val)) (s.dev.rd (R.licCoreCfg c.val))))

/-- R553: an acknowledgement with an id of 0 is judged as a mismatching id: rejected, with result 3. -/
def Obligations.AcknowledgingIdZeroMismatches : Prop :=
  ∀ (s : State) (x : W32), s.dev.ready R.fwtAck = true → x.toNat % 65536 = 0 →
    exec (.fwtAck .pf 15#8 x) s = .next (s.after ((s.dev.logged (mgrWrite R.fwtAck x) 1 0#64 0#64).s F.fwtAckStatus_result 3))

/-- R569: a write of a to clg.ack is accepted when tail ≤ a ≤ head; it sets tail to a and releases the records below a, one by one from the old tail, and no other; any other value is refused and logged with the rejected flag. -/
def Obligations.AcknowledgedRecordsAreReleased : Prop :=
  ∀ (s : State) (a tail head : W64), tail = s.dev.rd R.clgTail → head = s.dev.rd R.clgHead → s.dev.reaches R.clgAck = true →
    (tail.toNat ≤ a.toNat → a.toNat ≤ head.toNat →
      exec (.clgAck .pf a) s = .next (s.after (s.dev.ackTo a)) ∧ (s.dev.ackTo a).rd R.clgTail = a ∧ (s.dev.ackTo a).rd R.clgHead = head ∧
      (s.dev.ackTo a).clg.ring = (List.range (a.toNat - tail.toNat)).foldl (fun r i => r.del (tail.toNat + i)) s.dev.clg.ring) ∧
    (a.toNat < tail.toNat ∨ head.toNat < a.toNat → s.dev.swRoom 1 = true →
      exec (.clgAck .pf a) s = .next (s.after (s.dev.logged (mgrWrite8 R.clgAck a) 1 0#64 0#64)))

/-- R618: the manager's write of pit.resume_token sets the token of the next seal, where 0 means none; the register reads zero and the record of the write carries zero in old, new and aux. -/
def Obligations.ResumeTokenIsKeptSecret : Prop :=
  ∀ (s : State) (x : W64) (r : Rec) (d : Dev), r = s.dev.recOf (mgrWrite8 R.pitResumeToken 0#64) 1024 0#64 0#64 →
    d = ({ s.dev.log r with bvc := { (s.dev.log r).bvc with token := x } } : Dev).sb F.pitResumeStatus_token_set (decide (x ≠ 0#64)) → s.dev.ready R.pitResumeToken = true →
    exec (.resumeTokenWrite .pf x) s = .next (s.after d) ∧ d.makeSeal.token = x ∧ d.gb F.pitResumeStatus_token_set = decide (x ≠ 0#64) ∧
    d.peek R.pitResumeToken true = some 0#64 ∧ r.old = 0#64 ∧ r.new = 0#64 ∧ r.aux = 0#64

/-! ### Ember (02) -/

/-- The commands of Ember's supplies and crystal have their effect: substitute cycles and F002 on a lost crystal (R58), the crystal's return, which a running substitute waits for (R58, R59), a fresh start of every Ember register on the return of a rail after both were absent (R55, R60), the change of rail with its count and first and last times (R76, R78), the oscillator-stop flag, after which no crystal cycle is counted (R59). -/
def Obligations.EmberSupplyCommandsComplete : Prop :=
  (∀ s : State, s.dev.pins.main = true → s.dev.emb.subst = false →
    exec .crystalLoss s = .next (s.after ((({ s.dev with emb := { s.dev.emb with xtal := false, subst := true, goodPend := false, winOk := false } }).substBits).raiseLvl 2))) ∧
  (∀ s : State, s.dev.pins.main = true → s.dev.emb.subst = true →
    exec .crystalLoss s = .next (s.after { s.dev with emb := { s.dev.emb with xtal := false, goodPend := false, winOk := false } })) ∧
  (∀ s : State, exec .crystalGood s = .next (s.after { s.dev with emb := { s.dev.emb with xtal := true, goodPend := s.dev.emb.subst } })) ∧
  (∀ (s : State) (r : Rail), s.dev.emb.vmain = false → s.dev.emb.vbat = false →
    exec (.emberFreshStart r) s = .next (s.after (s.dev.freshStart r)) ∧
    (s.dev.freshStart r).tally = 0#64 ∧ (s.dev.freshStart r).emb.onVbat = decide (r = .vbat) ∧ (s.dev.freshStart r).pins.holdOk = false ∧
    (∀ off, 0x20000 ≤ off → off < 0x30000 → off ≠ R.embStatus → off ∉ SMap.keys (s.dev.freshStart r).regs) ∧
    (∀ off, (off < 0x20000 ∨ 0x30000 ≤ off) → (off ∈ SMap.keys (s.dev.freshStart r).regs ↔ off ∈ SMap.keys s.dev.regs))) ∧
  (∀ s : State, s.dev.embAlive = true → s.dev.emb.onVbat = false →
    exec .switchToVbat s = .next (s.after ({ s.dev with emb := { s.dev.emb with vbat := true } }).toBattery) ∧
    s.dev.toBattery.emb.onVbat = true ∧ s.dev.toBattery.gb F.embStatus_on_battery = true ∧
    s.dev.toBattery.g F.embSwCount_count = min (s.dev.g F.embSwCount_count + 1) (2 ^ 16 - 1) ∧
    (s.dev.g F.embSwCount_count = 0 → s.dev.toBattery.rd R.embSwFirstBat = s.dev.tally)) ∧
  (∀ s : State, s.dev.embAlive = true → s.dev.emb.onVbat = true →
    exec .returnToVmain s = .next (s.after ({ s.dev with emb := { s.dev.emb with vmain := true } }).toMain) ∧
    s.dev.toMain.emb.onVbat = false ∧ s.dev.toMain.gb F.embStatus_on_battery = false ∧ s.dev.toMain.rd R.embSwLastMain = s.dev.tally) ∧
  (∀ s : State, s.dev.emb.onVbat = false → s.dev.emb.vbat = true →
    exec (.emberRailAbsent .vmain) s = .next (s.after ({ s.dev with emb := { s.dev.emb with vmain := false } }).toBattery)) ∧
  (∀ s : State, s.dev.emb.onVbat = true → s.dev.emb.vmain = true →
    exec (.emberRailAbsent .vbat) s = .next (s.after ({ s.dev with emb := { s.dev.emb with vbat := false } }).toMain)) ∧
  (∀ s : State, s.dev.embAlive = true →
    exec .oscStop s = .next (s.after { s.dev.sb F.embStatus_osc_stop true with emb := { s.dev.emb with xtal := false, goodPend := false, winOk := false } }))

/-- Ember's other events have their effect: PWRON_N is released (R82), the switch-over summary is logged with its first time, last time and count (R78), a broken hold is noted once in backup byte 58 with the second it broke (R79), the periodic wake sets its flag and pulses LIC event 544 while main power is present (R83). -/
def Obligations.EmberEventsComplete : Prop :=
  (∀ s : State, exec .pwronPulseEnd s = .next (s.after (s.dev.sb F.embPwr_pwron_active false))) ∧
  (∀ s : State, s.dev.emb.swSince = true → s.dev.pins.main = true →
    exec .switchOverSummary s = .next (s.after (({ s.dev with emb := { s.dev.emb with swSince := false } }).logEv .ember 10 (s.dev.rd R.embSwFirstBat).toNat (s.dev.rd R.embSwLastMain).toNat (s.dev.g F.embSwCount_count)))) ∧
  (∀ s : State, s.dev.embAlive = true → bitOf (s.dev.bkp 58) 0 = true → bitOf (s.dev.bkp 58) 1 = false →
    exec .holdBreak s = .next (s.after ((s.dev.setBkp 58 (setBit (s.dev.bkp 58) 1 true)).setBkpW 15 (BitVec.ofNat 32 s.dev.emb.tallySec)))) ∧
  (∀ s : State, s.dev.embAlive = true → s.dev.g F.embWake_unit ≠ 0 → s.dev.pins.main = true →
    exec .wakeExpiry s = .next (s.after (((s.dev.whenD (s.dev.gb F.embStatus_wake_ev) (fun d => d.bump F.embWakeOvr_count)).sb F.embStatus_wake_ev true).licPulse 544)))

/-- The clocks and their setting: a second boundary counts the tally and the wall clock (R57, R65), a wall-clock write waits for Ember and is applied with its record (R66), the control, daylight-saving, trim and wake registers take the manager's whole write (R67, R69, R74, R83), a trim window ends with its measurement (R75). -/
def Obligations.EmberClockCommandsComplete : Prop :=
  (∀ s : State, s.dev.embCounts = true →
    exec (.secondBoundary .tally) s = .next (s.after ({ s.dev with emb := { s.dev.emb with tallyPre := 0, tallySec := (s.dev.emb.tallySec + 1) % 2 ^ 48 } }).crystalBack)) ∧
  (∀ s : State, s.dev.embCounts = true → s.dev.halted = false →
    exec (.secondBoundary .wall) s = .next (s.after ({ s.dev with emb := { s.dev.emb with wallPre := 0 } }).wallBoundary)) ∧
  (∀ (s : State) (x : W32), s.dev.ready R.embTmCalTime = true → s.dev.binMode = false → s.dev.emb.wall = none →
    x.toNat % 64 ≤ 59 → x.toNat / 2 ^ 8 % 64 ≤ 59 → x.toNat / 2 ^ 16 % 32 ≤ 23 → x.toNat / 2 ^ 24 % 8 ≠ 0 →
    exec (.wallClockWrite .pf .calTime 15#8 (x.setWidth 64)) s =
      .next (s.after { s.dev with emb := { (s.dev.endFreeze 0).emb with wall := some ⟨.calTime, 15#8, x.setWidth 64⟩ } })) ∧
  (∀ (s : State) (b : Bool) (w : WallPend), s.dev.emb.wall = some w → exec (.wallWriteApply b) s = .next (s.after (s.dev.wallApply b))) ∧
  (∀ (s : State) (x : W32), s.dev.ready R.embWctl = true → x.toNat % 2 = 0 → x.toNat < 4 → s.dev.g F.embWctl_mode = 0 →
    exec (.wctlWrite .pf 15#8 x) s = .next (s.after
      (((s.dev.logged (mgrWrite R.embWctl x) (1024 * b2n (decide (s.dev.rd R.embWctl = x.setWidth 64))) (s.dev.rd R.embWctl) (x.setWidth 64)).wr R.embWctl (x.setWidth 64)).sb F.embTmEnd_halted false))) ∧
  (∀ s : State, s.dev.ready R.embDst = true → s.dev.halted = false → s.dev.gb F.embDst_pending = false →
    exec (.dstAddHour .pf) s = .next (s.after ((s.dev.s F.embDst_cmd 1).sb F.embDst_pending true))) ∧
  (∀ s : State, s.dev.ready R.embDst = true → s.dev.halted = false → s.dev.gb F.embDst_pending = false →
    exec (.dstSubtractHour .pf) s = .next (s.after ((s.dev.s F.embDst_cmd 2).sb F.embDst_pending true))) ∧
  (∀ (s : State) (x : W32), s.dev.ready R.embTrim = true → x.toNat < 1024 → x.toNat ≠ 512 →
    exec (.trimWrite .pf 15#8 x) s = .next (s.after
      ((s.dev.logged (mgrWrite R.embTrim x) (1024 * b2n (decide (s.dev.rd R.embTrim = x.setWidth 64))) (s.dev.rd R.embTrim) (x.setWidth 64)).wr R.embTrim (x.setWidth 64)))) ∧
  (∀ (s : State) (o : BitVec 16), s.dev.embCounts = true → s.dev.emb.winOk = true → s.dev.pins.main = true → s.dev.pins.reff = true → s.dev.emb.xtal = true →
    exec (.trimWindowEnd o) s = .next (s.after ((s.dev.s F.embXtalMeas_offset o.toNat).sb F.embXtalMeas_valid true).windowRoll)) ∧
  (∀ (s : State) (x : W32), s.dev.ready R.embWake = true → x.toNat % 8 = 0 → x.toNat < 2 ^ 28 → x.toNat / 16 % 2 ^ 12 = 0 →
    exec (.wakeWrite .pf 15#8 x) s = .next (s.after
      ((s.dev.logged (mgrWrite R.embWake x) (1024 * b2n (decide (s.dev.rd R.embWake = x.setWidth 64))) (s.dev.rd R.embWake) (x.setWidth 64)).wr R.embWake (x.setWidth 64))))

/-- Reads of the time block, by the host and by a local design, each with its own freeze: a read of tm_tally_lo freezes all eight words for its reader, a read of another word returns the frozen one and captures where none is frozen, tm_end ends the freeze and says whether tm_tally_lo began it (R71, R73); an expired freeze is dropped and flagged (R72). -/
def Obligations.TimeBlockReadsComplete : Prop :=
  (∀ s : State, s.dev.reaches R.embTmTallyLo = true →
    exec (.tmTallyLoRead .pf) s = .next (s.after ((s.dev.capture8 0 true).emit (.rdata 0 (bytesLE 4 (nth s.dev.timeBlock 0 0#32).toNat) false)))) ∧
  (∀ (s : State) (i : Fin 8) (f : Frz), s.dev.reaches R.embTmTallyLo = true → i.val ≠ 0 → i.val ≠ 7 → s.dev.emb.frz.find? 0 = some f →
    exec (.timeBlockRead .pf i) s = .next (s.after (s.dev.emit (.rdata 0 (bytesLE 4 (nth f.snap i.val 0#32).toNat) false)))) ∧
  (∀ (s : State) (i : Fin 8), s.dev.reaches R.embTmTallyLo = true → i.val ≠ 0 → i.val ≠ 7 → s.dev.emb.frz.find? 0 = none →
    exec (.timeBlockRead .pf i) s = .next (s.after ((s.dev.capture8 0 false).emit (.rdata 0 (bytesLE 4 (nth s.dev.timeBlock i.val 0#32).toNat) false)))) ∧
  (∀ (s : State) (f : Frz), s.dev.reaches R.embTmTallyLo = true → s.dev.emb.frz.find? 0 = some f →
    exec (.tmEndRead .pf) s = .next (s.after ((s.dev.endFreeze 0).emit (.rdata 0 (bytesLE 4 (((nth f.snap 7 0#32).toNat + 8 * b2n f.byLo) % 2 ^ 32)) false)))) ∧
  (∀ (s : State) (p : LPort) (c : Option (Fin 16)), s.dev.powered = true → s.dev.portOpen (8 + p.val) = true → s.dev.powerOf R.embTmTallyLo = Power.on →
    exec (.tmTallyLoRead (.lp p c)) s = .next (s.after (s.dev.capture8 (1 + p.val) true))) ∧
  (∀ (s : State) (p : LPort) (c : Option (Fin 16)) (i : Fin 8), s.dev.powered = true → s.dev.portOpen (8 + p.val) = true → s.dev.powerOf R.embTmTallyLo = Power.on → i.val ≠ 0 → i.val ≠ 7 →
    (s.dev.emb.frz.find? (1 + p.val) = none → exec (.timeBlockRead (.lp p c) i) s = .next (s.after (s.dev.capture8 (1 + p.val) false))) ∧
    ((s.dev.emb.frz.find? (1 + p.val)).isSome = true → exec (.timeBlockRead (.lp p c) i) s = .next (s.after s.dev))) ∧
  (∀ (s : State) (p : LPort) (c : Option (Fin 16)), s.dev.powered = true → s.dev.portOpen (8 + p.val) = true → s.dev.powerOf R.embTmTallyLo = Power.on → (s.dev.emb.frz.find? (1 + p.val)).isSome = true →
    exec (.tmEndRead (.lp p c)) s = .next (s.after (s.dev.endFreeze (1 + p.val)))) ∧
  (∀ (s : State) (x : Party), exec (.timeBlockRead x 0) s = exec (.tmTallyLoRead x) s ∧ exec (.timeBlockRead x 7) s = exec (.tmEndRead x) s) ∧
  (∀ (s : State) (r : Fin 5) (f : Frz), s.dev.emb.frz.find? r.val = some f →
    exec (.freezeLapse r) s = .next (s.after ((s.dev.endFreeze r.val).sb F.embStatus_frz_lapsed true)))

/-! ### Pins, supplies and measurements (19) -/

/-- The pins, supplies and measurements have their effect: the loss and return of a reference raise and clear F000 and F001 (R34, R151), good rails start the first pitch up to its third step (R125), the loss of main power leaves Ember's registers and nothing else (R660), PERST_N resets the host port during a pitch and starts a Bivouac in service (R126, R149), and is released (R128), the rails, VBAT and the sensors are read into their registers and judged (R684, R671), a PWRFAIL_N glitch is reported (R677). -/
def Obligations.PinCommandsComplete : Prop :=
  (∀ s : State, s.dev.powered = true → s.dev.pins.refclk = true →
    exec .refclkLost s = .next (s.after ((({ s.dev with pins := { s.dev.pins with refclk := false } }).whenD s.dev.hst.dlUp Dev.linkDown208).raiseLvl 0))) ∧
  (∀ s : State, s.dev.powered = true → exec .refclkReturn s = .next (s.after (({ s.dev with pins := { s.dev.pins with refclk := true } }).clearSrc 0))) ∧
  (∀ s : State, s.dev.powered = true → s.dev.pins.reff = true → s.dev.bvc.phase = BvcPhase.none →
    exec .reffLost s = .next (s.after ((({ s.dev with pins := { s.dev.pins with reff := false }, emb := { s.dev.emb with winOk := false } }).substBits).raiseLvl 1).storePark)) ∧
  (∀ s : State, s.dev.powered = true → exec .reffReturn s = .next (s.after ((({ s.dev with pins := { s.dev.pins with reff := true } }).substBits).clearSrc 1))) ∧
  (∀ s : State, s.dev.pins.main = false → exec .railsGood s = .next (s.after s.dev.railsGood) ∧ s.dev.railsGood.pitStep = 3) ∧
  (∀ s : State, s.dev.pins.main = true →
    exec .mainPowerLoss s = .next (s.after s.dev.powerLost) ∧ s.dev.powerLost.pins.main = false ∧
    (∀ off, off ∈ SMap.keys s.dev.powerLost.regs → 0x20000 ≤ off ∧ off < 0x30000) ∧
    (s.dev.pins.holdOk = false → s.dev.powerLost.sto.live = false)) ∧
  (∀ s : State, s.dev.pins.perst = false → s.dev.pins.main = true → s.dev.bvc.phase = BvcPhase.none → s.dev.limited = false → s.dev.complete = false →
    exec .perstNAssert s = .next (s.after ({ s.dev with pins := { s.dev.pins with perst := true } }).hostPortReset)) ∧
  (∀ (s : State) (d : Dev), d = { s.dev with pins := { s.dev.pins with perst := true } } → s.dev.pins.perst = false → s.dev.pins.main = true → s.dev.bvc.phase = BvcPhase.none → s.dev.limited = false → s.dev.complete = true → d.sealBarred = false →
    exec .perstNAssert s = .next (s.after ((({ d with hst := { d.hst with dlUp := false } }).sb F.hstStatus_dl_up false).bvcStart 2))) ∧
  (∀ s : State, exec .perstNRelease s = .next (s.after { s.dev with pins := { s.dev.pins with perst := false } })) ∧
  (∀ (s : State) (mv : List Nat), s.dev.powered = true → mv.length = 7 → (∀ x ∈ mv, x < 8192) →
    exec (.railReading mv) s = .next (s.after (s.dev.railsRead mv)) ∧
    (∀ k, k < 7 → (s.dev.railsRead mv).g (F.genRail_mv k) = nth mv k 0 ∧ (s.dev.railsRead mv).gb (F.genRail_out_of_tol k) = railOut k (nth mv k 0))) ∧
  (∀ (s : State) (mv : Nat), s.dev.powered = true → mv < 1800 →
    exec (.vbatMeasurement mv) s = .next (s.after (((s.dev.s (F.genRail_mv 7) mv).sb (F.genRail_out_of_tol 7) true).raiseLvl 22))) ∧
  (∀ (s : State) (mv : Nat), s.dev.powered = true → 1800 ≤ mv → mv < 2200 →
    exec (.vbatMeasurement mv) s = .next (s.after (({ ((s.dev.s (F.genRail_mv 7) mv).sb (F.genRail_out_of_tol 7) true) with emb := { s.dev.emb with vbat := true } }).raiseLvl 22))) ∧
  (∀ (s : State) (mv : Nat), s.dev.powered = true → 2200 ≤ mv → mv < 8192 →
    exec (.vbatMeasurement mv) s = .next (s.after (({ ((s.dev.s (F.genRail_mv 7) mv).sb (F.genRail_out_of_tol 7) false) with emb := { s.dev.emb with vbat := true } }).clearSrc 22))) ∧
  (∀ (s : State) (t : List Int), s.dev.powered = true →
    exec (.tempReading t) s = .next (s.after (s.dev.tempsRead t)) ∧
    ((s.dev.tempStore t).gb (F.genTemp_excluded 7) = false → (s.dev.tempsRead t).gb F.stoStatus_hot = decide (680 < nth t 7 0))) ∧
  (∀ s : State, s.dev.powered = true → exec .pwrfailNGlitch s = .next (s.after (s.dev.raise 27)))

/-- The manager's general control write reaches the register, configuration space or MSI-X table it names: a whole 4-byte write of a register takes the outcome of that register's judgement (R19, R39, R557), a poisoned write to BAR0 or BAR4 is discarded and reported (R355, R367). -/
def Obligations.ControlWriteCompletes : Prop :=
  (∀ (s : State) (fn : InstNo) (off : BitVec 24) (x : W32), s.dev.reaches off.toNat = true → off.toNat % 4 = 0 → off.toNat < 0xF00000 → regMapped off.toNat = true → off.toNat ≠ R.pitResumeToken →
    exec (.controlWrite ⟨.pf, .bar0, fn, off, false, 15#8, x.setWidth 64, false⟩) s =
      .next (s.after ((s.dev.unfrozen off.toNat).commitS (mgrWrite off.toNat x) ((s.dev.unfrozen off.toNat).judgeOf .pf (mgrWrite off.toNat x))).1)) ∧
  (∀ (s : State) (fn : InstNo) (off : BitVec 24) (be : BitVec 8) (x : W64) (ep : Bool), s.dev.hostHere = true →
    exec (.controlWrite ⟨.pf, .cfg, fn, off, false, be, x, ep⟩) s = .next (s.after (s.dev.cfgWrite fn.toNat (off.toNat % 4096) be.toNat (x.setWidth 32)))) ∧
  (∀ (s : State) (fn : InstNo) (off : BitVec 24) (w : Bool) (be : BitVec 8) (x : W64), s.dev.hostHere = true →
    exec (.controlWrite ⟨.pf, .bar4, fn, off, w, be, x, false⟩) s = .next (s.after (s.dev.msixWrite fn.toNat off.toNat w be.toNat x))) ∧
  (∀ (s : State) (a : Access), a.pty = .pf → a.ep = true → a.space ≠ .cfg → s.dev.hostHere = true →
    exec (.controlWrite a) s = .next (s.after (s.dev.hostPoison (if a.space = .bar4 then a.fn.toNat else 0))))

/-! ### The pitch (03, 04) -/

/-- The steps of the pitch end as the sequencer gives them: each moves pit.pitch_status.step to the step that follows (R125, R134), a re-read keeps its pass for the next (R113), Store attempts are counted and the third failure makes the pitch limited with F049 (R152, R180), a cold start that cannot keep the ring raises F253 (R133, R581), what a warm validation meets is acted on (R697), a failed warm validation turns the pitch cold with reason 8 (R616), the host port becomes ready (R137), the join limit ends the pitch late (R155). -/
def Obligations.PitchStepsComplete : Prop :=
  (∀ (s : State) (x : StrapSamples), s.dev.powered = true → s.dev.pitStep = 3 →
    exec (.strapSamplingComplete x) s = .next (s.after (s.dev.strapsDone x)) ∧ (s.dev.strapsDone x).pitStep = 4) ∧
  (∀ (s : State) (x : StrapPass), s.dev.powered = true → s.dev.pit.sampled = true →
    exec (.strapReread x) s = .next (s.after (s.dev.reread x)) ∧ (s.dev.reread x).pit.prev = some x) ∧
  (∀ (s : State) (r : Nat), s.dev.powered = true → s.dev.pitStep = 4 → s.dev.pins.reff = true → s.dev.fwt.grave = false →
    exec (.pllLock r) s = .next (s.after ((((s.dev.stamp 4).toStep 5).calPitch r).each (List.range 12) Dev.trainStart))) ∧
  (∀ (s : State) (r : Nat), s.dev.powered = true → s.dev.pitStep = 4 → s.dev.pins.reff = true → s.dev.fwt.grave = true →
    exec (.pllLock r) s = .next (s.after (((s.dev.stamp 4).toStep 5).calPitch r).goLimited)) ∧
  (∀ (s : State) (a b : Bool), s.dev.powered = true → s.dev.pitStep = 5 → s.dev.limited = false →
    exec (.storeExitComplete a b) s = .next (s.after (s.dev.storeUp a b)) ∧ (s.dev.storeUp a b).pitStep = 7) ∧
  (∀ s : State, s.dev.powered = true → s.dev.pitStep = 5 → s.dev.limited = false → s.dev.g F.pitPitchStatus_store_attempts < 2 →
    exec .storeAttemptFail s = .next (s.after (s.dev.s F.pitPitchStatus_store_attempts (s.dev.g F.pitPitchStatus_store_attempts + 1)))) ∧
  (∀ s : State, s.dev.powered = true → s.dev.pitStep = 5 → s.dev.limited = false → s.dev.g F.pitPitchStatus_store_attempts = 2 →
    exec .storeAttemptFail s = .next (s.after ((((s.dev.s F.pitPitchStatus_store_attempts 3).each (List.range 12) (fun d p => d.toIdle p)).goLimited).raise 49))) ∧
  (∀ (s : State) (ok : Bool) (d : Dev), s.dev.powered = true → s.dev.pitStep = 7 → s.dev.gb F.pitPitchStatus_warm = false → d = (s.dev.whenD (s.dev.sto.hdrLevel.isSome && !ok) (fun d => d.raise 46)).clearTables →
    exec (.coldInitComplete ok) s = .next (s.after
      ((((({ d with sto := { d.sto with sealA := none, sealB := none, snap0 := none, snap1 := none } }).ringStart (s.dev.ringGood ok)).logHeader).whenD (!s.dev.ringGood ok) (fun d => d.raise 253)).stamp 7).startLog)) ∧
  (∀ (s : State) (r : WarmReads) (x : Seal), s.dev.powered = true → s.dev.pitStep = 7 → s.dev.gb F.pitPitchStatus_warm = true → s.dev.sto.cur = some x → s.dev.warmGood x r = false →
    exec (.warmValidationComplete r) s = .next (s.after ((s.dev.warmMeets r).goCold 8))) ∧
  (∀ (s : State) (r : WarmReads) (x : Seal) (d : Dev), s.dev.powered = true → s.dev.pitStep = 7 → s.dev.gb F.pitPitchStatus_warm = true → s.dev.sto.cur = some x → s.dev.warmGood x r = true → d = s.dev.warmMeets r →
    exec (.warmValidationComplete r) s = .next (s.after
      ((((((((d.setBkp 58 (setBit (d.bkp 58) 3 false)).suspendAll).holdsWarm).imageBack).twinWarm x).ringStart true).logHeader).stamp 7).startLog)) ∧
  (∀ s : State, s.dev.powered = true → s.dev.pit.ready = false → s.dev.pins.perst = false → s.dev.pins.refclk = true → s.dev.pit.logOpen = true → s.dev.limited = false →
    exec .configurationReady s = .next (s.after ((({ s.dev with pit := { s.dev.pit with ready := true } }).sb F.pitPitchStatus_config_ready true).stamp 9))) ∧
  (∀ s : State, s.dev.powered = true → s.dev.pitStep = 12 → exec .joinTimeout s = .next (s.after ((s.dev.raise 198).pitchDone true)))

/-- A block re-pitch runs its course: the accepted write drains the block (R145), a refused one reports its result (R154), the end or the limit of the drain advances the generations of the block and of the ports that go with it, with its record, and restores it (R145, R154, R239), the reopened block trains its ports, reports how it ended and, for the LIC, applies what was captured (R145, R511); a reset of Firewatch's reports to its own record only (R526). -/
def Obligations.BlockRepitchCompletes : Prop :=
  (∀ (s : State) (k : BitVec 8), s.dev.ready R.pitRepitch = true → blockLegal k.toNat = true → s.dev.repitchCheck k.toNat = none →
    exec (.blockRepitch .pf 15#8 k) s = .next (s.after
      (((((s.dev.logged (mgrWrite R.pitRepitch (k.setWidth 32)) 1024 0#64 0#64).sb F.pitRepitchStatus_busy true).s F.pitRepitchStatus_last_block k.toNat).setReset k.toNat (some ⟨k.toNat, 3, false, false, false⟩)).blockCloses k.toNat))) ∧
  (∀ (s : State) (k : BitVec 8) (r : Nat), s.dev.ready R.pitRepitch = true → blockLegal k.toNat = true → s.dev.repitchCheck k.toNat = some r →
    exec (.blockRepitch .pf 15#8 k) s = .next (s.after
      (((s.dev.logged (mgrWrite R.pitRepitch (k.setWidth 32)) 1 0#64 0#64).s F.pitRepitchStatus_result r).s F.pitRepitchStatus_last_block k.toNat))) ∧
  (∀ (s : State) (k : BitVec 8) (r : BReset), s.dev.powered = true → s.dev.resetOf k.toNat = some r → r.step = 3 → s.dev.blockEmpty k.toNat = true →
    exec (.repitchDrainEnd k) s = .next (s.after (s.dev.resetBlock k.toNat false)) ∧
    s.dev.resetBlock k.toNat false =
      ((((((s.dev.workEnd k.toNat 3).1.goneSynth (s.dev.workEnd k.toNat 3).2).nextGens k.toNat).logEv r.org 4 (s.dev.generation k.toNat).toNat
        ((((s.dev.workEnd k.toNat 3).1.goneSynth (s.dev.workEnd k.toNat 3).2).nextGens k.toNat).generation k.toNat).toNat k.toNat).setReset k.toNat (some { r with step := 5, limit := false })).restoreState k.toNat)) ∧
  (∀ (s : State) (k : BitVec 8) (r : BReset), s.dev.powered = true → s.dev.resetOf k.toNat = some r → r.step = 3 → s.dev.blockEmpty k.toNat = false →
    exec (.repitchDrainLimit k) s = .next (s.after (s.dev.resetBlock k.toNat true)) ∧
    s.dev.resetBlock k.toNat true =
      ((((((s.dev.workEnd k.toNat 3).1.goneSynth (s.dev.workEnd k.toNat 3).2).nextGens k.toNat).logEv r.org 4 (s.dev.generation k.toNat).toNat
        ((((s.dev.workEnd k.toNat 3).1.goneSynth (s.dev.workEnd k.toNat 3).2).nextGens k.toNat).generation k.toNat).toNat k.toNat).setReset k.toNat (some { r with step := 5, limit := true })).restoreState k.toNat)) ∧
  (∀ (s : State) (k : BitVec 8) (r : BReset), s.dev.powered = true → s.dev.resetOf k.toNat = some r → r.step = 5 → r.fwt = false → r.again = false →
    exec (.repitchRestoreComplete k) s = .next (s.after
      ((((((s.dev.setReset k.toNat none).sb F.pitRepitchStatus_busy false).s F.pitRepitchStatus_result (if r.limit then 5 else 1)).logEv r.org 9 0 (if r.limit then 5 else 1) k.toNat).portsTrain k.toNat).whenD (k = 0x30#8) Dev.applyCaptures))) ∧
  (∀ (s : State) (k : BitVec 8) (r : BReset), s.dev.powered = true → s.dev.resetOf k.toNat = some r → r.step = 5 → r.fwt = true → r.again = false →
    exec (.repitchRestoreComplete k) s = .next (s.after ((((s.dev.setReset k.toNat none).logEv r.org 9 0 1 k.toNat).portsTrain k.toNat).whenD (k = 0x30#8) Dev.applyCaptures)))

/-! ### The Store (05) -/

/-- The Store's commands have their effect: a scrub read acts on its unit, moves 64 bytes of class 6 and advances the position, whose range shows in progress and whose wrap counts a pass (R163, R168, R190), a debug read starts with the unit that dbg_addr names and returns its eight words, or free values where the spec lays out none, with poison for a failed or a known bad unit (R187, R190), the loss of a channel raises F049 (R180). -/
def Obligations.StoreCommandsComplete : Prop :=
  (∀ (s : State) (x : UnitRead) (n : Nat) (d : Dev), n = (s.dev.sto.scrubPos + 1) % stoUnits → d = (s.dev.unitRead (64 * s.dev.sto.scrubPos) x).stoMove 6 64 → s.dev.powered = true → s.dev.gb F.stoStatus_scrub_on = true →
    exec (.scrubRead x) s = .next (s.after
      ((({ d with sto := { d.sto with scrubPos := n } } : Dev).whenD (n / 0x100000 ≠ s.dev.sto.scrubPos / 0x100000) (fun d => d.s F.stoScrubStatus_progress (n / 0x100000))).whenD (n = 0) (fun d => d.bump F.stoScrubStatus_passes)))) ∧
  (∀ (s : State) (d : Dev), s.dev.ready R.stoDbgCtl = true → s.dev.rd R.stoDbgCtl = 0#64 → d = (s.dev.wr R.stoDbgCtl 1#64).sb F.stoDbgCtl_busy true →
    exec (.dbgRead .pf) s = .next (s.after { d with sto := { d.sto with dbgAt := (s.dev.rd R.stoDbgAddr).toNat / 64 * 64 } })) ∧
  (∀ (s : State) (p : Bool) (ws : List W64), s.dev.powered = true → s.dev.gb F.stoDbgCtl_busy = true → s.dev.unitWords s.dev.sto.dbgAt = some ws →
    exec (.dbgReadComplete p) s = .next (s.after
      ((((((List.zip (List.range 8) ws).foldl (fun (d : Dev) e => d.wr (R.stoDbgData e.1) e.2) s.dev).sb F.stoDbgCtl_go false).sb F.stoDbgCtl_busy false).sb F.stoDbgCtl_poison
        (p || ((List.zip (List.range 8) ws).foldl (fun (d : Dev) e => d.wr (R.stoDbgData e.1) e.2) s.dev).knownBad s.dev.sto.dbgAt)).stoMove 7 64))) ∧
  (∀ (s : State) (p : Bool) (d : Dev), s.dev.powered = true → s.dev.gb F.stoDbgCtl_busy = true → s.dev.unitWords s.dev.sto.dbgAt = none →
    d = (List.zip (List.range 8) (s.dev.takeFrees 8).1).foldl (fun (d : Dev) e => d.wr (R.stoDbgData e.1) e.2) (s.dev.takeFrees 8).2 →
    exec (.dbgReadComplete p) s = .next (s.after ((((d.sb F.stoDbgCtl_go false).sb F.stoDbgCtl_busy false).sb F.stoDbgCtl_poison (p || d.knownBad s.dev.sto.dbgAt)).stoMove 7 64))) ∧
  (∀ s : State, s.dev.powered = true → s.dev.gb F.stoStatus_ready = true →
    exec .storeChannelFail s = .next (s.after (({ s.dev with sto := { s.dev.sto with live := false } }).raise 49)))

/-! ### The physical layer (06) -/

/-- The training of a port moves through its states: an attempt starts and is counted (R201), a bad frame ends a lane's run, a good one is recorded, reports its lane synced after eight in a row and answers the partner's tap requests in Equalise (R200 to R202), a step's time limit fails the attempt, the idle time ends in a new attempt (R203), deskew, configuration, switch and data lock follow one another (R192, R201, R204), and this end's frames go out (R200). -/
def Obligations.TrainingCommandsComplete : Prop :=
  (∀ (s : State) (p : Port), s.dev.powered = true → s.dev.phyState p.val = 0 → (s.dev.phy p.val).idle = false → s.dev.mayTrain p.val = true →
    exec (.trainingStart p) s = .next (s.after (s.dev.attempt p.val)) ∧ (s.dev.attempt p.val).phyState p.val = 1) ∧
  (∀ (s : State) (p : Port) (l : Fin 8) (f : BitVec 256), s.dev.powered = true → 1 ≤ s.dev.phyState p.val → s.dev.phyState p.val ≤ 5 → l.val < lanesOf p.val → goodFrame f = none →
    exec (.trainingFrame p l f) s = .next (s.after (s.dev.setLaneT p.val l.val { s.dev.laneT p.val l.val with run := 0, sameRun := 0 }))) ∧
  (∀ (s : State) (p : Port) (l : Fin 8) (f g : BitVec 256) (inv : Bool), s.dev.powered = true → 4 ≤ s.dev.phyState p.val → s.dev.phyState p.val ≤ 5 → l.val < lanesOf p.val → goodFrame f = some (g, inv) →
    exec (.trainingFrame p l f) s = .next (s.after ((s.dev.setLaneT p.val l.val ((s.dev.laneT p.val l.val).take g inv s.dev.now)).sendFrames p.val))) ∧
  (∀ (s : State) (p : Port) (l : Fin 8) (f g : BitVec 256) (inv : Bool) (d e : Dev), s.dev.powered = true → s.dev.phyState p.val = 1 ∨ s.dev.phyState p.val = 2 → l.val < lanesOf p.val → goodFrame f = some (g, inv) →
    d = s.dev.setLaneT p.val l.val ((s.dev.laneT p.val l.val).take g inv s.dev.now) →
    e = d.whenD (8 ≤ (d.laneT p.val l.val).run) (fun d => (d.sb (F.crlLaneStatus_synced p.val l.val) true).sb (F.crlLaneStatus_inverted p.val l.val) inv) →
    exec (.trainingFrame p l f) s = .next (s.after ((e.whenD (s.dev.phyState p.val = 1 && e.syncDone p.val) (fun d => d.s (F.crlPhyStatus_state p.val) 2)).sendFrames p.val))) ∧
  (∀ (s : State) (p : Port) (l : Fin 8) (f g : BitVec 256) (inv : Bool) (d e : Dev), s.dev.powered = true → s.dev.phyState p.val = 3 → l.val < lanesOf p.val → goodFrame f = some (g, inv) →
    d = s.dev.setLaneT p.val l.val ((s.dev.laneT p.val l.val).take g inv s.dev.now) → e = (d.steer p.val (d.laneT p.val l.val).lane (frameFld g 55 54) (frameFld g 57 56)).adapt p.val l.val →
    exec (.trainingFrame p l f) s = .next (s.after ((e.whenD (e.equalised p.val) (fun d => d.s (F.crlPhyStatus_state p.val) 4)).sendFrames p.val))) ∧
  (∀ (s : State) (p : Port), s.dev.powered = true → (s.dev.phyState p.val = 1 ∨ s.dev.phyState p.val = 3 ∨ s.dev.phyState p.val = 6) →
    exec (.trainingStepTimeout p) s = .next (s.after (s.dev.trainFail p.val))) ∧
  (∀ (s : State) (p : Port), s.dev.powered = true → s.dev.phyState p.val = 0 → (s.dev.phy p.val).idle = true →
    exec (.trainingIdleEnd p) s = .next (s.after ((s.dev.setPhy p.val { s.dev.phy p.val with idle := false }).trainStart p.val))) ∧
  (∀ (s : State) (p : Port) (w : Nat), s.dev.powered = true → s.dev.phyState p.val = 2 → s.dev.mismatch p.val = false → s.dev.widthOf p.val = some w →
    exec (.deskewEnd p) s = .next (s.after (s.dev.deskewed p.val)) ∧ (s.dev.deskewed p.val).phyState p.val = 3) ∧
  (∀ (s : State) (p : Port), s.dev.powered = true → s.dev.phyState p.val = 2 → s.dev.mismatch p.val = false → s.dev.widthOf p.val = none →
    exec (.deskewEnd p) s = .next (s.after (s.dev.trainFail p.val))) ∧
  (∀ (s : State) (p : Port), s.dev.powered = true → s.dev.phyState p.val = 4 → s.dev.mismatch p.val = false → s.dev.configHeard p.val = true →
    exec (.trainingConfigEnd p) s = .next (s.after (s.dev.configured p.val)) ∧ (s.dev.configured p.val).phyState p.val = 5) ∧
  (∀ (s : State) (p : Port), s.dev.powered = true → s.dev.phyState p.val = 4 → s.dev.mismatch p.val = true ∨ s.dev.configHeard p.val = false →
    exec (.trainingConfigEnd p) s = .next (s.after (s.dev.trainFail p.val))) ∧
  (∀ (s : State) (p : Port), s.dev.powered = true → s.dev.phyState p.val = 5 →
    exec (.switchCountEnd p) s = .next (s.after
      (((s.dev.each (List.range (s.dev.phy p.val).width) (fun d k => d.laneCoding p.val k)).each (s.dev.trainedLanes p.val) (fun d l => d.laneDecoding p.val l)).s (F.crlPhyStatus_state p.val) 6))) ∧
  (∀ (s : State) (p : Port), s.dev.powered = true → s.dev.phyState p.val = 6 →
    exec (.dataLock p) s = .next (s.after ((s.dev.each (s.dev.trainedLanes p.val) (fun d l => d.sb (F.crlLaneStatus_locked p.val l) true)).phyUp p.val)))

/-- Lock, calibration and measurement of a port: a codeword or a block of a locked or a seeking lane is descrambled, counted where it does not decode, tracked and passed up (R197 to R199, R204, R208), a lane loses lock and finds it again, or too late (R205, R211), the lock-loss timer takes the link down, a manager's retrain and eye scan start (R208, R212, R218; that retrain stays set until Sync starts where no training runs is the model's reading, log entry 116), the calibration resistor is read for every port and its codes follow (R207), the corrected symbols of an interval are judged (R206). -/
def Obligations.LockAndMeasurementCommandsComplete : Prop :=
  (∀ (s : State) (p : Port) (l : Fin 8) (cw : List (BitVec 10)) (gap : Nat) (u : Dev × List Bool) (t : LaneL × Bool) (d : Dev), s.dev.powered = true → 6 ≤ s.dev.phyState p.val → s.dev.gb (F.crlPhyStatus_fec_on p.val) = true →
    l.val ∈ s.dev.trainedLanes p.val → rsRead cw = none → gap = 512 / max 1 (s.dev.phy p.val).width → u = s.dev.unscramble p.val l.val (codewordBits (cw.take 514)) → u.1.laneLocked p.val l.val = true →
    t = (u.1.laneL p.val l.val).keepCw gap false false → d = (u.1.bump (F.crlUncorrCw_count p.val l.val)).setLaneL p.val l.val t.1 →
    exec (.fecCodeword p l cw) s = .next (s.after ((d.whenD t.2 (fun d => d.laneLost p.val l.val)).lineUp p.val l.val gap t.1.since ⟨(cutEvery 10 514 u.2).1, true⟩))) ∧
  (∀ (s : State) (p : Port) (l : Fin 8) (cw : List (BitVec 10)) (m : List (BitVec 10)) (n : Nat) (k : Bool) (gap : Nat) (u : Dev × List Bool) (t : LaneL × Bool), s.dev.powered = true → 6 ≤ s.dev.phyState p.val → s.dev.gb (F.crlPhyStatus_fec_on p.val) = true →
    l.val ∈ s.dev.trainedLanes p.val → rsRead cw = some (m, n, k) → gap = 512 / max 1 (s.dev.phy p.val).width → u = s.dev.unscramble p.val l.val (codewordBits m) → u.1.laneLocked p.val l.val = false → t = (u.1.laneL p.val l.val).seek gap true k →
    exec (.fecCodeword p l cw) s = .next (s.after (((u.1.setLaneL p.val l.val t.1).whenD t.2 (fun d => d.laneFound p.val l.val false)).lineUp p.val l.val gap t.1.since ⟨(cutEvery 10 514 u.2).1, false⟩))) ∧
  (∀ (s : State) (p : Port) (l : Fin 8) (h : BitVec 2) (x : BitVec 64) (gap : Nat) (u : Dev × List Bool) (t : LaneL × Bool), s.dev.powered = true → 6 ≤ s.dev.phyState p.val → s.dev.gb (F.crlPhyStatus_fec_on p.val) = false →
    l.val ∈ s.dev.trainedLanes p.val → gap = 32 / max 1 (s.dev.phy p.val).width → u = s.dev.unscramble p.val l.val (bitsLE 64 x.toNat) → u.1.laneLocked p.val l.val = false → t = (u.1.laneL p.val l.val).seekHdr gap h.toNat →
    exec (.syncBlock p l h x) s = .next (s.after
      (((u.1.setLaneL p.val l.val t.1).whenD t.2 (fun d => d.laneFound p.val l.val false)).lineUp p.val l.val gap t.1.since ⟨[u.2], h.toNat = 0 || h.toNat = 3⟩))) ∧
  (∀ (s : State) (p : Port) (l : Fin 8), s.dev.powered = true → 6 ≤ s.dev.phyState p.val → s.dev.laneLocked p.val l.val = true →
    exec (.lockLoss p l) s = .next (s.after (s.dev.laneLost p.val l.val)) ∧ (s.dev.laneLost p.val l.val).gb (F.crlPhyStatus_lock p.val) = false) ∧
  (∀ (s : State) (p : Port) (l : Fin 8) (e : Bool) (d : Dev), s.dev.powered = true → s.dev.phyState p.val = 7 → l.val ∈ s.dev.trainedLanes p.val → s.dev.laneLocked p.val l.val = false →
    d = (s.dev.sb (F.crlLaneStatus_locked p.val l.val) true).bump (F.crlLockLoss_count p.val l.val) →
    (d.allLocked p.val = false → exec (.lockReturn p l e) s = .next (s.after d)) ∧
    (d.allLocked p.val = true → (e && (d.phy p.val).timer) = true → exec (.lockReturn p l e) s = .next (s.after ((d.phyDown p.val 1).trainStart p.val))) ∧
    (d.allLocked p.val = true → (e && (d.phy p.val).timer) = false →
      exec (.lockReturn p l e) s = .next (s.after (((d.sb (F.crlPhyStatus_lock p.val) true).setPhy p.val { d.phy p.val with timer := false }).bump (F.crlDownCnt_recovered p.val))))) ∧
  (∀ (s : State) (p : Port), s.dev.powered = true → s.dev.phyState p.val = 7 → (s.dev.phy p.val).timer = true →
    exec (.lockLossTimerExpiry p) s = .next (s.after ((s.dev.phyDown p.val 1).trainStart p.val))) ∧
  (∀ (s : State) (p : Port), s.dev.ready (R.crlPhyCfg p.val) = true → s.dev.rd (R.crlPhyCfg p.val) = 0#64 →
    exec (.retrain .pf p) s = .next (s.after
      (((s.dev.logged (mgrWrite (R.crlPhyCfg p.val) 2#32) 0 0#64 2#64).wr (R.crlPhyCfg p.val) (if 1 ≤ s.dev.phyState p.val ∧ s.dev.phyState p.val ≤ 6 then 0#64 else 2#64)).phyRetrain p.val 2))) ∧
  (∀ (s : State) (r : Nat) (c : PhyCal), s.dev.powered = true → c = s.dev.codes →
    exec (.phycalMeasurement r) s = .next (s.after
      { (s.dev.each (List.range 12) (fun d p => (d.s (F.crlPhycal_ohms p) r).sb (F.crlPhycal_out_of_range p) (phycalBad r))).srcCond 8 (phycalBad r) with
        codes := if phycalBad r then { c with termTo := c.term, swingTo := c.swing } else { c with termTo := Config.termCode r, swingTo := Config.swingCode r } })) ∧
  (∀ (s : State) (p : Port) (l : Fin 8), s.dev.ready (R.crlEyeCtl p.val) = true →
    exec (.eyeScan .pf p 15#8 (BitVec.ofNat 32 (256 + l.val))) s = .next (s.after (s.dev.wr (R.crlEyeCtl p.val) (BitVec.ofNat 64 (256 + l.val))))) ∧
  (∀ (s : State) (p : Port) (w h : BitVec 8), s.dev.powered = true → s.dev.gb (F.crlEyeCtl_go p.val) = true →
    exec (.eyeScanComplete p w h) s = .next (s.after
      ((((s.dev.sb (F.crlEyeCtl_go p.val) false).s (F.crlEyeResult_width p.val) w.toNat).s (F.crlEyeResult_height p.val) h.toNat).sb (F.crlEyeResult_valid p.val) true))) ∧
  (∀ (s : State) (p : Port), s.dev.powered = true → s.dev.g (F.crlErrThresh_count p.val) < (s.dev.phy p.val).corr →
    exec (.correctedSymbolInterval p) s = .next (s.after ((s.dev.setPhy p.val { s.dev.phy p.val with corr := 0 }).raise (96 + 4 * p.val))))

/-! ### The link layer (07) -/

/-- The sending side of a link answers each flit slot by its state: an Init while the exchange runs, a Null before the link is Open, the replay under way, else the next VC's data (R222, R230, R241); its timers replay, retrain, drop the session, report a stall and judge the replays of a second (R233, R241, R244, R247). -/
def Obligations.LinkSendCommandsComplete : Prop :=
  (∀ (s : State) (p : Port) (ok bad : Bool) (x : InitX), s.dev.powered = true → s.dev.phyState p.val = 7 → (s.dev.lnk p.val).init = some x → s.dev.portOpen p.val = false →
    exec (.flitSlot p ok bad) s = .next (s.after (s.dev.sendInit p.val x))) ∧
  (∀ (s : State) (p : Port) (ok bad : Bool), s.dev.powered = true → s.dev.phyState p.val = 7 → (s.dev.lnk p.val).init = none → s.dev.portOpen p.val = false →
    exec (.flitSlot p ok bad) s = .next (s.after (s.dev.sendNull p.val))) ∧
  (∀ (s : State) (p : Port) (ok bad : Bool) (q : Nat) (t : List Nat), s.dev.powered = true → s.dev.phyState p.val = 7 → (s.dev.lnk p.val).init = none → s.dev.portOpen p.val = true → (s.dev.lnk p.val).replay = q :: t →
    (bad = false ∨ (s.dev.lnk p.val).far.any (fun e => e.seq = q) = false) →
    exec (.flitSlot p ok bad) s = .next (s.after (s.dev.sendReplay p.val q t))) ∧
  (∀ (s : State) (p : Port) (ok : Bool) (q : Nat) (t : List Nat), s.dev.powered = true → s.dev.phyState p.val = 7 → s.dev.portOpen p.val = true → (s.dev.lnk p.val).replay = q :: t → (s.dev.lnk p.val).far.any (fun e => e.seq = q) = true →
    exec (.flitSlot p ok true) s = .next (s.after (s.dev.ueMet (s.dev.farAddr p.val q) true))) ∧
  (∀ (s : State) (p : Port) (ok bad : Bool) (v : Nat) (d : Dev), s.dev.powered = true → s.dev.phyState p.val = 7 → (s.dev.lnk p.val).init = none → s.dev.portOpen p.val = true → (s.dev.lnk p.val).replay = [] →
    s.dev.spillStuck p.val ok = false → d = s.dev.setLnk p.val { s.dev.lnk p.val with stuck := false } → d.uCount p.val < d.limitL → d.spillStuck p.val ok = false → d.nextTxVc p.val = some v →
    exec (.flitSlot p ok bad) s = .next (s.after (d.sendData p.val v))) ∧
  (∀ (s : State) (p : Port), s.dev.powered = true → 2 ≤ s.dev.linkState p.val → s.dev.uCount p.val ≠ 0 →
    exec (.replayTimeout p) s = .next (s.after (s.dev.startReplay p.val))) ∧
  (∀ (s : State) (p : Port) (x : InitX), s.dev.powered = true → (s.dev.lnk p.val).init = some x → exec (.initTimeout p) s = .next (s.after (s.dev.linkRetrain p.val 2))) ∧
  (∀ (s : State) (p : Port), s.dev.powered = true → s.dev.gb (F.crlLinkStatus_held p.val) = true → s.dev.linkState p.val < 2 → p.val < 8 →
    exec (.sessionLapse p) s = .next (s.after (let e := (s.dev.discardSession p.val).sb (F.crlLinkStatus_held p.val) false; e.setLnk p.val { e.lnk p.val with init := (e.lnk p.val).init.map (fun x => { x with ok := false }) }))) ∧
  (∀ (s : State) (p : Port), s.dev.powered = true → (s.dev.lnk p.val).txq.any (fun e => !e.2.isEmpty) = true → s.dev.takesFlits p.val = false →
    exec (.sendStall p) s = .next (s.after (s.dev.raise (145 + 4 * p.val)))) ∧
  (∀ (s : State) (p : Port), s.dev.powered = true → s.dev.g (F.crlReplayThresh_count p.val) < (s.dev.lnk p.val).replays →
    exec (.replayRateInterval p) s = .next (s.after ((s.dev.setLnk p.val { s.dev.lnk p.val with replays := 0 }).raise (144 + 4 * p.val))))

/-- The receiving side of a link takes what arrives in sequence: the expected Data flit uses its credit and frames its packet (R225, R227, R236), a Null flit of the expected number only carries its header (R227), an Init is taken into the exchange (R241), an undefined type is counted and raises its source (R248), a bad flit starts the NAK state (R227), a whole packet is delivered to the switch and its credit granted (R225, R238), and a landed flit that reads with an error acts on the port instead (R179, R256). -/
def Obligations.LinkReceiveCommandsComplete : Prop :=
  (∀ (s : State) (p : Port) (f : Flit), s.dev.powered = true → (s.dev.takeUp p.val).receives p.val = true → 2 ≤ (s.dev.takeUp p.val).linkState p.val →
    f.seq.toNat = ((s.dev.takeUp p.val).takeHeader p.val f).rxE p.val → ((s.dev.takeUp p.val).takeHeader p.val f).creditOut p.val f = true → f.len.toNat < 240 →
    exec (.dataFlit p f) s = .next (s.after (((((s.dev.takeUp p.val).takeHeader p.val f).acceptSeq p.val).useCredit p.val f).frameData p.val f))) ∧
  (∀ (s : State) (p : Port) (f : Flit), s.dev.powered = true → (s.dev.takeUp p.val).receives p.val = true → 2 ≤ (s.dev.takeUp p.val).linkState p.val → f.seq.toNat = ((s.dev.takeUp p.val).takeHeader p.val f).rxE p.val →
    exec (.nullFlit p f) s = .next (s.after ((s.dev.takeUp p.val).takeHeader p.val f))) ∧
  (∀ (s : State) (p : Port) (f : Flit) (x : InitX), s.dev.powered = true → (s.dev.takeUp p.val).receives p.val = true → (s.dev.takeUp p.val).linkState p.val < 2 → ((s.dev.takeUp p.val).lnk p.val).init = some x → p.val ≠ 7 →
    exec (.initFlit p f) s = .next (s.after ((s.dev.takeUp p.val).initTake p.val f x))) ∧
  (∀ (s : State) (p : Port) (f : Flit), s.dev.powered = true → (s.dev.takeUp p.val).receives p.val = true → 2 ≤ (s.dev.takeUp p.val).linkState p.val → f.seq.toNat = ((s.dev.takeUp p.val).takeHeader p.val f).rxE p.val →
    exec (.undefinedFlit p f) s = .next (s.after (((((s.dev.takeUp p.val).takeHeader p.val f).acceptSeq p.val).cnt p.val 5).raise (147 + 4 * p.val)))) ∧
  (∀ (s : State) (p : Port), s.dev.powered = true → (s.dev.takeUp p.val).receives p.val = true → exec (.badFlit p) s = .next (s.after (((s.dev.takeUp p.val).cnt p.val 3).enterNak p.val))) ∧
  (∀ (s : State) (p : Port) (v : Fin 8) (bad : Bool) (f : RxFlit) (q : List RxFlit), s.dev.powered = true → s.dev.admissionFull p.val v.val = false →
    (s.dev.lnk p.val).rxBuf.lk [] v.val = f :: q → f.abort = false → f.sop = true → f.eop = true → f.shared = false →
    exec (.receiveDelivery p v bad) s = .next (s.after
      ((s.dev.setLnk p.val { s.dev.lnk p.val with
        rxBuf := (s.dev.lnk p.val).rxBuf.put [] v.val q, rxOpen := (s.dev.lnk p.val).rxOpen.del v.val, done := (s.dev.lnk p.val).done ++ [(v.val, f.data)] }).grantOne p.val v.val false))) ∧
  (∀ (s : State) (p : Port) (v : Fin 8) (f : RxFlit), s.dev.powered = true → s.dev.admissionFull p.val v.val = false → s.dev.nextFlit p.val v.val = some f → f.shared = true →
    exec (.receiveDelivery p v true) s = .next (s.after (s.dev.ueMet (landAddr p.val f.slot) true)))

/-! ### Discovery and routing (08) -/

/-- Messages between neighbours have their effect: a well-formed Hello within its rate is taken (R263, R268), an LSA answers its Requests and enters the database (R270, R273), an acknowledgement clears what it names (R273), a Summary asks for what this node wants (R269), a Request is answered with the LSAs held, each kept until its acknowledgement (R273); Hellos, Requests and LSAs are sent again in their time, a dead neighbour goes down (R267, R268); until step 13 at most one Hello leaves in a millisecond (R139). -/
def Obligations.NeighbourCommandsComplete : Prop :=
  (∀ (s : State) (p : FPort) (h : Hello) (d : Dev), d = s.dev.consumeRaw p.val (helloBytes h) → s.dev.powered = true → d.portOpen p.val = true → d.netOn = true → hdrOk h.hdr 1 40 = true → (d.helloCap p.val).2 = true →
    exec (.hello p h) s = .next (s.after ((d.helloCap p.val).1.helloIn p.val h))) ∧
  (∀ (s : State) (p : FPort), s.dev.powered = true → (s.dev.complete = true ∨ (s.dev.nbr p.val).helloTx ≠ s.dev.now / 1000 + 1) →
    exec (.helloInterval p) s = .next (s.after ((s.dev.netSend p.val (helloBytes (s.dev.ownHello p.val))).setNbr p.val { s.dev.nbr p.val with helloTx := s.dev.now / 1000 + 1 }))) ∧
  (∀ (s : State) (p : FPort), s.dev.powered = true → s.dev.nbrState p.val ≠ 0 → exec (.neighbourDead p) s = .next (s.after ((s.dev.leaveNbr p.val 0).sb (F.netNbr_loop p.val) false))) ∧
  (∀ (s : State) (p : FPort) (h : NetHdr) (l : Lsa) (d : Dev), d = s.dev.consumeRaw p.val (lsaBytes h l) → s.dev.powered = true → d.portOpen p.val = true → d.netOn = true →
    hdrOk h 2 (32 + 16 * l.links.length) = true → l.links.length ≤ 8 → l.serial ≠ d.serial →
    exec (.lsa p h l) s = .next (s.after (((d.setNbr p.val { d.nbr p.val with reqs := (d.nbr p.val).reqs.filter (fun k => !answersReq l k) }).otherLsa p.val l).tryFull p.val))) ∧
  (∀ (s : State) (p : FPort) (h : NetHdr) (k : LsaKey) (l : Lsa) (d : Dev), d = s.dev.consumeRaw p.val (keysBytes h false [k]) → s.dev.powered = true → d.portOpen p.val = true → d.netOn = true →
    hdrOk h 3 32 = true → d.net.lsdb.find? k.serial.toNat = some l → lsaKey l = k →
    exec (.networkAck p h [k]) s = .next (s.after (d.setNbr p.val { d.nbr p.val with unacked := (d.nbr p.val).unacked.filter (fun x => decide (x ≠ k.serial)) }))) ∧
  (∀ (s : State) (p : FPort) (h : NetHdr) (last : Bool) (ks : List LsaKey) (d : Dev), d = s.dev.consumeRaw p.val (keysBytes h last ks) → s.dev.powered = true → d.portOpen p.val = true → d.netOn = true →
    hdrOk h 4 (8 + 24 * ks.length) = true → ks.length ≤ 172 → d.nbrState p.val ≠ 0 → ks.filter d.wants = [] →
    exec (.summary p h last ks) s = .next (s.after ((d.setNbr p.val { d.nbr p.val with lastIn := (d.nbr p.val).lastIn || last, reqs := (d.nbr p.val).reqs ++ [] }).tryFull p.val))) ∧
  (∀ (s : State) (p : FPort) (h : NetHdr) (k : LsaKey) (l : Lsa) (d : Dev), d = s.dev.consumeRaw p.val (keysBytes h false [k]) → s.dev.powered = true → d.portOpen p.val = true → d.netOn = true →
    hdrOk h 5 32 = true → d.net.lsdb.find? k.serial.toNat = some l →
    exec (.networkRequest p h [k]) s = .next (s.after ((d.sendLsa p.val l).setNbr p.val
      { d.nbr p.val with unacked := if (d.nbr p.val).unacked.contains l.serial then (d.nbr p.val).unacked else (d.nbr p.val).unacked ++ [l.serial] }))) ∧
  (∀ (s : State) (p : FPort), s.dev.powered = true → (s.dev.nbr p.val).reqs ≠ [] → s.dev.portOpen p.val = true →
    exec (.requestResend p) s = .next (s.after (s.dev.sendKeys p.val 5 false (s.dev.nbr p.val).reqs))) ∧
  (∀ (s : State) (p : FPort) (x : Serial) (l : Lsa), s.dev.powered = true → s.dev.nbrState p.val = 4 → (s.dev.nbr p.val).unacked = [x] → s.dev.net.lsdb.find? x.toNat = some l →
    exec (.lsaResend p) s = .next (s.after (s.dev.sendLsa p.val l)))

/-- Origination, routing and convergence: an own LSA is originated once the claim is checked (R271), an unreached originator's LSA is deleted (R273), a run computes from the database and its result is installed whole (R278, R280), damping ends with its record (R291), a settled fabric is converged (R289). -/
def Obligations.RoutingCommandsComplete : Prop :=
  (∀ s : State, s.dev.powered = true → s.dev.net.checked = true → s.dev.netOn = true → exec .lsaOrigination s = .next (s.after s.dev.originate)) ∧
  (∀ (s : State) (x : Serial) (l : Lsa), s.dev.powered = true → x ≠ s.dev.serial → s.dev.net.tbl.reach.contains x.toNat = false → s.dev.net.lsdb.find? x.toNat = some l →
    exec (.lsaDeletion x) s = .next (s.after ({ s.dev with net := { s.dev.net with lsdb := s.dev.net.lsdb.del x.toNat, incs := s.dev.net.incs.del x.toNat, kept := s.dev.net.kept.erase x.toNat } }).dbChanged)) ∧
  (∀ s : State, s.dev.powered = true → s.dev.net.dirty = true → s.dev.net.run = none → s.dev.netOn = true →
    exec .routeRun s = .next (s.after (({ s.dev with net := { s.dev.net with run := some (routesOf s.dev.serial s.dev.addr s.dev.net.lsdb), dirty := false } }).bump F.netCntRuns_count))) ∧
  (∀ (s : State) (r : Routes) (d : Dev), s.dev.powered = true → s.dev.net.run = some r → s.dev.net.tbl.reach.all (fun x => r.reach.contains x) = true →
    d = ((s.dev.s F.netRoot_root r.root).s F.netRoot_level r.level).sb F.netStatus_root_self (decide (r.root = s.dev.addr.toNat) && decide (s.dev.g F.netStatus_claim = 2)) →
    (({ d with net := { d.net with tbl := r, shown := true, run := none } } : Dev).snapWrite.licPulse 548).settledNet = false →
    exec .routeInstall s = .next (s.after (({ d with net := { d.net with tbl := r, shown := true, run := none } } : Dev).snapWrite.licPulse 548))) ∧
  (∀ (s : State) (p : FPort), s.dev.powered = true → s.dev.gb (F.netNbr_damped p.val) = true →
    exec (.dampingEnd p) s = .next (s.after (((s.dev.sb (F.netNbr_damped p.val) false).netEv s.dev.addr.toNat 4 p.val).lsaDue))) ∧
  (∀ (s : State) (p : FPort), s.dev.powered = true → exec (.dampingCountReset p) s = .next (s.after (s.dev.s (F.netNbrCost_downs p.val) 0))) ∧
  (∀ s : State, s.dev.powered = true → s.dev.netOn = true → 11 ≤ s.dev.pitStep → s.dev.net.checked = true → s.dev.settledNet = true → (s.dev.sb F.netStatus_converged true).g F.netStatus_claim = 2 →
    exec .convergence s = .next (s.after (let d := s.dev.sb F.netStatus_converged true; { d with net := { d.net with yields := 0 } })))

/-! ### Transport (09) -/

/-- The six memory requests complete (R304, R387, R388): one that is served and lies in an inbound window goes to host memory as a write or a non-posted operation of the host port, one outside every window goes to the local design on the instance's port; the lane then gives up what was parked behind it (R313). -/
def Obligations.MemoryRequestsComplete : Prop :=
  (∀ (s : State) (via : Via) (vc : BitVec 3) (k : Pkt) (op : BitVec 8) (c : Instr) (x : Nat × List W64),
    (c, op) ∈ [(Instr.wrp via vc k, 2#8), (Instr.wra via vc k, 3#8)] →
    s.dev.serves via vc.toNat { k with opcode := op } = true → (s.dev.taken via { k with opcode := op }).winLookup k.di 2 k.addr.toNat = some x →
    (s.dev.taken via { k with opcode := op }).inboundOk { k with opcode := op } x.2 = true →
    exec c s = .next (s.after ((((s.dev.taken via { k with opcode := op }).inboundAt { k with opcode := op } x.2).hostWr via { k with opcode := op } (hostAddr k x.2)).drainLane 33 { k with opcode := op }.lane))) ∧
  (∀ (s : State) (via : Via) (vc : BitVec 3) (k : Pkt) (op : BitVec 8) (c : Instr) (x : Nat × List W64),
    (c, op) ∈ [(Instr.rd via vc k, 1#8), (Instr.fadd via vc k, 4#8), (Instr.swap via vc k, 5#8), (Instr.cas via vc k, 6#8)] →
    s.dev.serves via vc.toNat { k with opcode := op } = true → (s.dev.taken via { k with opcode := op }).winLookup k.di 2 k.addr.toNat = some x →
    (s.dev.taken via { k with opcode := op }).inboundOk { k with opcode := op } x.2 = true →
    exec c s = .next (s.after ((((s.dev.taken via { k with opcode := op }).inboundAt { k with opcode := op } x.2).hostNp via { k with opcode := op } (hostAddr k x.2)).drainLane 33 { k with opcode := op }.lane))) ∧
  (∀ (s : State) (via : Via) (vc : BitVec 3) (k : Pkt) (op : BitVec 8) (c : Instr) (p : Nat),
    (c, op) ∈ [(Instr.rd via vc k, 1#8), (Instr.wrp via vc k, 2#8), (Instr.wra via vc k, 3#8), (Instr.fadd via vc k, 4#8), (Instr.swap via vc k, 5#8), (Instr.cas via vc k, 6#8)] →
    s.dev.serves via vc.toNat { k with opcode := op } = true → (s.dev.taken via { k with opcode := op }).winLookup k.di 2 k.addr.toNat = none →
    (s.dev.taken via { k with opcode := op }).localOk { k with opcode := op } p = true →
    exec c s = .next (s.after (((s.dev.taken via { k with opcode := op }).deliverNow p via { k with opcode := op }).drainLane 33 { k with opcode := op }.lane)))

/-- MSG, MSGA, FENCE and PROBE complete (R305, R311, R429, R430): a message enters the ring of its instance and an acknowledged one is answered, a fence waits for the requests of its scope, a probe is answered at once with the node's incarnation, generation, state and serial; a request with an opcode nobody defined is answered or counted by the class of its channel (R326). -/
def Obligations.MessageFenceAndProbeComplete : Prop :=
  (∀ (s : State) (via : Via) (vc : BitVec 3) (k : Pkt), s.dev.serves via vc.toNat { k with opcode := 7#8 } = true →
    (s.dev.taken via { k with opcode := 7#8 }).blockClosing 0x40 = false → bitOf ((s.dev.taken via { k with opcode := 7#8 }).ig k.di 3 1) 0 = true →
    exec (.msg via vc k) s = .next (s.after (((s.dev.taken via { k with opcode := 7#8 }).msgRing { k with opcode := 7#8 }).drainLane 33 { k with opcode := 7#8 }.lane))) ∧
  (∀ (s : State) (via : Via) (vc : BitVec 3) (k : Pkt), s.dev.serves via vc.toNat { k with opcode := 8#8 } = true →
    (s.dev.taken via { k with opcode := 8#8 }).blockClosing 0x40 = false → bitOf ((s.dev.taken via { k with opcode := 8#8 }).ig k.di 3 1) 0 = true →
    exec (.msga via vc k) s = .next (s.after ((((s.dev.taken via { k with opcode := 8#8 }).msgRing { k with opcode := 8#8 }).answer { k with opcode := 8#8 } 0 0).drainLane 33 { k with opcode := 8#8 }.lane))) ∧
  (∀ (s : State) (via : Via) (vc : BitVec 3) (k : Pkt), s.dev.serves via vc.toNat { k with opcode := 9#8 } = true →
    exec (.fence via vc k) s = .next (s.after
      (({ s.dev.taken via { k with opcode := 9#8 } with trn := { (s.dev.taken via { k with opcode := 9#8 }).trn with
          fences := (s.dev.taken via { k with opcode := 9#8 }).trn.fences ++ [⟨{ k with opcode := 9#8 }, via, .sourceLane⟩] } } : Dev).drainLane 33 { k with opcode := 9#8 }.lane))) ∧
  (∀ (s : State) (via : Via) (vc : BitVec 3) (k : Pkt) (d : Dev), s.dev.admits via vc.toNat { k with opcode := 0xA#8 } = true →
    vcClass vc.toNat = .nonPosted → malformed { k with opcode := 0xA#8 } = false → reservedEnc k = false →
    d = (s.dev.consume via { k with opcode := 0xA#8 }).touch (sliceDomain k.di) (sliceDomain k.di) →
    exec (.probe via vc k) s = .next (s.after (d.respond { k with opcode := 0xA#8 } 1 0 (d.probeBytes k.di) 0 (d.sliceGen k.di)))) ∧
  (∀ (s : State) (via : Via) (vc : BitVec 3) (k : Pkt), s.dev.inLane via vc.toNat k = true → opClass k.opcode = none → vcClass vc.toNat = .nonPosted →
    exec (.undefinedOpcode via vc k) s = .next (s.after (((s.dev.taken via k).answer k 4 0).drainLane 33 k.lane))) ∧
  (∀ (s : State) (via : Via) (vc : BitVec 3) (k : Pkt), s.dev.inLane via vc.toNat k = true → opClass k.opcode = none → vcClass vc.toNat = .posted →
    exec (.undefinedOpcode via vc k) s = .next (s.after ((((s.dev.taken via k).bump F.trnCntUndefPosted_count).raise 200).drainLane 33 k.lane)))

/-- The hold requests complete (R322, R323): an acquire of a free or an own hold sets the entry to the requester with its lease and answers CPL, a release or a renewal by the owner frees or renews it, a query answers the 24 bytes of the entry; an HDROP of the owner breaks the hold (R324), and so does the end of its lease (R330). -/
def Obligations.HoldRequestsComplete : Prop :=
  (∀ (s : State) (via : Via) (vc : BitVec 3) (k q : Pkt) (d : Dev), q = { k with opcode := 0x10#8 } → d = (s.dev.taken via q).tickHold k.di k.addr →
    s.dev.serves via vc.toNat q = true → isTwinHold q = false → d.holdAt k.di k.addr = none → d.noHoldRoom q = false →
    exec (.hacq via vc k) s = .next (s.after (((d.setHold (d.ownEntry q)).answer q 0 0).drainLane 33 q.lane))) ∧
  (∀ (s : State) (via : Via) (vc : BitVec 3) (k q : Pkt) (d : Dev) (e : HoldEnt), q = { k with opcode := 0x10#8 } → d = (s.dev.taken via q).tickHold k.di k.addr →
    s.dev.serves via vc.toNat q = true → isTwinHold q = false → d.holdAt k.di k.addr = some e → (e.held = false ∨ e.ownedBy q = true) →
    exec (.hacq via vc k) s = .next (s.after (((d.setHold (d.ownEntry q)).answer q 0 (if e.held then 2 else 1)).drainLane 33 q.lane))) ∧
  (∀ (s : State) (via : Via) (vc : BitVec 3) (k q : Pkt) (d : Dev) (e : HoldEnt), q = { k with opcode := 0x11#8 } → d = (s.dev.taken via q).tickHold k.di k.addr →
    s.dev.serves via vc.toNat q = true → isTwinHold q = false → d.holdAt k.di k.addr = some e → e.held = true → e.ownedBy q = true →
    exec (.hrel via vc k) s = .next (s.after (((d.dropHold k.di k.addr).answer q 0 0).drainLane 33 q.lane))) ∧
  (∀ (s : State) (via : Via) (vc : BitVec 3) (k q : Pkt) (d : Dev) (e : HoldEnt), q = { k with opcode := 0x12#8 } → d = (s.dev.taken via q).tickHold k.di k.addr →
    s.dev.serves via vc.toNat q = true → isTwinHold q = false → d.holdAt k.di k.addr = some e → e.held = true → e.ownedBy q = true →
    exec (.hrenew via vc k) s = .next (s.after (((d.setHold (d.ownEntry q)).answer q 0 0).drainLane 33 q.lane))) ∧
  (∀ (s : State) (via : Via) (vc : BitVec 3) (k q : Pkt) (d : Dev), q = { k with opcode := 0x13#8 } → d = (s.dev.taken via q).tickHold k.di k.addr →
    s.dev.serves via vc.toNat q = true → isTwinHold q = false →
    exec (.hquery via vc k) s = .next (s.after ((d.respond q 1 0 (hqueryBytes d.tallyMs (d.holdAt k.di k.addr)) 0 (d.endGen q)).drainLane 33 q.lane))) ∧
  (∀ (s : State) (via : Via) (vc : BitVec 3) (k q : Pkt) (d : Dev) (e : HoldEnt), q = { k with opcode := 0x14#8 } → d = (s.dev.consume via q).touch (sliceDomain k.di) (sliceDomain k.di) →
    s.dev.admits via vc.toNat q = true → vcClass vc.toNat = .posted → malformed q = false → reservedEnc q = false → (d.ins.flr.find? k.di).isSome = false → d.istate k.di ≠ 0 → d.istate k.di ≠ 3 →
    d.holdAt k.di k.addr = some e → e.held = true → e.node = k.src.toNat → e.ownedBy q = true →
    exec (.hdrop via vc k) s = .next (s.after (d.breakHold e))) ∧
  (∀ (s : State) (i : InstNo) (a : BitVec 64) (e : HoldEnt), s.dev.powered = true → s.dev.holdAt i.toNat a = some e → e.held = true → e.lease ≤ s.dev.tallyMs →
    exec (.holdExpiry i a) s = .next (s.after (s.dev.expireHold e)))

/-- A request that the local design sends on its port is the same request as LOCAL_REQUEST with its opcode, whichever row names it; in the order of its admission stream and admitted it is submitted (R398, R409); a stalled stream skips to its lowest parked request (R399). -/
def Obligations.LocalDesignRequestsComplete : Prop :=
  (∀ (s : State) (p : LPort) (vc : BitVec 3) (k : Pkt) (op : BitVec 8) (c : Instr), 1 ≤ vc.toNat → vc.toNat ≤ 6 →
    (c, op) ∈ [(Instr.rd (.loc p) vc k, 1#8), (.wrp (.loc p) vc k, 2#8), (.wra (.loc p) vc k, 3#8), (.fadd (.loc p) vc k, 4#8), (.swap (.loc p) vc k, 5#8),
      (.cas (.loc p) vc k, 6#8), (.msg (.loc p) vc k, 7#8), (.msga (.loc p) vc k, 8#8), (.fence (.loc p) vc k, 9#8), (.probe (.loc p) vc k, 0xA#8),
      (.hacq (.loc p) vc k, 0x10#8), (.hrel (.loc p) vc k, 0x11#8), (.hrenew (.loc p) vc k, 0x12#8), (.hquery (.loc p) vc k, 0x13#8), (.hdrop (.loc p) vc k, 0x14#8)] →
    exec c s = exec (.localRequest p vc { k with opcode := op }) s) ∧
  (∀ (s : State) (p : LPort) (vc : BitVec 3) (k : Pkt) (d : Dev), d = s.dev.consume (.loc p) k → s.dev.viaHere (.loc p) k = true → d.draining = false → k.opcode ≠ 0x14#8 →
    opClass k.opcode = some (vcClass vc.toNat) → malformed k = false → reservedEnc k = false → d.localSpoof p.val k = none → (vcClass vc.toNat = .nonPosted → d.localTagBusy p.val k.tag = false) →
    k.laneOpen = false → d.admitAt (admitKey p.val k) = some k.sseq.toNat →
    exec (.localRequest p vc k) s = .next (s.after (((d.setAdmit (admitKey p.val k) (k.sseq.toNat + 1)).localSubmit p.val k).drainAdmit 17 p.val (admitKey p.val k)))) ∧
  (∀ (s : State) (p : LPort) (i : InstNo) (dst : Addr) (key : BitVec 32) (x e : Nat) (q : Parked), x = streamKey p.val dst.toNat i.toNat key.toNat → s.dev.powered = true → s.dev.admitAt x = some e →
    s.dev.trn.lpark.filter (fun q => q.key = x) = [q] →
    exec (.localGapSkip p i dst key) s = .next (s.after
      ((((s.dev.bump (F.winLpOrder_order_break p.val)).raise 221).setAdmit x (e + (q.pkt.sseq.toNat + 65536 - e) % 65536)).drainAdmit 17 p.val x)))

/-- Responses and forwarded packets complete: a response that matches its tag frees it and ends its request with the response's code (R318, R320), the local design's answer frees its local tag and goes back to the requester (R396), a packet for another node goes out on the port its route gives with its TTL less one (R284, R285), a packet whose port lacks credit moves to the escape network (R288). -/
def Obligations.ResponsesAndForwardingComplete : Prop :=
  (∀ (s : State) (via : Via) (vc : BitVec 3) (k r : Pkt) (d : Dev) (f : FTag), vcClass vc.toNat = .response → r = { k with opcode := 0x80#8 } → d = s.dev.consume via r → s.dev.viaHere via r = true → (∀ p, via ≠ .loc p) →
    d.isSelf k.dst = true → d.sto.quar.find? k.tag.toNat = none → d.trn.tags.find? k.tag.toNat = some f → f.pkt.tagUse = k.tagUse →
    rspLegal k.code.toNat k.detail.toNat = true → k.code ≠ 2#8 →
    exec (.rsp via vc k) s = .next (s.after (((d.freeFabricTag k.tag.toNat).finishWho f.who f.pkt r).pump)) ∧ (d.freeFabricTag k.tag.toNat).trn.tags = d.trn.tags.del k.tag.toNat) ∧
  (∀ (s : State) (p : LPort) (vc : BitVec 3) (k r : Pkt) (d : Dev) (l : LTag), vcClass vc.toNat = .response → r = { k with opcode := 0x80#8 } → d = s.dev.consume (.loc p) r → s.dev.viaHere (.loc p) r = true → k.tag.toNat < 4096 →
    d.sto.quar.find? (131072 + (p.val * 4096 + k.tag.toNat)) = none → d.trn.ltags.find? (p.val * 4096 + k.tag.toNat) = some l → l.deliver = true → k.tagUse = d.trn.luse.lk 0#8 (p.val * 4096 + k.tag.toNat) →
    r.si = l.pkt.di → localCode k.code.toNat k.detail.toNat = true → l.gen = d.generation (8 + p.val) →
    exec (.rsp (.loc p) vc k) s = .next (s.after
      ((((d.freeLocalTag (p.val * 4096 + k.tag.toNat)).respond l.pkt k.code.toNat k.detail.toNat (if k.code = 1#8 ∨ k.code = 6#8 then k.data else []) k.retryAfter.toNat l.gen).pumpLocal).pump))) ∧
  (∀ (s : State) (via : Via) (vc : BitVec 3) (k : Pkt) (d : Dev) (p : Nat), d = s.dev.consume via k → s.dev.viaHere via k = true → s.dev.isSelf k.dst = false → d.isSelf k.dst = false →
    (vcClass vc.toNat ≠ .response → d.joined = true ∧ d.draining = false) →
    d.noTransport = false → k.ttl ≠ 0#8 → k.esc = false → d.normalHop k.dst k.flow = some p →
    exec (.packetForward via vc k) s = .next (s.after (d.enqueue p (transitGroup via) ⟨.tp { k with ttl := k.ttl - 1 }, (vcClass (if vcClass vc.toNat = .response then 2 else vc.toNat)).vc, pktSize k⟩))) ∧
  (∀ (s : State) (p : FPort) (vc : BitVec 3) (q : QEnt) (k : Pkt), s.dev.powered = true → (s.dev.ded p.val vc.toNat + s.dev.sharedCr p.val = 0 ∨ s.dev.portOpen p.val = false) →
    (s.dev.egress p.val).rsp.find? (fun q => (escapable vc.toNat q).isSome) = some q → escapable vc.toNat q = some k →
    exec (.escapeMove p vc) s = .next (s.after ((s.dev.setEgress p.val { s.dev.egress p.val with rsp := (s.dev.egress p.val).rsp.erase q }).toEscape k.si vc.toNat k)))

/-- The timers and freed resources of transport have their effect: what waits is tried again (R36), a stalled lane skips to its lowest parked packet (R313), a lane or stream entry is freed (R312, R395), a request answered BUSY is sent again with its retry flag (R308), an overdue request ends with GONE 2 (R316, R317). -/
def Obligations.TransportTimersComplete : Prop :=
  (∀ s : State, s.dev.powered = true → exec (.tagAdmission .fabricTag) s = .next (s.after s.dev.pump) ∧ exec (.tagAdmission .sourceLane) s = .next (s.after s.dev.pump) ∧
    exec (.tagAdmission .hostTag) s = .next (s.after s.dev.pumpHost) ∧
    ∀ p, exec (.tagAdmission (.localTag p)) s = .next (s.after (s.dev.pumpLocal).pump) ∧ exec (.tagAdmission (.deliveryStream p)) s = .next (s.after (s.dev.pumpLocal).pump)) ∧
  (∀ (s : State) (n : Addr) (f : BitVec 16) (e : Nat) (q : Parked), s.dev.powered = true → s.dev.laneExp (n.toNat * 65536 + f.toNat) = some e →
    s.dev.trn.park.filter (fun q => q.key = n.toNat * 65536 + f.toNat) = [q] →
    exec (.gapSkip n f) s = .next (s.after
      ((((s.dev.bump F.trnCntGapSkip_count).raise 204).setLane (n.toNat * 65536 + f.toNat) (e + (q.pkt.sseq.toNat + 65536 - e) % 65536)).drainLane 33 (n.toNat * 65536 + f.toNat)))) ∧
  (∀ (s : State) (n : Addr) (f : BitVec 16), s.dev.powered = true →
    exec (.sourceLaneFree n f) s = .next (s.after (({ s.dev with trn := { s.dev.trn with srcLanes := s.dev.trn.srcLanes.del (n.toNat * 65536 + f.toNat) } } : Dev).pump))) ∧
  (∀ (s : State) (p : LPort) (src : Addr) (i : InstNo) (key : BitVec 32), s.dev.powered = true →
    exec (.deliveryStreamFree p src i key) s = .next (s.after (({ s.dev with trn := { s.dev.trn with deliv := s.dev.trn.deliv.del (streamKey p.val src.toNat i.toNat key.toNat) } } : Dev).pumpLocal))) ∧
  (∀ (s : State) (t : BitVec 16) (f : FTag) (k : Pkt) (d : Dev), s.dev.powered = true → s.dev.trn.tags.find? t.toNat = some f → f.busyWait = true → s.dev.laneReady f.pkt = true →
    k = { f.pkt with flags := BitVec.ofNat 8 (setBit f.pkt.flags.toNat 2 true) } →
    d = ({ s.dev with trn := { s.dev.trn with tags := s.dev.trn.tags.ins t.toNat ⟨k, f.who, false⟩ } } : Dev).bump F.trnCntBusyRetry_count → d.hasRoute k = true →
    exec (.busyRetry t) s = .next (s.after (((d.laneNumber k).2.sendPkt (d.laneNumber k).1).pump))) ∧
  (∀ (s : State) (t : BitVec 16) (f : FTag), s.dev.powered = true → s.dev.trn.tags.find? t.toNat = some f →
    exec (.endToEndTimeout t) s = .next (s.after ((((s.dev.bump F.trnCntTimeout_count).raise 202).endTag t.toNat f 3 2).pump))) ∧
  (∀ (s : State) (p : LPort) (t : Fin 4096) (l : LTag), s.dev.powered = true → s.dev.trn.ltags.find? (p.val * 4096 + t.val) = some l → l.deliver = true →
    exec (.localTagTimeout p t) s = .next (s.after ((((s.dev.freeLocalTag (p.val * 4096 + t.val)).respond l.pkt 3 2 [] 0 l.gen).pumpLocal).pump)))

/-! ### The host port (10) -/

/-- The writes of configuration space complete: a covered, accepted dword is recorded with its old and new value and takes effect (R344, R348, R558); Initiate Function Level Reset resets the PF or its VF (R363), VF Enable is set or cleared, with an FLR of every enabled VF at its end (R351, R363); a dword of an MSI-X table is recorded and stored (R360, R374). -/
def Obligations.ConfigurationCommandsComplete : Prop :=
  (∀ (s : State) (fn : InstNo) (off : BitVec 12) (be : BitVec 8) (x : W32) (r : CfgRow) (c : WCtx) (old new : Nat), s.dev.hostHere = true → s.dev.pit.ready = true → s.dev.fnEnabled fn.toNat = true → s.dev.swRoom 1 = true →
    off.toNat % 4 = 0 → s.dev.cfgCovered fn.toNat off.toNat = true → (s.dev.cfgRows fn.toNat).find? (fun r => r.off = off.toNat) = some r →
    c = ⟨.manager, 1, fn.toNat, off.toNat, false, be.toNat % 16, x.setWidth 64⟩ → old = (s.dev.cfgW fn.toNat off.toNat).toNat →
    new = ((x.toNat &&& c.mask) &&& r.rw) ||| ((old &&& (0xFFFFFFFF ^^^ ((x.toNat &&& c.mask) &&& r.w1c))) &&& (0xFFFFFFFF ^^^ (c.mask &&& r.rw))) →
    s.dev.cfgReject fn.toNat off.toNat old new = false →
    exec (.configWrite fn off be x) s = .next (s.after
      ((s.dev.logged c (1024 * b2n (decide (BitVec.ofNat 64 old = BitVec.ofNat 64 new))) (BitVec.ofNat 64 old) (BitVec.ofNat 64 new)).cfgEffect fn.toNat off.toNat (x.toNat &&& c.mask) (BitVec.ofNat 32 new)))) ∧
  (∀ (s : State) (w : W32), w = s.dev.cfgW 0 cfgDevCtl → s.dev.hostHere = true → s.dev.pit.ready = true → s.dev.swRoom 1 = true → w.toNat / 32 % 8 ≤ 3 → w.toNat / 4096 % 8 ≤ 5 → w.getLsbD 15 = false →
    exec .pfFlr s = .next (s.after
      (((s.dev.logged ⟨.manager, 1, 0, cfgDevCtl, false, 2, (w ||| 0x8000#32).setWidth 64⟩ 0 (w.setWidth 64) ((w ||| 0x8000#32).setWidth 64)).setCfg 0 cfgDevCtl w).pfReset true))) ∧
  (∀ (s : State) (n : InstNo) (w : W32), w = s.dev.cfgW n.toNat cfgDevCtl → n ≠ 0#12 → s.dev.fnEnabled n.toNat = true → s.dev.hostHere = true → s.dev.pit.ready = true → s.dev.swRoom 1 = true → w.getLsbD 15 = false →
    exec (.vfFlr n) s = .next (s.after
      (((s.dev.logged ⟨.manager, 1, n.toNat, cfgDevCtl, false, 2, (w ||| 0x8000#32).setWidth 64⟩ 0 (w.setWidth 64) ((w ||| 0x8000#32).setWidth 64)).setCfg n.toNat cfgDevCtl w).vfFlr n.toNat))) ∧
  (∀ (s : State) (w : W32), w = s.dev.cfgW 0 cfgSriovCtl → s.dev.gb F.genHostCfg_sriov = true → s.dev.hostHere = true → s.dev.pit.ready = true → s.dev.swRoom 1 = true → s.dev.vfEnable = false →
    exec .vfEnableSet s = .next (s.after
      (((s.dev.logged ⟨.manager, 1, 0, cfgSriovCtl, false, 1, (w ||| 1#32).setWidth 64⟩ 0 (w.setWidth 64) ((w ||| 1#32).setWidth 64)).setCfg 0 cfgSriovCtl w).setVfEnable true))) ∧
  (∀ (s : State) (w : W32), w = s.dev.cfgW 0 cfgSriovCtl → s.dev.gb F.genHostCfg_sriov = true → s.dev.hostHere = true → s.dev.pit.ready = true → s.dev.swRoom 1 = true → s.dev.vfEnable = true →
    exec .vfEnableClear s = .next (s.after
      (((s.dev.logged ⟨.manager, 1, 0, cfgSriovCtl, false, 1, (w &&& 0xFFFFFFFE#32).setWidth 64⟩ 0 (w.setWidth 64) ((w &&& 0xFFFFFFFE#32).setWidth 64)).setCfg 0 cfgSriovCtl w).setVfEnable false))) ∧
  (∀ (s : State) (fn : InstNo) (off : BitVec 24) (x : W64) (c : WCtx) (old new : W32), s.dev.hostHere = true → s.dev.hostMem fn.toNat = true → s.dev.onlyWatch = false → s.dev.swRoom 1 = true →
    off.toNat % 4 = 0 → off.toNat < 0x8000 → off.toNat / 16 < s.dev.vectors fn.toNat → off.toNat % 16 = 4 ∨ off.toNat % 16 = 8 → old = s.dev.msixDw fn.toNat (off.toNat / 16) (off.toNat % 16 / 4) → new = x.setWidth 32 →
    c = ⟨if fn.toNat = 0 then .manager else .tenant fn.toNat, 3, fn.toNat, off.toNat, false, 15, BitVec.ofNat 64 (x.toNat % 2 ^ 32)⟩ →
    s.dev.hst.pba.lk false (fn.toNat * 2048 + off.toNat / 16) = false →
    exec (.msixTableWrite fn off false 15#8 x) s = .next (s.after
      ({ s.dev.logged c (1024 * b2n (decide (old.setWidth 64 = new.setWidth 64))) (old.setWidth 64) (new.setWidth 64) with
         hst := { (s.dev.logged c (1024 * b2n (decide (old.setWidth 64 = new.setWidth 64))) (old.setWidth 64) (new.setWidth 64)).hst with
           msix := s.dev.hst.msix.put 0#32 ((fn.toNat * 2048 + off.toNat / 16) * 4 + off.toNat % 16 / 4) new } } : Dev)))

/-- The host's memory requests complete: a write through an open window enters a write-combining line or goes out as its pieces (R386, R390), a read or an atomic through a window that permits it flushes its stream and is submitted (R385, R386, R352), a write behind one that waits for a line waits too (R390), its completion limit ends it with CA and F215 (R353, R354). -/
def Obligations.HostMemoryRequestsComplete : Prop :=
  (∀ (s : State) (fn : InstNo) (o : BitVec 64) (bs : List Byte) (be : List Bool) (w : Nat × List W64), s.dev.hostHere = true → s.dev.win.stalled = [] → o.toNat < s.dev.bar2Size fn.toNat → s.dev.bar2Stop fn.toNat = none →
    s.dev.winLookup fn.toNat 1 o.toNat = some w → bitOf (bget w.2 35 1) 1 = true → bitOf (bget w.2 35 1) 3 = true → o.toNat / 64 = (o.toNat + bs.length - 1) / 64 →
    exec (.hostBar2Write fn o bs be false) s = .next (s.after (s.dev.combine fn.toNat w.1 o.toNat w.2 bs be))) ∧
  (∀ (s : State) (fn : InstNo) (o : BitVec 64) (bs : List Byte) (be : List Bool) (w : Nat × List W64), s.dev.hostHere = true → s.dev.win.stalled = [] → o.toNat < s.dev.bar2Size fn.toNat → s.dev.bar2Stop fn.toNat = none →
    s.dev.winLookup fn.toNat 1 o.toNat = some w → bitOf (bget w.2 35 1) 1 = true → bitOf (bget w.2 35 1) 3 = false →
    exec (.hostBar2Write fn o bs be false) s = .next (s.after (s.dev.directWrite fn.toNat o.toNat w.2 bs be false))) ∧
  (∀ (s : State) (fn : InstNo) (t : BitVec 16) (o : BitVec 64) (n : Nat) (w : Nat × List W64) (st : Nat × Nat × W32) (d e : Dev), st = (fn.toNat, bget w.2 24 2 % 4096, winKey w.2 o.toNat) →
    d = (s.dev.bumpBy F.winCntWcNpFlush_count (s.dev.win.lines.filter (fun l => !l.sending && l.stream = st)).length).flushLines (fun l => l.stream = st) →
    e = { d with hst := { d.hst with reqs := d.hst.reqs.ins (fn.toNat * 65536 + t.toNat) ⟨fn.toNat, t, o.toNat, n⟩ } } →
    s.dev.hostHere = true → s.dev.win.stalled = [] → o.toNat < s.dev.bar2Size fn.toNat → s.dev.bar2Stop fn.toNat = none → s.dev.winLookup fn.toNat 1 o.toNat = some w → bitOf (bget w.2 35 1) 0 = true →
    exec (.hostBar2Read fn t o n) s = .next (s.after (e.submit (.host fn.toNat t) (e.winReq 1 fn.toNat o.toNat w.2 n [] false)))) ∧
  (∀ (s : State) (fn : InstNo) (t : BitVec 16) (o : BitVec 64) (a : AtomicKind) (b : List Byte) (w : Nat × List W64) (st : Nat × Nat × W32) (d e : Dev), st = (fn.toNat, bget w.2 24 2 % 4096, winKey w.2 o.toNat) →
    d = (s.dev.bumpBy F.winCntWcNpFlush_count (s.dev.win.lines.filter (fun l => !l.sending && l.stream = st)).length).flushLines (fun l => l.stream = st) →
    e = { d with hst := { d.hst with reqs := d.hst.reqs.ins (fn.toNat * 65536 + t.toNat) ⟨fn.toNat, t, o.toNat, 8⟩ } } →
    s.dev.hostHere = true → s.dev.win.stalled = [] → o.toNat < s.dev.bar2Size fn.toNat → s.dev.bar2Stop fn.toNat = none → s.dev.winLookup fn.toNat 1 o.toNat = some w → bitOf (bget w.2 35 1) 2 = true →
    exec (.hostBar2Atomic fn t o a 8 b) s = .next (s.after (e.submit (.host fn.toNat t) (e.winReq (match a with | .fetchAdd => 4 | .swap => 5 | .cas => 6) fn.toNat o.toNat w.2 8 b false)))) ∧
  (∀ (s : State) (fn : InstNo) (o : BitVec 64) (bs : List Byte) (be : List Bool) (ep : Bool), s.dev.hostHere = true → s.dev.win.stalled ≠ [] →
    exec (.hostBar2Write fn o bs be ep) s = .next (s.after { s.dev with win := { s.dev.win with stalled := s.dev.win.stalled ++ [.write fn.toNat o.toNat bs be ep] } })) ∧
  (∀ (s : State) (fn : InstNo) (t : BitVec 16) (r : HReq), s.dev.powered = true → s.dev.hst.reqs.find? (fn.toNat * 65536 + t.toNat) = some r →
    exec (.cplLimitExpiry fn t) s = .next (s.after
      ((({ s.dev with hst := { s.dev.hst with reqs := s.dev.hst.reqs.del (fn.toNat * 65536 + t.toNat) } } : Dev).hostRefuse fn.toNat t true).raise 215)))

/-- The host link and the requests of the device to the host: the link comes up at its speed and width (R338), a hot reset or its fall resets every function and clears the counters (R363, R366, R380), L1 is entered and left (R339), errors are logged as AER gives them (R367, R368), messages are taken or refused (R352), a completion or its timeout ends its host tag (R358). -/
def Obligations.HostLinkCommandsComplete : Prop :=
  (∀ (s : State) (v w : BitVec 3) (f : Bool), s.dev.powered = true → s.dev.hostTrains = true → s.dev.hst.dlUp = false →
    exec (.hostLinkUp v w f) s = .next (s.after (s.dev.hostUp v.toNat w.toNat f)) ∧ (s.dev.hostUp v.toNat w.toNat f).hst.dlUp = true) ∧
  (∀ s : State, s.dev.powered = true → s.dev.hst.dlUp = true → exec .hotReset s = .next (s.after ((s.dev.linkLost 7).hstCounters))) ∧
  (∀ s : State, s.dev.powered = true → s.dev.hst.dlUp = true → s.dev.pins.perst = false → exec .dlDown s = .next (s.after (((s.dev.linkLost 0).hstCounters).raise 208))) ∧
  (∀ s : State, s.dev.powered = true → s.dev.hst.dlUp = true → s.dev.g F.hstStatus_ltssm = 3 → s.dev.cfgBit 0 cfgLinkCtl 1 = true → (s.dev.egress 12).isEmpty = true →
    exec (.aspmL1Entry .l1) s = .next (s.after { s.dev.s F.hstStatus_ltssm 5 with hst := { s.dev.hst with l1 := .l1 } })) ∧
  (∀ s : State, s.dev.powered = true → s.dev.hst.dlUp = true → s.dev.g F.hstStatus_ltssm = 5 → s.dev.hst.l1 ≠ .l12 →
    exec .l1Exit s = .next (s.after { s.dev.s F.hstStatus_ltssm 3 with hst := { s.dev.hst with l1 := .l1 } })) ∧
  (∀ (s : State) (fn : InstNo), s.dev.hostHere = true →
    exec (.hostLinkError .receiver fn) s = .next (s.after { s.dev.aerCor 0 0 with hst := { (s.dev.aerCor 0 0).hst with corr := s.dev.hst.corr + 1 } }) ∧
    exec (.hostLinkError .badTlp fn) s = .next (s.after { s.dev.aerCor 0 6 with hst := { (s.dev.aerCor 0 6).hst with corr := s.dev.hst.corr + 1 } }) ∧
    exec (.hostLinkError .badDllp fn) s = .next (s.after { s.dev.aerCor 0 7 with hst := { (s.dev.aerCor 0 7).hst with corr := s.dev.hst.corr + 1 } }) ∧
    exec (.hostLinkError .replayRollover fn) s = .next (s.after { s.dev.aerCor 0 8 with hst := { (s.dev.aerCor 0 8).hst with corr := s.dev.hst.corr + 1 } }) ∧
    exec (.hostLinkError .replayTimer fn) s = .next (s.after { s.dev.aerCor 0 12 with hst := { (s.dev.aerCor 0 12).hst with corr := s.dev.hst.corr + 1 } }) ∧
    exec (.hostLinkError .dataLink fn) s = .next (s.after (((s.dev.aerUnc 0 4 false).s F.hstStatus_ltssm 4).raise 211)) ∧
    exec (.hostLinkError .flowControl fn) s = .next (s.after (((s.dev.aerUnc 0 13 false).s F.hstStatus_ltssm 4).raise 211)) ∧
    exec (.hostLinkError .overflow fn) s = .next (s.after (((s.dev.aerUnc 0 17 false).s F.hstStatus_ltssm 4).raise 211)) ∧
    exec (.hostLinkError .malformed fn) s = .next (s.after ((s.dev.aerUnc fn.toNat 18 false).raise 211)) ∧
    exec (.hostLinkError .unexpectedCpl fn) s = .next (s.after ((s.dev.bump F.hstCntUnexpCpl_count).aerUnc 0 16 true))) ∧
  (∀ s : State, s.dev.powered = true → s.dev.g F.hstCorrThresh_count < s.dev.hst.corr →
    exec .hostCorrectedInterval s = .next (s.after (({ s.dev with hst := { s.dev.hst with corr := 0 } } : Dev).raise 214))) ∧
  (∀ (s : State) (fn : InstNo) (x : HostMsg), s.dev.hostHere = true →
    ((x = .setSlotPowerLimit ∨ x = .vendorType1 ∨ x = .ltr ∨ x = .ptm) → exec (.hostMessage fn x) s = .next (s.after s.dev)) ∧
    ((x = .vendorType0 ∨ x = .other) → exec (.hostMessage fn x) s = .next (s.after (s.dev.aerUr fn.toNat false))) ∧
    ((x = .ioRequest ∨ x = .cfgType1) → exec (.hostMessage fn x) s = .next (s.after (s.dev.aerUr fn.toNat true)))) ∧
  (∀ (s : State) (t : BitVec 16) (b : List Byte) (h : HTag), s.dev.hostHere = true → s.dev.sto.quar.find? (65536 + t.toNat) = none → s.dev.hst.tags.find? t.toNat = some h → h.stale = false →
    exec (.hostCompletion t .sc b) s = .next (s.after (((s.dev.freeHostTag t.toNat).pieceDone h b none).pumpHost)) ∧
    exec (.hostCompletion t .poisoned b) s = .next (s.after (((s.dev.freeHostTag t.toNat).pieceDone h b (some (6#8, 0#8))).pumpHost)) ∧
    exec (.hostCompletion t .ur b) s = .next (s.after (((s.dev.freeHostTag t.toNat).pieceDone h [] (some (4#8, 2#8))).pumpHost)) ∧
    exec (.hostCompletion t .ca b) s = .next (s.after (((s.dev.freeHostTag t.toNat).pieceDone h [] (some (7#8, 1#8))).pumpHost))) ∧
  (∀ (s : State) (t : BitVec 16) (h : HTag), s.dev.powered = true → s.dev.hst.tags.find? t.toNat = some h → h.stale = false →
    exec (.completionTimeout t) s = .next (s.after
      ((((((s.dev.freeHostTag t.toNat).bump F.hstCntCplTimeout_count).aerUnc h.fn 14 false).pieceDone h [] (some (3#8, 2#8))).raise 210).pumpHost)))

/-! ### Windows and the local ports (11) -/

/-- The window commands complete: an accepted commit or disable replaces the window's descriptor at once with a record of each word and reports result 1 at its end, a refused one reports its result, a read fills the staging registers (R382, R384); a write-combining line open too long is sent with what is before it in its stream (R391). -/
def Obligations.WindowCommandsComplete : Prop :=
  (∀ (s : State) (i : BitVec 16), s.dev.reaches R.winCmd = true → s.dev.standby = false → s.dev.winCheck i.toNat s.dev.winStage = none → s.dev.swRoom s.dev.winStage.length = true →
    exec (.winCommit .pf i) s = .next (s.after
      (({ ((s.dev.logGroup .manager 4 i.toNat s.dev.winStage.length 0 (s.dev.wdesc i.toNat) s.dev.winStage).flushWin i.toNat).putWdesc i.toNat s.dev.winStage with
          win := { (((s.dev.logGroup .manager 4 i.toNat s.dev.winStage.length 0 (s.dev.wdesc i.toNat) s.dev.winStage).flushWin i.toNat).putWdesc i.toNat s.dev.winStage).win with
            cmd := some ⟨0, i.toNat, s.dev.winStage⟩ } } : Dev).sb F.winCmdStatus_busy true))) ∧
  (∀ (s : State) (i : BitVec 16) (r : Nat), s.dev.ready R.winCmd = true → s.dev.standby = false → s.dev.winCheck i.toNat s.dev.winStage = some r →
    exec (.winCommit .pf i) s = .next (s.after ((s.dev.logged (mgrWrite R.winCmd (i.setWidth 32)) 1 0#64 0#64).winStatus r i.toNat))) ∧
  (∀ (s : State) (i : BitVec 16), s.dev.reaches R.winCmd = true → s.dev.gb F.winCmdStatus_busy = false →
    exec (.winRead .pf i) s = .next (s.after ((s.dev.toStage R.winStage 0 (s.dev.wdesc i.toNat)).winStatus 1 i.toNat))) ∧
  (∀ (s : State) (i : BitVec 16) (x : List W64), s.dev.reaches R.winCmd = true → s.dev.standby = false → s.dev.gb F.winCmdStatus_busy = false → x = bput (s.dev.wdesc i.toNat) 34 1 0 → s.dev.swRoom x.length = true →
    exec (.winDisable .pf i) s = .next (s.after
      (({ ((s.dev.logGroup .manager 4 i.toNat x.length 0 (s.dev.wdesc i.toNat) x).flushWin i.toNat).putWdesc i.toNat x with
          win := { (((s.dev.logGroup .manager 4 i.toNat x.length 0 (s.dev.wdesc i.toNat) x).flushWin i.toNat).putWdesc i.toNat x).win with cmd := some ⟨2, i.toNat, x⟩ } } : Dev).sb F.winCmdStatus_busy true))) ∧
  (∀ (s : State) (c : WinCmd), s.dev.powered = true → s.dev.win.cmd = some c →
    exec .winCmdComplete s = .next (s.after ((({ s.dev with win := { s.dev.win with cmd := none } } : Dev).sb F.winCmdStatus_busy false).winStatus 1 c.index))) ∧
  (∀ (s : State) (fn : InstNo) (o : BitVec 64) (l : WcLine), s.dev.powered = true → s.dev.win.lines = [l] → l.inst = fn.toNat → l.off = o.toNat / 64 * 64 → l.sending = false →
    exec (.wcLineTimeout fn o) s = .next (s.after (s.dev.flushLines (fun x => x.stream = l.stream && x.id ≤ l.id))))

/-- The control messages of a local design complete: a read answers with the register's value or a free value (R403), a write takes effect under the local design's authority and answers its status, a raise pulses or drives the design's own LIC sources (R404); while the port's link is closing to new work a read or a write is answered refused (R591, the model's reading, log entry 125). -/
def Obligations.LocalControlCommandsComplete : Prop :=
  (∀ (s : State) (p : LPort) (m x : CtlMsg) (d : Dev), x = { m with typ := 0x20#8 } → d = s.dev.consumeRaw (8 + p.val) (ctlMsgBytes x) → s.dev.powered = true → d.portOpen (8 + p.val) = true → d.lpCloses p.val = false → d.ctlWaits p = false →
    m.length = 16 → m.size = 4#8 ∨ m.size = 8#8 → viewOf p.val m.offset.toNat ≠ 0 → d.powerOf m.offset.toNat ≠ Power.held → d.recBusy m.offset.toNat = false → (d.ctlRead p (ctlCore x) m.offset.toNat m.size.toNat).2.2 ≠ 3 →
    exec (.cread p m) s = .next (s.after
      ((d.ctlRead p (ctlCore x) m.offset.toNat m.size.toNat).1.cresp p x (d.ctlRead p (ctlCore x) m.offset.toNat m.size.toNat).2.2 (d.ctlRead p (ctlCore x) m.offset.toNat m.size.toNat).2.1))) ∧
  (∀ (s : State) (p : LPort) (m x : CtlMsg) (d : Dev), x = { m with typ := 0x21#8 } → d = s.dev.consumeRaw (8 + p.val) (ctlMsgBytes x) → s.dev.powered = true → d.portOpen (8 + p.val) = true → d.lpCloses p.val = false → d.ctlWaits p = false →
    m.length = 24 → m.size = 4#8 ∨ m.size = 8#8 → viewOf p.val m.offset.toNat ≠ 0 → d.powerOf m.offset.toNat ≠ Power.held →
    exec (.cwrite p m) s = .next (s.after
      ((d.pfWrite (ctlParty p x) m.offset.toNat (decide (m.size = 8#8)) 255 m.data).1.crespFree p x (d.pfWrite (ctlParty p x) m.offset.toNat (decide (m.size = 8#8)) 255 m.data).2))) ∧
  (∀ (s : State) (p : LPort) (m x : CtlMsg) (d : Dev), x = { m with typ := 0x30#8 } → d = s.dev.consumeRaw (8 + p.val) (ctlMsgBytes x) → s.dev.powered = true → d.portOpen (8 + p.val) = true → d.lpCloses p.val = false → d.ctlWaits p = false →
    m.length = 16 → m.size = 0#8 → 32 + 128 * p.val ≤ m.offset.toNat % 65536 → m.offset.toNat % 65536 < 160 + 128 * p.val →
    exec (.raise p m) s = .next (s.after (d.licPulse (m.offset.toNat % 65536)))) ∧
  (∀ (s : State) (p : LPort) (m x : CtlMsg) (d : Dev), x = { m with typ := 0x30#8 } → d = s.dev.consumeRaw (8 + p.val) (ctlMsgBytes x) → s.dev.powered = true → d.portOpen (8 + p.val) = true → d.lpCloses p.val = false → d.ctlWaits p = false →
    m.length = 16 → m.size = 1#8 ∨ m.size = 2#8 → 32 + 128 * p.val ≤ m.offset.toNat % 65536 → m.offset.toNat % 65536 < 160 + 128 * p.val →
    (d.mirrorLine (m.offset.toNat % 65536) (decide (m.size = 1#8))).licGated = false →
    exec (.raise p m) s = .next (s.after ((d.mirrorLine (m.offset.toNat % 65536) (decide (m.size = 1#8))).lineAct (m.offset.toNat % 65536) (decide (m.size = 1#8))))) ∧
  (∀ (s : State) (p : LPort) (m x : CtlMsg) (d : Dev), (x = { m with typ := 0x20#8 } ∨ x = { m with typ := 0x21#8 }) → d = s.dev.consumeRaw (8 + p.val) (ctlMsgBytes x) → s.dev.powered = true → d.portOpen (8 + p.val) = true → d.lpCloses p.val = true →
    exec (if x.typ = 0x20#8 then .cread p m else .cwrite p m) s = .next (s.after (d.takeFree.2.cresp p x 1 d.takeFree.1)))

/-! ### Instances (12) -/

/-- The instance commands complete: a pitch, a resize or a destroy that passes its checks is recorded word by word and done at once or, for a destroy, begun with its FLR (R415 to R424), a refused one reports its result and is counted, a read fills the staging registers, the end of a command reports result 1 and the end of an FLR or destroy raises the instance's life and sets its event (R423, R437). -/
def Obligations.InstanceCommandsComplete : Prop :=
  (∀ (s : State) (n : InstNo) (x : List W64), s.dev.reaches R.insCmd = true → s.dev.standby = false → s.dev.insCheck n.toNat 0 s.dev.insStage = none → x = s.dev.pitched n.toNat s.dev.insStage → s.dev.swRoom (x.take 16).length = true →
    exec (.insPitch .pf n) s = .next (s.after
      ((({ s.dev.logGroup .manager 5 n.toNat (x.take 16).length 0 ((s.dev.idesc n.toNat).take 16) (x.take 16) with
          ins := { (s.dev.logGroup .manager 5 n.toNat (x.take 16).length 0 ((s.dev.idesc n.toNat).take 16) (x.take 16)).ins with cmd := some ⟨0, n.toNat, x⟩ } } : Dev).sb F.insCmdStatus_busy true).doPitch n.toNat x))) ∧
  (∀ (s : State) (n : InstNo) (x : List W64), s.dev.reaches R.insCmd = true → s.dev.standby = false → s.dev.insCheck n.toNat 1 s.dev.insStage = none → x = mergeM (s.dev.idesc n.toNat) s.dev.insStage → s.dev.swRoom (x.take 16).length = true →
    exec (.insResize .pf n) s = .next (s.after
      ((({ s.dev.logGroup .manager 5 n.toNat (x.take 16).length 0 ((s.dev.idesc n.toNat).take 16) (x.take 16) with
          ins := { (s.dev.logGroup .manager 5 n.toNat (x.take 16).length 0 ((s.dev.idesc n.toNat).take 16) (x.take 16)).ins with cmd := some ⟨1, n.toNat, x⟩ } } : Dev).sb F.insCmdStatus_busy true).doResize n.toNat x))) ∧
  (∀ (s : State) (n : InstNo) (x : List W64), s.dev.reaches R.insCmd = true → s.dev.standby = false → s.dev.insCheck n.toNat 2 s.dev.insStage = none →
    x = bput (bput (bput (s.dev.idesc n.toNat) 0 1 0) 24 4 ((s.dev.ig n.toNat 24 4 + 1) % 2 ^ 32)) 36 12 0 → s.dev.swRoom (x.take 16).length = true →
    exec (.insDestroy .pf n) s = .next (s.after
      ((({ s.dev.logGroup .manager 5 n.toNat (x.take 16).length 0 ((s.dev.idesc n.toNat).take 16) (x.take 16) with
          ins := { (s.dev.logGroup .manager 5 n.toNat (x.take 16).length 0 ((s.dev.idesc n.toNat).take 16) (x.take 16)).ins with cmd := some ⟨2, n.toNat, x⟩ } } : Dev).sb F.insCmdStatus_busy true).flrStart n.toNat true))) ∧
  (∀ (s : State) (n : InstNo) (r : Nat), s.dev.ready R.insCmd = true → s.dev.standby = false → s.dev.insCheck n.toNat 0 s.dev.insStage = some r →
    exec (.insPitch .pf n) s = .next (s.after (((s.dev.logged (mgrWrite R.insCmd (n.setWidth 32)) 1 0#64 0#64).insStatus r n.toNat).bump F.insCntCmdRefused_count))) ∧
  (∀ (s : State) (n : InstNo), s.dev.reaches R.insCmd = true → s.dev.gb F.insCmdStatus_busy = false →
    exec (.insRead .pf n) s = .next (s.after ((s.dev.toStage R.insStage 0 ((s.dev.idesc n.toNat).take 16)).insStatus 1 n.toNat))) ∧
  (∀ (s : State) (c : WinCmd), s.dev.powered = true → s.dev.ins.cmd = some c → c.op ≠ 2 →
    exec .insCmdComplete s = .next (s.after ((({ s.dev with ins := { s.dev.ins with cmd := none } } : Dev).sb F.insCmdStatus_busy false).insStatus 1 c.index))) ∧
  (∀ (s : State) (n : InstNo) (f : Flr) (d e : Dev), s.dev.powered = true → s.dev.ins.flr.find? n.toNat = some f → f.destroy = false →
    d = s.dev.endOps (fun o => o.fn = n.toNat) 3 5 →
    e = { d with hst := { d.hst with msix := d.hst.msix.keep (fun k _ => k / 8192 ≠ n.toNat), pba := d.hst.pba.keep (fun k _ => k / 2048 ≠ n.toNat) }, ins := { d.ins with flr := d.ins.flr.del n.toNat } } → e.istate n.toNat ≠ 0 →
    exec (.flrComplete n) s = .next (s.after
      ((((((((e.bump F.insCntFlr_count).clearMailbox n.toNat).ringOvf n.toNat false).isFlop n.toNat 40 8 0).isFlop n.toNat 128 4 0).is n.toNat 24 4 ((e.ig n.toNat 24 4 + 1) % 2 ^ 32)).setEv n.toNat F.insEv_flr)))) ∧
  (∀ (s : State) (n : InstNo) (f : Flr) (d e : Dev), s.dev.powered = true → s.dev.ins.flr.find? n.toNat = some f → f.destroy = false →
    d = s.dev.endOps (fun o => o.fn = n.toNat) 3 5 →
    e = { d with hst := { d.hst with msix := d.hst.msix.keep (fun k _ => k / 8192 ≠ n.toNat), pba := d.hst.pba.keep (fun k _ => k / 2048 ≠ n.toNat) }, ins := { d.ins with flr := d.ins.flr.del n.toNat } } → e.istate n.toNat = 0 →
    exec (.flrComplete n) s = .next (s.after (e.bump F.insCntFlr_count)))

/-- Mailboxes, message rings and the commons memory: ringing an inbox or outbox sets its flag bits (R426), a slot takes its eight bytes, a consumer index within the ring is stored (R430), the bytes of a commons access are stored or returned (R427, R433). -/
def Obligations.MailboxCommandsComplete : Prop :=
  (∀ (s : State) (n : InstNo) (x : BitVec 8), n ≠ 0#12 → s.dev.reaches (R.insInboxRing n.toNat) = true →
    exec (.inboxRing .pf n x) s = .next (s.after (s.dev.ringInbox n.toNat x.toNat))) ∧
  (∀ (s : State) (n : InstNo) (x : BitVec 8), s.dev.hostHere = true → s.dev.hostMem n.toNat = true → s.dev.onlyWatch = false → s.dev.powerOf 0xF00000 = Power.on → s.dev.istate n.toNat ≠ 0 →
    exec (.outboxRing n x) s = .next (s.after (s.dev.ringOutbox n.toNat x.toNat))) ∧
  (∀ (s : State) (n : InstNo) (i : Fin 8) (x : W64), n ≠ 0#12 → s.dev.reaches (R.insInbox n.toNat i.val) = true →
    exec (.mailboxSlotWrite .pf n i x) s = .next (s.after (s.dev.slotWrite n.toNat i.val x))) ∧
  (∀ (s : State) (n : InstNo) (i : Fin 8) (x : W64), s.dev.hostHere = true → s.dev.hostMem n.toNat = true → s.dev.onlyWatch = false → s.dev.powerOf 0xF00000 = Power.on → s.dev.istate n.toNat ≠ 0 →
    exec (.mailboxSlotWrite (.vf n) n i x) s = .next (s.after (s.dev.slotWrite n.toNat (8 + i.val) x))) ∧
  (∀ (s : State) (x : W32), s.dev.reaches (R.insMsgCons 0) = true → (x.toNat + 2 ^ 32 - s.dev.ig 0 40 4) % 2 ^ 32 = 0 ∨ 2 ^ 31 < (x.toNat + 2 ^ 32 - s.dev.ig 0 40 4) % 2 ^ 32 →
    exec (.msgConsWrite .pf 0#12 15#8 x) s = .next (s.after (s.dev.isFlop 0 128 4 x.toNat))) ∧
  (∀ (s : State) (n : InstNo) (x : W32), s.dev.hostHere = true → s.dev.hostMem n.toNat = true → s.dev.onlyWatch = false → s.dev.powerOf 0xF00000 = Power.on → s.dev.istate n.toNat ≠ 0 →
    (x.toNat + 2 ^ 32 - s.dev.ig n.toNat 40 4) % 2 ^ 32 = 0 ∨ 2 ^ 31 < (x.toNat + 2 ^ 32 - s.dev.ig n.toNat 40 4) % 2 ^ 32 →
    exec (.msgConsWrite (.vf n) n 15#8 x) s = .next (s.after (s.dev.isFlop n.toNat 128 4 x.toNat))) ∧
  (∀ (s : State) (n : InstNo) (o : BitVec 24) (k : Nat) (b : List Byte), s.dev.hostHere = true → s.dev.hostMem n.toNat = true → s.dev.onlyWatch = false → s.dev.powerOf 0xF00000 = Power.on → n ≠ 0#12 → s.dev.istate n.toNat ≠ 0 →
    0x10000 ≤ o.toNat → o.toNat < 0x20000 → k ≤ 0x20000 - o.toNat → b.length = k →
    exec (.commonsAccess (.vf n) o true k b (List.replicate k true)) s = .next (s.after (s.dev.memStore (n.toNat * 0x10000 + o.toNat % 0x10000) b)) ∧
    exec (.commonsAccess (.vf n) o false k b []) s = .next (s.after
      ((s.dev.stoMove 2 (unitBytes (n.toNat * 0x10000 + o.toNat % 0x10000) k)).emit (.rdata n.toNat ((List.range k).map (fun i => s.dev.memRd (n.toNat * 0x10000 + o.toNat % 0x10000 + i))) (s.dev.memBad (n.toNat * 0x10000 + o.toNat % 0x10000) k)))))

/-! ### Isolation and migration (13) -/

/-- Rate limiting and the egress scheduler: a bucket's limits are written and cap its level (R450, R453), a refill adds each limited bucket's rate up to its depth and tries again what waits (R451), a visit serves an egress (R457), its next group sending what its deficit with its quantum covers (R458). -/
def Obligations.RateAndEgressCommandsComplete : Prop :=
  (∀ s : State, s.dev.powered = true → exec .bucketRefill s = .next (s.after s.dev.refill)) ∧
  (∀ (s : State) (b : BitVec 12) (j : Fin 8) (x : W32) (o : Nat), o = R.insBucketLimits b.toNat + 4 * j.val → s.dev.ready o = true → x.toNat < (if j.val % 2 = 0 then 2 ^ 20 else 2 ^ 16) →
    exec (.bucketLimitWrite .pf b j 15#8 x) s = .next (s.after
      (((s.dev.logged (mgrWrite o x) (1024 * b2n (decide (s.dev.rd o = x.setWidth 64))) (s.dev.rd o) (x.setWidth 64)).wr o (x.setWidth 64)).capLevel b.toNat (j.val / 2)))) ∧
  (∀ (s : State) (e : Fin 14), s.dev.powered = true → exec (.egressVisit e) s = .next (s.after (s.dev.visit e.val))) ∧
  (∀ (s : State) (k : Nat) (c d : Dev) (r : Nat), s.dev.powered = true → c = s.dev.countWaits → c.limited4 = [k] → r = c.g (bucketFld (k / 4) (2 * (k % 4))) → r ≠ 0 → c.iso.rate.lk 0 k ≠ 0 →
    d = { c with iso := { c.iso with rate := c.iso.rate.put 0 k r } } →
    exec .bucketRefill s = .next (s.after ((d.s (levelFld (k / 4) (k % 4)) (min (c.bucketCap (k / 4) (k % 4)) (d.g (levelFld (k / 4) (k % 4)) + r))).pump))) ∧
  (∀ (s : State) (e : Fin 14) (d1 d2 d3 : Dev) (g : EGroup) (rest : List EGroup) (x : QEnt), s.dev.powered = true → (s.dev.egress e.val).net = [] →
    d1 = s.dev.setEgress e.val (s.dev.egress e.val) → (d1.egress e.val).rsp = [] → d2 = d1.setEgress e.val (d1.egress e.val) →
    d2.nextGroup e.val (d2.egress e.val).groups = some (g, rest) → g.q = [x] → d2.groupHead e.val [x] = some x → x.size ≤ g.deficit + max 1 (d2.groupWeight e.val g.id) * 256 → d3 = d2.leave e.val x →
    exec (.egressVisit e) s = .next (s.after (d3.setEgress e.val { d3.egress e.val with groups := rest })))

/-- The dirty-log trackers: a start that passes its checks begins epoch 1 with its staging words recorded, a switch or a stop closes the epoch, a read fills the staging registers, a marked word is written to the host once, the drain's end writes the epoch's record (R458 to R465). -/
def Obligations.TrackerCommandsComplete : Prop :=
  (∀ (s : State) (t : BitVec 10), s.dev.reaches R.insDlCmd = true → s.dev.dlCheck t.toNat 0 s.dev.dlStage = none → s.dev.swRoom s.dev.dlStage.length = true →
    exec (.dlStart .pf t) s = .next (s.after
      (((s.dev.logGroup .manager 0 (R.insDlStage 0) s.dev.dlStage.length 0 (List.replicate 6 0#64) s.dev.dlStage).dlBegin t.toNat s.dev.dlStage).dlStat 1 t.toNat))) ∧
  (∀ (s : State) (t : BitVec 10), s.dev.ready R.insDlCmd = true → s.dev.dlCheck t.toNat 1 s.dev.dlStage = none →
    exec (.dlSwitch .pf t) s = .next (s.after (((s.dev.logged (mgrWrite R.insDlCmd (BitVec.ofNat 32 (65536 + t.toNat))) 1024 0#64 0#64).dlClose t.toNat false).dlStat 1 t.toNat))) ∧
  (∀ (s : State) (t : BitVec 10), s.dev.ready R.insDlCmd = true → s.dev.dlCheck t.toNat 2 s.dev.dlStage = none →
    exec (.dlStop .pf t) s = .next (s.after (((s.dev.logged (mgrWrite R.insDlCmd (BitVec.ofNat 32 (131072 + t.toNat))) 1024 0#64 0#64).dlClose t.toNat true).dlStat 1 t.toNat))) ∧
  (∀ (s : State) (t : BitVec 10) (r : Nat), s.dev.ready R.insDlCmd = true → s.dev.dlCheck t.toNat 1 s.dev.dlStage = some r →
    exec (.dlSwitch .pf t) s = .next (s.after ((s.dev.logged (mgrWrite R.insDlCmd (BitVec.ofNat 32 (65536 + t.toNat))) 1 0#64 0#64).dlStat r t.toNat))) ∧
  (∀ (s : State) (t : BitVec 10) (x : Tracker), s.dev.reaches R.insDlCmd = true → s.dev.gb F.insDlCmdStatus_busy = false → s.dev.iso.dl.find? t.toNat = some x →
    exec (.dlRead .pf t) s = .next (s.after ((s.dev.toStage R.insDlStage 0 x.cfg).dlStat 1 t.toNat))) ∧
  (∀ (s : State) (t : BitVec 10) (w : Nat) (x : Tracker), s.dev.powered = true → s.dev.iso.dl.find? t.toNat = some x → x.closing = false → x.dirtyA.contains w = true → s.dev.dlState t.toNat ≠ 3 →
    exec (.dlWordWrite t false w) s = .next (s.after
      (({ s.dev with iso := { s.dev.iso with dl := s.dev.iso.dl.ins t.toNat { x with dirtyA := x.dirtyA.filter (· ≠ w), words := satAdd 32 x.words 1 } } } : Dev).dlWord x false w (x.a.lk 0#64 w)))) ∧
  (∀ (s : State) (t : BitVec 10) (x : Tracker) (d : Dev), s.dev.powered = true → s.dev.iso.dl.find? t.toNat = some x → x.closing = true → s.dev.dlState t.toNat = 2 → x.due.any s.dev.notIssued = false →
    x.stop = false → x.oldAll = false → x.destroyed = false → s.dev.gb (F.insDlStatus_half t.toNat) = true → x.dirtyA = [] → bitOf (bget x.cfg 37 1) 0 = false →
    d = s.dev.toHost 0 (.mwr 0 (BitVec.ofNat 64 (bget x.cfg 24 8)) (dlRecord ((s.dev.g (F.insDlEpoch_epoch t.toNat) + 2 ^ 32 - 1) % 2 ^ 32) t.toNat (4 * b2n x.oldFlr) x) false) 96 →
    exec (.dlSwitchDrainDone t) s = .next (s.after
      (({ d with iso := { d.iso with dl := d.iso.dl.ins t.toNat { x with a := [], dirtyA := [], closing := false } } } : Dev).s (F.insDlStatus_state t.toNat) 1)))

/-! ### The LIC (14) -/

/-- The manager's writes to the LIC complete: a signal makes its private number pending in every core it names (R485, R512), SET and CLR banks set or clear the existing bits they name, a cleared pending bit counting as withdrawn (R486, R506), configuration registers and core bindings take their value, a changed binding giving back what the core held (R506, R509). -/
def Obligations.LicWritesComplete : Prop :=
  (∀ (s : State) (x : W32), s.dev.reaches R.licSignal = true →
    exec (.signal .pf 15#8 x) s = .next (s.after (s.dev.each ((List.range 16).filter (fun i => bitOf x.toNat (16 + i))) (fun d i => d.signalPriv i (x.toNat % 32))))) ∧
  (∀ (s : State) (b : LicBank) (x : W32) (new : W64), s.dev.reaches (bankOff 2 b) = true → regMapped (bankOff 2 b) = true → licBankAt (bankOff 2 b) = some (2, b) →
    new = BitVec.ofNat 64 ((s.dev.rd (bankPend b).1).toNat % 2 ^ 32 ||| (x.toNat &&& (bankPend b).2)) →
    exec (.pendSet .pf b 15#8 x) s = .next (s.after (s.dev.wr (bankPend b).1 new))) ∧
  (∀ (s : State) (b : LicBank) (x : W32) (old new : W64), s.dev.reaches (bankOff 3 b) = true → regMapped (bankOff 3 b) = true → licBankAt (bankOff 3 b) = some (3, b) →
    old = BitVec.ofNat 64 ((s.dev.rd (bankPend b).1).toNat % 2 ^ 32) → new = BitVec.ofNat 64 ((s.dev.rd (bankPend b).1).toNat % 2 ^ 32 &&& (0xFFFFFFFF ^^^ (x.toNat &&& (bankPend b).2))) →
    exec (.pendClr .pf b 15#8 x) s = .next (s.after ((s.dev.wr (bankPend b).1 new).bumpBy F.licCntWithdrawn_count (bitsOf (old.toNat ^^^ new.toNat) 32).length))) ∧
  (∀ (s : State) (b : LicBank) (x : W32) (old new : W64), s.dev.ready (bankOff 0 b) = true → regMapped (bankOff 0 b) = true → licBankAt (bankOff 0 b) = some (0, b) →
    old = BitVec.ofNat 64 ((s.dev.rd (bankMask b).1).toNat % 2 ^ 32) → new = BitVec.ofNat 64 ((s.dev.rd (bankMask b).1).toNat % 2 ^ 32 ||| (x.toNat &&& (bankMask b).2)) →
    exec (.maskSet .pf b 15#8 x) s = .next (s.after
      ((s.dev.logged (mgrWrite (bankOff 0 b) x) (4 * b2n (decide (x.toNat ≠ x.toNat &&& (bankMask b).2)) + 1024 * b2n (decide (old = new))) old new).wr (bankMask b).1 new))) ∧
  (∀ (s : State) (b : LicBank) (x : W32) (old new : W64), s.dev.ready (bankOff 1 b) = true → regMapped (bankOff 1 b) = true → licBankAt (bankOff 1 b) = some (1, b) →
    old = BitVec.ofNat 64 ((s.dev.rd (bankMask b).1).toNat % 2 ^ 32) → new = BitVec.ofNat 64 ((s.dev.rd (bankMask b).1).toNat % 2 ^ 32 &&& (0xFFFFFFFF ^^^ (x.toNat &&& (bankMask b).2))) →
    exec (.maskClr .pf b 15#8 x) s = .next (s.after
      ((s.dev.logged (mgrWrite (bankOff 1 b) x) (4 * b2n (decide (x.toNat ≠ x.toNat &&& (bankMask b).2)) + 1024 * b2n (decide (old = new))) old new).wr (bankMask b).1 new))) ∧
  (∀ (s : State) (n : Fin 1024) (x : W32) (r : RegDef) (v : Nat), licNumber n.val = true → 32 ≤ n.val → n.val < 800 → s.dev.ready (licSrc n.val) = true → regAt (licSrc n.val) = some r → r.wide = false → r.allRo = false → r.allSf = false →
    s.dev.regWrite r.fields (s.dev.rd (licSrc n.val)).toNat 0xFFFFFFFF x.toNat = some v →
    exec (.licSrcCfgWrite .pf (.src n) 15#8 (x.setWidth 64)) s = .next (s.after
      ((s.dev.logged (mgrWrite (licSrc n.val) x) (4 * b2n (resvBits r.fields 0xFFFFFFFF x.toNat) + 1024 * b2n (decide (s.dev.rd (licSrc n.val) = BitVec.ofNat 64 v))) (s.dev.rd (licSrc n.val)) (BitVec.ofNat 64 v)).wr (licSrc n.val) (BitVec.ofNat 64 v)))) ∧
  (∀ (s : State) (c : Fin 16) (x : W32), s.dev.ready (R.licCoreBind c.val) = true → x.toNat / 4 % 4 = 0 → x.toNat < 32 → (x.toNat / 16 = 1 → s.dev.lpAbsent (x.toNat % 4) = false) → s.dev.rd (R.licCoreBind c.val) ≠ x.setWidth 64 →
    exec (.coreBindWrite .pf c 15#8 x) s = .next (s.after
      (((s.dev.logged (mgrWrite (R.licCoreBind c.val) x) 0 (s.dev.rd (R.licCoreBind c.val)) (x.setWidth 64)).coresLost [c.val]).wr (R.licCoreBind c.val) (x.setWidth 64)))) ∧
  (∀ (s : State) (c : Fin 16) (x : W32), s.dev.reaches (R.licEoi c.val) = true →
    exec (.eoi .pf c 15#8 x) s = .next (s.after (s.dev.licEoi c.val (x.toNat % 1024))))

/-- Claims and deliveries complete: a bound core's claim of its best offered number makes it active and returns it, or counts a spurious claim (R491), the manager's read claims for the core it names, a prepared DELIVER that takes its credit is sent with its vector address and makes its number active (R489), one that waits too long raises F241 (R508); the LIC enters Retain when idle, wakes for a capture and applies its captures (R497 to R500). -/
def Obligations.LicDeliveryCommandsComplete : Prop :=
  (∀ (s : State) (p : LPort) (c : Fin 16) (n : Nat), s.dev.powered = true → s.dev.portOpen (8 + p.val) = true → s.dev.powerOf (R.licClaim c.val) ≠ Power.held → s.dev.coreBound c.val p.val = true →
    s.dev.leastPrio c.val ((s.dev.eligible s.dev.licReady c.val).filter (fun n => s.dev.licOffered c.val n)) = some n →
    exec (.claimRead (.lp p (some c)) c) s = .next (s.after ((s.dev.activate c.val n).s (F.licCoreState_offer c.val) 1023))) ∧
  (∀ (s : State) (p : LPort) (c : Fin 16), s.dev.powered = true → s.dev.portOpen (8 + p.val) = true → s.dev.powerOf (R.licClaim c.val) ≠ Power.held → s.dev.coreBound c.val p.val = true →
    s.dev.leastPrio c.val ((s.dev.eligible s.dev.licReady c.val).filter (fun n => s.dev.licOffered c.val n)) = none →
    exec (.claimRead (.lp p (some c)) c) s = .next (s.after (s.dev.bump F.licCntSpurious_count))) ∧
  (∀ (s : State) (c : Fin 16), s.dev.reaches (R.licClaim c.val) = true →
    exec (.claimRead .pf c) s = .next (s.after ((s.dev.claim c.val).1.emit (.rdata 0 (bytesLE 4 (s.dev.claim c.val).2.toNat) false)))) ∧
  (∀ (s : State) (c : Fin 16) (n : Nat) (d : Dev), d = (s.dev.setPrep c.val none).bump F.licCntDelivered_count → s.dev.powered = true → s.dev.lic.prep.find? c.val = some n → s.dev.coreOpen c.val = true → s.dev.licGated = false → n < 1016 →
    exec (.deliverCredit c) s = .next (s.after ((d.sendDeliver c.val n 0 ((s.dev.setPrep c.val none).licPrio c.val n) ((s.dev.setPrep c.val none).vecAddr c.val n)).activate c.val n))) ∧
  (∀ (s : State) (p : LPort), s.dev.powered = true → s.dev.lic.prep.any (fun e => s.dev.g (F.licCoreBind_port e.1) = p.val) = true →
    exec (.deliverCreditWait p) s = .next (s.after (s.dev.raise 241))) ∧
  (∀ s : State, s.dev.powered = true → s.dev.gb F.licGateCfg_enable = true → s.dev.pdSt 50 = .on → s.dev.licGated = false → s.dev.lic.claimed = [] → s.dev.lic.prep = [] → s.dev.pins.main = true →
    (∀ c, c < 16 → s.dev.eligible s.dev.licReady c = [] ∧ s.dev.trapActive c = false ∧ s.dev.offerOf c = none ∧ s.dev.candidate s.dev.licReady c = none) →
    exec .licGateEntry s = .next (s.after (((s.dev.clampDom 50).setPd 50 .retain).bump (F.pitPdRetainCnt_count 50)))) ∧
  (∀ s : State, s.dev.powered = true → s.dev.pdSt 50 = .retain →
    exec (.licWake true) s = .next (s.after (({ s.dev with lic := { s.dev.lic with waking := true } } : Dev).setPd 50 .on))) ∧
  (∀ s : State, s.dev.powered = true → s.dev.lic.waking = true →
    exec (.licRestoreComplete true) s = .next (s.after
      (({ s.dev.bump F.licCntWake_count with lic := { (s.dev.bump F.licCntWake_count).lic with waking := false } } : Dev).applyCaptures)))

/-! ### Firewatch (15) -/

/-- What happens to Firewatch has its effect: an assertion of a source enters its queue (R523), a broken or mended guyline changes its bit with its record (R526), the open event climbs one class and starts that class's timer, at Grave the chip reacts (R531, R535), the delayed chip reset of a Grave event runs (R535), the wear monitors are judged (R673), ERR_N is released when nothing keeps it (R536). -/
def Obligations.FirewatchEventsComplete : Prop :=
  (∀ (s : State) (n : Fin 512) (l : Bool) (p : Port), s.dev.powered = true →
    exec (.sourceRaise n l p) s = .next (s.after { s.dev with fwt := { s.dev.fwt with queue := s.dev.fwt.queue ++ [⟨n.val, l, p.val, false, false⟩] } })) ∧
  (∀ (s : State) (n : Fin 512) (d : Dev), d = (s.dev.setVec (R.fwtBroken (n.val / 32)) (n.val % 32) true).guyRec n.val true → s.dev.powered = true → s.dev.hasGuyline n.val = true → s.dev.srcBroken n.val = false → d.srcCls n.val < 4 →
    exec (.guylineBroken n) s = .next (s.after (d.raise 9))) ∧
  (∀ (s : State) (n : Fin 512) (d : Dev), d = (s.dev.setVec (R.fwtBroken (n.val / 32)) (n.val % 32) true).guyRec n.val true → s.dev.powered = true → s.dev.hasGuyline n.val = true → s.dev.srcBroken n.val = false → 4 ≤ d.srcCls n.val →
    exec (.guylineBroken n) s = .next (s.after { d with fwt := { d.fwt with queue := d.fwt.queue ++ [⟨n.val, true, d.fwt.f042, false, true⟩] } })) ∧
  (∀ (s : State) (n : Fin 512), s.dev.powered = true → s.dev.hasGuyline n.val = true → s.dev.srcBroken n.val = true →
    exec (.guylineMended n false) s = .next (s.after (((s.dev.setVec (R.fwtBroken (n.val / 32)) (n.val % 32) false).guyRec n.val false).setRaw n.val false)) ∧
    exec (.guylineMended n true) s = .next (s.after (((s.dev.setVec (R.fwtBroken (n.val / 32)) (n.val % 32) false).guyRec n.val false).raiseLvl n.val))) ∧
  (∀ (s : State) (c : Nat) (d : Dev), c = s.dev.evClass → d = ((s.dev.s F.fwtStatus_class (c + 1)).s F.fwtEventLeft_us (s.dev.fwtTimer (c + 1))).stepNote c (c + 1) →
    s.dev.powered = true → s.dev.evOpen = true → 1 ≤ c → c ≤ 3 → s.dev.fence = false → s.dev.g F.fwtEventLeft_us ≠ noTimer →
    exec .escalationStep s = .next (s.after (d.react (classReactions d.profile (c + 1) (srcOwned d.evFirst)) d.evFirst (srcBlock d d.evFirst) 3 false))) ∧
  (∀ s : State, s.dev.powered = true → s.dev.evOpen = true → s.dev.evClass = 4 → s.dev.fence = false → s.dev.g F.fwtEventLeft_us ≠ noTimer →
    exec .escalationStep s = .next (s.after ((s.dev.stepNote 4 4).chipReaction))) ∧
  (∀ (s : State) (d : Dev), d = { s.dev with fwt := { s.dev.fwt with graveDue := false } } → s.dev.powered = true → s.dev.fwt.graveDue = true → d.chipHeld = false → (d.fwtRec 5 0 0 d.evFirst 0).evOpen = false →
    exec .graveChipReset s = .next (s.after ((d.fwtRec 5 0 0 d.evFirst 0).chipReset))) ∧
  (∀ (s : State) (x : List (BitVec 16)), s.dev.powered = true →
    exec (.wearMeasurement x) s = .next (s.after ((List.zip (List.range 16) (x.map (fun y => y.toNat))).foldl (fun (d : Dev) e => if d.srcOn (480 + e.1) then d.wearOne e.1 e.2 else d) s.dev))) ∧
  (∀ s : State, s.dev.powered = true → s.dev.errKept = false → exec .errRelease s = .next (s.after { s.dev with fwt := { s.dev.fwt with err := false } }))

/-- The manager's writes to Firewatch complete: an acknowledgement that names the open event ends it with result 1, another one reports its result (R532), forcing raises the existing sources a word names that are not live, with an injection record, and clearing lets go of them (R530), a source's configuration takes its value where it does not lower its class (R528). -/
def Obligations.FirewatchWritesComplete : Prop :=
  (∀ (s : State) (x : W32), s.dev.ready R.fwtAck = true → s.dev.ackResult (x.toNat % 65536) (x.toNat / 65536) = 1 →
    exec (.fwtAck .pf 15#8 x) s = .next (s.after (((s.dev.logged (mgrWrite R.fwtAck x) 1024 0#64 0#64).endEvent 1).s F.fwtAckStatus_result 1))) ∧
  (∀ (s : State) (x : W32) (r : Nat), s.dev.ready R.fwtAck = true → s.dev.ackResult (x.toNat % 65536) (x.toNat / 65536) = r → r ≠ 1 →
    exec (.fwtAck .pf 15#8 x) s = .next (s.after ((s.dev.logged (mgrWrite R.fwtAck x) 1 0#64 0#64).s F.fwtAckStatus_result r))) ∧
  (∀ (s : State) (w : Fin 16) (x : W32) (d : Dev) (new : W64), s.dev.ready (R.fwtForceSet w.val) = true → x.toNat &&& srcMask w.val = x.toNat → s.dev.testEn = true →
    new = BitVec.ofNat 64 ((s.dev.rd (R.fwtForceSet w.val)).toNat ||| x.toNat) →
    d = (s.dev.logged (mgrWrite (R.fwtForceSet w.val) x) (16 + 1024 * b2n (decide (s.dev.rd (R.fwtForceSet w.val) = new))) (s.dev.rd (R.fwtForceSet w.val)) new).wr (R.fwtForceSet w.val) new →
    exec (.forceSet .pf w 15#8 x) s = .next (s.after
      { d with fwt := { d.fwt with queue := d.fwt.queue ++
        ((((List.range 32).filter (fun b => bitOf x.toNat b)).filter (fun b => !(s.dev.logged (mgrWrite (R.fwtForceSet w.val) x) (16 + 1024 * b2n (decide (s.dev.rd (R.fwtForceSet w.val) = new))) (s.dev.rd (R.fwtForceSet w.val)) new).srcLive (32 * w.val + b))).map
          (fun b => (⟨32 * w.val + b, false, s.dev.fwt.f042, true, false⟩ : RaiseQ))) } })) ∧
  (∀ (s : State) (w : Fin 16) (x : W32) (new : W64), s.dev.ready (R.fwtForceClr w.val) = true → x.toNat &&& srcMask w.val = x.toNat →
    new = BitVec.ofNat 64 ((s.dev.rd (R.fwtForceSet w.val)).toNat &&& (0xFFFFFFFF ^^^ x.toNat)) →
    exec (.forceClr .pf w 15#8 x) s = .next (s.after
      ((s.dev.logged (mgrWrite (R.fwtForceClr w.val) x) (16 + 1024 * b2n (decide (s.dev.rd (R.fwtForceSet w.val) = new))) (s.dev.rd (R.fwtForceSet w.val)) new).wr (R.fwtForceSet w.val) new))) ∧
  (∀ (s : State) (n : Fin 512) (x : W32) (cur new : Nat) (d : Dev), cur = (s.dev.rd (R.fwtSrcCfg n.val)).toNat → new = (x.toNat &&& 0x73F) ||| (cur &&& (0xFFFFFFFF ^^^ 0x73F)) →
    d = (s.dev.logged (mgrWrite (R.fwtSrcCfg n.val) x) (1024 * b2n (decide (s.dev.rd (R.fwtSrcCfg n.val) = BitVec.ofNat 64 new))) (s.dev.rd (R.fwtSrcCfg n.val)) (BitVec.ofNat 64 new)).wr (R.fwtSrcCfg n.val) (BitVec.ofNat 64 new) →
    s.dev.ready (R.fwtSrcCfg n.val) = true → (srcClass n.val).isSome = true → srcOwned n.val = true → x.toNat &&& 0x73F = x.toNat →
    new / 256 % 8 ≤ 5 → cur / 256 % 8 ≤ new / 256 % 8 → (cur &&& 0x3F) &&& new = cur &&& 0x3F → d.srcBroken n.val = false →
    exec (.fwtSrcCfgWrite .pf n 15#8 x) s = .next (s.after d))

/-! ### The change log (16) -/

/-- The change log's commands complete: the oldest staged record enters the ring (R561), an acknowledgement between tail and head moves the tail (R569), a read position starts a snapshot and a read of the last record word moves it on (R570), a snapshot puts the record's eight words into the registers (R570), a push batch sends the records there is room for (R573, R575), a consumer index is stored and acknowledges where it should (R574). -/
def Obligations.ChangeLogCommandsComplete : Prop :=
  (∀ (s : State) (r : Rec) (t : List Rec), s.dev.powered = true → s.dev.clg.staged = r :: t →
    exec .recordWrite s = .next (s.after (Dev.ringWrite { s.dev with clg := { s.dev.clg with staged := t } } r))) ∧
  (∀ (s : State) (x : W64), s.dev.reaches R.clgAck = true → s.dev.ackLegal x = true → exec (.clgAck .pf x) s = .next (s.after (s.dev.ackTo x))) ∧
  (∀ (s : State) (x : W64), s.dev.reaches R.clgAck = true → s.dev.ackLegal x = false → s.dev.swRoom 1 = true → exec (.clgAck .pf x) s = .next (s.after (s.dev.logged (mgrWrite8 R.clgAck x) 1 0#64 0#64))) ∧
  (∀ (s : State) (x : W64), s.dev.reaches R.clgRdSeq = true → exec (.rdSeqWrite .pf x) s = .next (s.after ((s.dev.wr R.clgRdSeq x).sb F.clgRdStatus_busy true))) ∧
  (∀ s : State, s.dev.reaches (R.clgRdRec 7 + 4) = true → s.dev.gb F.clgRdStatus_busy = false →
    exec (.rdRecAdvance .pf) s = .next (s.after (s.dev.rdAdvance.emit (.rdata 0 (bytesLE 4 ((s.dev.peek (R.clgRdRec 7 + 4) false).getD 0#64).toNat) false)))) ∧
  (∀ (s : State) (e : LogEnt), s.dev.powered = true → s.dev.gb F.clgRdStatus_busy = true → s.dev.clg.ring.find? (s.dev.rd R.clgRdSeq).toNat = some e → e.bad = false →
    exec (.snapshotTaken false) s = .next (s.after
      ((((List.zip (List.range 8) (entryWords (s.dev.rd R.clgRdSeq) e false)).foldl (fun (d : Dev) e => d.wr (R.clgRdRec e.1) e.2) (s.dev.sb F.clgRdStatus_busy false)).s F.clgRdStatus_state 0).stoMove 4 64))) ∧
  (∀ s : State, s.dev.powered = true → s.dev.gb F.clgRdStatus_busy = true → s.dev.clg.ring.find? (s.dev.rd R.clgRdSeq).toNat = none →
    ∀ b, exec (.snapshotTaken b) s = .next (s.after ((s.dev.sb F.clgRdStatus_busy false).s F.clgRdStatus_state 1))) ∧
  (∀ (s : State) (d : Dev) (n : Nat), d = s.dev.pushSkip → n = min (min 16 d.pushRoom) (d.rd R.clgHead - d.rd R.clgPushPos).toNat → s.dev.powered = true → s.dev.pushRuns = true → n ≠ 0 →
    exec .pushBatch s = .next (s.after
      ((d.each (List.range n) (fun d _ => d.pushOne)).toHost 0
        (.mwr 0 ((d.each (List.range n) (fun d _ => d.pushOne)).rd R.clgPushProd) (bytesLE 8 ((d.each (List.range n) (fun d _ => d.pushOne)).rd R.clgPushPos).toNat) false) 8))) ∧
  (∀ (s : State) (x : W64), s.dev.reaches R.clgPushCons = true → (s.dev.wr R.clgPushCons x).gb F.clgPushCtl_auto_ack = false →
    exec (.pushConsWrite .pf x) s = .next (s.after (s.dev.wr R.clgPushCons x))) ∧
  (∀ (s : State) (x : W64), s.dev.reaches R.clgPushCons = true → (s.dev.wr R.clgPushCons x).gb F.clgPushCtl_auto_ack = true → (s.dev.wr R.clgPushCons x).ackLegal x = true →
    exec (.pushConsWrite .pf x) s = .next (s.after ((s.dev.wr R.clgPushCons x).ackTo x)))

/-! ### Power domains (17) -/

/-- The power requests complete: an accepted off closes the domain (R585, R587), an accepted on starts its power-up, a request for the state the domain is in reports result 1 and changes nothing else, a refused one its result (R586). -/
def Obligations.PowerRequestsComplete : Prop :=
  (∀ (s : State) (k : Fin 64), s.dev.ready R.pitPdReq = true → s.dev.pdCheck k.val 1 = none → (s.dev.pdSt k.val).isOff = false →
    exec (.pdOff .pf 15#8 k) s = .next (s.after ((s.dev.logged (mgrWrite R.pitPdReq (BitVec.ofNat 32 (256 + k.val))) 1024 0#64 0#64).pdClose k.val))) ∧
  (∀ (s : State) (k : Fin 64), s.dev.ready R.pitPdReq = true → s.dev.pdCheck k.val 1 = none → (s.dev.pdSt k.val).isOff = true →
    exec (.pdOff .pf 15#8 k) s = .next (s.after ((s.dev.logged (mgrWrite R.pitPdReq (BitVec.ofNat 32 (256 + k.val))) 1024 0#64 0#64).pdResult 1 k.val))) ∧
  (∀ (s : State) (k : Fin 64) (r : Nat), s.dev.ready R.pitPdReq = true → s.dev.pdCheck k.val 1 = some r →
    exec (.pdOff .pf 15#8 k) s = .next (s.after ((s.dev.logged (mgrWrite R.pitPdReq (BitVec.ofNat 32 (256 + k.val))) 1 0#64 0#64).pdResult r k.val))) ∧
  (∀ (s : State) (k : Fin 64), s.dev.ready R.pitPdReq = true → s.dev.pdCheck k.val 0 = none → s.dev.pdSt k.val = .off →
    exec (.pdOn .pf 15#8 k) s = .next (s.after ((s.dev.logged (mgrWrite R.pitPdReq (BitVec.ofNat 32 k.val)) 1024 0#64 0#64).pdPowerUp k.val))) ∧
  (∀ (s : State) (k : Fin 64), s.dev.ready R.pitPdReq = true → s.dev.pdCheck k.val 0 = none → s.dev.pdSt k.val ≠ .off →
    exec (.pdOn .pf 15#8 k) s = .next (s.after ((s.dev.logged (mgrWrite R.pitPdReq (BitVec.ofNat 32 k.val)) 1024 0#64 0#64).pdResult 1 k.val)))

/-- A power sequence runs its course: the drain's end or limit advances the block's generation and ends its work with GONE 4 (R588, R592), the power-off and power-on complete with their records, a power-on without its power-good raises F258, lost posted writes are reported (R591), a domain left idle retains and wakes (R596, R597). -/
def Obligations.PowerSequenceCompletes : Prop :=
  (∀ (s : State) (l : Bool) (k : Nat) (e : Nat × Dev) (d : Dev), k = s.dev.pdNow → e = ((s.dev.workEnd (domainBlock k) 4).2, (s.dev.workEnd (domainBlock k) 4).1) → s.dev.powered = true → s.dev.pdPh = 1 → s.dev.blockEmpty (domainBlock k) = !l →
    d = ((((e.2.goneSynth e.1).nextGen (domainBlock k)).setPd k .drained).pdRec k 4 5 0 l e.1).s F.pitPdStatus_phase 2 →
    exec (if l then .pdDrainLimit else .pdDrainEnd) s = .next (s.after (d.whenD l (fun d => d.raise 256)))) ∧
  (∀ s : State, s.dev.powered = true → s.dev.pdPh = 2 ∨ s.dev.pdPh = 3 → linkPort s.dev.pdNow = none →
    exec .pdPowerOffComplete s = .next (s.after
      (((((s.dev.clampDom s.dev.pdNow).setPd s.dev.pdNow .off).setManual s.dev.pdNow true).pdRec s.dev.pdNow 5 0 0 false 0).pdEnds 1))) ∧
  (∀ (s : State) (k : Nat), k = s.dev.pdNow → s.dev.powered = true → s.dev.pdPh = 4 → linkPort k = none →
    exec .pdPowerOnComplete s = .next (s.after
      ((((((s.dev.nextGen (domainBlock k)).restoreState (domainBlock k)).setPd k .on).setManual k false).pdRec k 0 2 0 false 0).pdEnds 1))) ∧
  (∀ s : State, s.dev.powered = true → s.dev.pdPh = 4 →
    exec .powerGoodTimeout s = .next (s.after (((s.dev.takeFree.2.setPd s.dev.takeFree.2.pdNow .off).pdEnds (s.dev.takeFree.1.toNat % 16)).raise 258))) ∧
  (∀ (s : State) (k : Fin 64) (n : Nat), n = s.dev.pd.lost.lk 0 k.val → s.dev.powered = true → n ≠ 0 →
    exec (.lostWriteRecord k) s = .next (s.after
      ((({ s.dev with pd := { s.dev.pd with lost := s.dev.pd.lost.del k.val } } : Dev).logEv (lostOrigin k.val) 14 0 0 (k.val + n % 2 ^ 32 * 2 ^ 32)).raise 257))) ∧
  (∀ (s : State) (k : Fin 64), s.dev.powered = true → autoDomain k.val = true → s.dev.pdSt k.val = .on → (s.dev.rd R.pitPdAuto).getLsbD k.val = true → s.dev.pdIdle k.val = true → s.dev.pins.main = true → s.dev.pit.logOpen = true →
    exec (.autoRetainEntry k) s = .next (s.after (((s.dev.clampDom k.val).setPd k.val .retain).bump (F.pitPdRetainCnt_count k.val)))) ∧
  (∀ (s : State) (k : Fin 64), s.dev.powered = true → s.dev.pdSt k.val = .retain → k.val ≠ 50 →
    exec (.retainWake k true) s = .next (s.after (s.dev.setPd k.val .on)) ∧
    exec (.retainWake k false) s = .next (s.after (((s.dev.setPd k.val .on).restoreState (domainBlock k.val)).raise 259)))

/-! ### Bivouac, resumption and the twin (18) -/

/-- A Bivouac runs its course: a power-fail warning or a rail's trip starts it with its trigger (R607, R608), the end of the drain or of its budget closes the node, acts on the errors the write-back meets, writes the image and the seals and enters the hold (R186, R608, R610, R612), power that returns before it is lost starts a pitch and raises F268 (R614). -/
def Obligations.BivouacCommandsComplete : Prop :=
  (∀ (s : State) (r : MainRail), s.dev.pins.main = true → s.dev.bvc.phase = BvcPhase.none → s.dev.limited = false → s.dev.complete = true → 8 ≤ s.dev.pitStep →
    ((s.dev.bvcStart 0).bvc.noSeal = false → exec .pwrfailNLow s = .next (s.after (s.dev.bvcStart 0))) ∧
    ((s.dev.bvcStart 0).bvc.noSeal = true → exec .pwrfailNLow s = .next (s.after ((((s.dev.bvcStart 0).fwtRun 16).bvcFinish [])))) ∧
    ((s.dev.bvcStart 1).bvc.noSeal = false → exec (.monitorTrip r) s = .next (s.after (s.dev.bvcStart 1))) ∧
    ((s.dev.bvcStart 1).bvc.noSeal = true → exec (.monitorTrip r) s = .next (s.after ((((s.dev.bvcStart 1).fwtRun 16).bvcFinish []))))) ∧
  (∀ (s : State) (bad : List BadUnit) (b : Bool) (d e f : Dev), s.dev.bvc.phase = BvcPhase.drain → (b = true ∨ s.dev.postedHeld = 0) → d = s.dev.bvcClose → d.bvc.noSeal = false → e = (d.each bad (fun d b => if b.crc then d.crcPage b.addr else d.ueUnit b.addr)).fwtRun 16 → e.bvc.noSeal = false →
    f = e.writeBack.writeSeal.holdEntry → f.bvc.trigger ≠ 2 →
    exec (if b then .bivouacBudgetExpiry bad else .bivouacDrainEnd bad) s = .next (s.after { f with bvc := { f.bvc with phase := .held } })) ∧
  (∀ s : State, s.dev.pins.main = true → s.dev.bvc.phase = BvcPhase.held → exec .returnWithoutLoss s = .next (s.after ((s.dev.pitchStart 0 false).raise 268)))

/-- The resume token and the end of a suspension: a token is stored with a record of zeros and its bit set when it is not 0 (R618), the first value presented in step 13 of a warm pitch resumes when it is the held token and discards otherwise, with its cause (R619, R647), the tenants are pitched in ascending order and the resumption is recorded (R620), a discard initialises the tag tables, sets every warm register but those R621 keeps to its cold value and raises F266. -/
def Obligations.ResumptionCommandsComplete : Prop :=
  (∀ (s : State) (x : W64), s.dev.ready R.pitResumeToken = true →
    exec (.resumeTokenWrite .pf x) s = .next (s.after
      (({ s.dev.logged (mgrWrite8 R.pitResumeToken 0#64) 1024 0#64 0#64 with
          bvc := { (s.dev.logged (mgrWrite8 R.pitResumeToken 0#64) 1024 0#64 0#64).bvc with token := x } } : Dev).sb F.pitResumeStatus_token_set (decide (x ≠ 0#64))))) ∧
  (∀ (s : State) (x : W64), s.dev.ready R.pitResume = true → s.dev.awaitsToken = true → s.dev.tokenCause x = 0 →
    exec (.resume .pf x) s = .next (s.after ((s.dev.logged (mgrWrite8 R.pitResume x) 1024 0#64 0#64).endsSuspension 2 0))) ∧
  (∀ (s : State) (x : W64) (r : Nat), s.dev.ready R.pitResume = true → s.dev.awaitsToken = true → s.dev.tokenCause x = r → r ≠ 0 →
    exec (.resume .pf x) s = .next (s.after ((s.dev.logged (mgrWrite8 R.pitResume x) 1024 0#64 0#64).endsSuspension 4 r))) ∧
  (∀ s : State, s.dev.ready R.pitResumeCtl = true → s.dev.awaitsToken = true →
    exec (.resumeDiscard .pf 15#8) s = .next (s.after ((s.dev.logged (mgrWrite R.pitResumeCtl 1#32) 1024 0#64 0#64).endsSuspension 4 2))) ∧
  (∀ s : State, s.dev.powered = true → s.dev.g F.pitResumeStatus_state = 2 → ((s.dev.each s.dev.suspendedInsts (fun d n => d.is n 0 1 1)).step14 3 s.dev.suspendedInsts.length).gb F.pitTwinCmdStatus_busy = false →
    exec .resumptionComplete s = .next (s.after ((s.dev.each s.dev.suspendedInsts (fun d n => d.is n 0 1 1)).step14 3 s.dev.suspendedInsts.length))) ∧
  (∀ (s : State) (c d e f : Dev), s.dev.powered = true → s.dev.g F.pitResumeStatus_state = 4 → c = s.dev.tagsInit.clearTables → d = { c with regs := c.regs.filter (fun e : Nat × W64 => !discardReg e.1) } →
    e = (({ d with bvc := { d.bvc with token := 0#64 }, twin := { d.twin with active := d.twin.active && decide (fieldOf (s.dev.rd R.pitTwinStatus) 2 0 = 2) } } : Dev).wr R.pitResumeStatus (s.dev.rd R.pitResumeStatus)).sb F.pitResumeStatus_token_set false →
    f = ((e.wr R.pitTwinStatus (s.dev.rd R.pitTwinStatus)).sb F.pitTwinStatus_image_ok false).ratesNow →
    exec .discardComplete s = .next (s.after ((f.step14 5 0).raise 266)))

/-- The messages of a twin pair have their effect on the member that takes them: a Hello of a fitting peer is noted and acted on by the roles (R624, R626), a Delta joins the staging of its epoch, a matching Commit applies it and is acknowledged (R631, R633), an acknowledged epoch moves the boundary and its counter (R632), a rejected one re-forms the pair. -/
def Obligations.TwinMessagesComplete : Prop :=
  (∀ (s : State) (h : TwinHello) (d : Dev), d = (s.dev.shadowTake (twinHelloBytes h)).twinHeard → s.dev.powered = true → (s.dev.shadowTake (twinHelloBytes h)).twinMember = true → h.version = 1#8 →
    h.sv8.toNat = d.sizeLvl 8 → h.sv10.toNat = d.sizeLvl 16 → h.role ≠ 2#8 → d.role = 1 →
    exec (.shadowHello h) s = .next (s.after (({ d with twin := { d.twin with peer := some h } } : Dev).rankPair h))) ∧
  (∀ (s : State) (h : TwinHello) (d : Dev), d = (s.dev.shadowTake (twinHelloBytes h)).twinHeard → s.dev.powered = true → (s.dev.shadowTake (twinHelloBytes h)).twinMember = true → h.version = 1#8 →
    h.sv8.toNat = d.sizeLvl 8 → h.sv10.toNat = d.sizeLvl 16 → h.role = 2#8 → d.role = 3 →
    exec (.shadowHello h) s = .next (s.after (({ d with twin := { d.twin with peer := some h } } : Dev).beStandby h))) ∧
  (∀ (s : State) (v : BitVec 8) (n : W64) (es : List DeltaEnt) (d : Dev), d = (s.dev.shadowTake (deltaBytes n es)).twinHeard → s.dev.powered = true → (s.dev.shadowTake (deltaBytes n es)).twinMember = true → v = 1#8 → d.role = 3 → d.stagingNow.num = n →
    exec (.delta v n es) s = .next (s.after (({ d with twin := { d.twin with staging := some { d.stagingNow with ents := d.stagingNow.ents ++ es } } } : Dev).stoMove 3 (64 * es.length)))) ∧
  (∀ (s : State) (c : TwinCommit) (d : Dev), d = (s.dev.shadowTake (commitBytes c.epoch c.entries.toNat c.crc c.boundary c.tally)).twinHeard → s.dev.powered = true →
    (s.dev.shadowTake (commitBytes c.epoch c.entries.toNat c.crc c.boundary c.tally)).twinMember = true → c.version = 1#8 → d.role = 3 →
    d.stagingNow.num = c.epoch → d.stagingNow.ents.length = c.entries.toNat → epochCrc d.stagingNow.ents = c.crc →
    exec (.commit c) s = .next (s.after ((d.applyEpoch { d.stagingNow with closed := true, boundary := c.boundary, tally := c.tally }).shadowSend (shadowAckBytes c.epoch false)))) ∧
  (∀ (s : State) (v : BitVec 8) (n : W64) (d : Dev) (e : Epoch), d = (s.dev.shadowTake (shadowAckBytes n false)).twinHeard → s.dev.powered = true → (s.dev.shadowTake (shadowAckBytes n false)).twinMember = true → v = 1#8 → d.role = 2 →
    d.twin.unacked.find? (fun e => e.num = n) = some e → n ≠ 0#64 →
    exec (.shadowAck v n false) s = .next (s.after
      ((((({ d with twin := { d.twin with unacked := d.twin.unacked.filter (fun x => n.toNat < x.num.toNat) } } : Dev).wr R.pitTwinAcked n).wr R.pitTwinBoundary e.boundary).bump F.pitCntEpochs_count).sb F.pitTwinStatus_peer_ok true))) ∧
  (∀ (s : State) (v : BitVec 8) (n : W64) (d : Dev), d = (s.dev.shadowTake (shadowAckBytes n true)).twinHeard → s.dev.powered = true → (s.dev.shadowTake (shadowAckBytes n true)).twinMember = true → v = 1#8 → d.role = 2 →
    exec (.shadowAck v n true) s = .next (s.after ((d.bump F.pitCntRejected_count).reform 0 hwPit)))

/-- The timers of a twin pair have their effect: Hellos are sent until the peer is good (R624), an open epoch closes with its Commit (R631), the lease is renewed or asked for (R629), an active node without cover becomes orphan and ends its tenants with F272 (R630), a silent active loses its role (R634), the witness's quiet period ends (R629). -/
def Obligations.TwinTimersComplete : Prop :=
  (∀ s : State, s.dev.powered = true → s.dev.twinMember = true → s.dev.fp7Open = true → s.dev.gb F.pitTwinStatus_peer_ok = false → s.dev.role = 1 ∨ s.dev.role = 2 ∨ s.dev.role = 3 →
    exec .twinHelloInterval s = .next (s.after s.dev.sendTwinHello)) ∧
  (∀ s : State, s.dev.powered = true → s.dev.twinMember = true → s.dev.role = 1 → s.dev.fp7Open = true → s.dev.ded 7 7 + s.dev.sharedCr 7 = 0 → exec .twinCreditTimeout s = .next (s.after (s.dev.raise 269))) ∧
  (∀ (s : State) (e x : Epoch) (d : Dev), s.dev.powered = true → s.dev.twin.open_ = some e → s.dev.role = 2 → x = { e with closed := true, boundary := s.dev.rd R.clgHead, tally := s.dev.tally } →
    d = ({ s.dev with twin := { s.dev.twin with unacked := s.dev.twin.unacked ++ [x], open_ := some ⟨x.num + 1, [], false, 0#64, 0#64⟩ } } : Dev).wr R.pitTwinEpoch x.num → d.twinBytes ≤ 3071 * 2 ^ 20 →
    exec .epochClose s = .next (s.after
      ((d.each (deltas (x.ents.length + 1) x.ents) (fun d c => d.shadowSend (deltaBytes x.num c))).shadowSend (commitBytes x.num x.ents.length (epochCrc x.ents) x.boundary x.tally)))) ∧
  (∀ (s : State) (w : Addr), s.dev.powered = true → s.dev.role = 2 → s.dev.gb F.pitTwinStatus_lease_held = true → s.dev.twinWitness = some w → s.dev.twinAsking = false →
    exec .twinRenew s = .next (s.after (s.dev.twinAsk 0x12 w))) ∧
  (∀ s : State, s.dev.powered = true → s.dev.role = 2 → s.dev.gb F.pitTwinStatus_lease_held = false → exec .twinRenew s = .next (s.after s.dev.askHold)) ∧
  (∀ (s : State) (d : Dev), s.dev.powered = true → s.dev.role = 2 → s.dev.covered = false → d = ((s.dev.setRole 5 3 hwPit).sb F.pitTwinStatus_lease_held false).sb F.pitTwinStatus_peer_ok false →
    exec .orphan s = .next (s.after (d.endTenants.raise 272))) ∧
  (∀ (s : State) (d : Dev), s.dev.powered = true → s.dev.role = 3 → s.dev.linkState 7 = 0 → d = ((s.dev.setRole 4 4 hwPit).sb F.pitTwinStatus_peer_ok false).raise 269 →
    (d.gb F.pitTwinStatus_image_ok = true → exec .activeLost s = .next (s.after d.askHold)) ∧ (d.gb F.pitTwinStatus_image_ok = false → exec .activeLost s = .next (s.after d))) ∧
  (∀ s : State, s.dev.powered = true → exec .witnessQuietEnd s = .next (s.after { s.dev with twin := { s.dev.twin with quiet := false } }))

/-- The manager's twin commands complete: the witness's address is stored, a resume, a take-over or a re-form that passes its check is recorded and done, one that does not reports its result (R636, R637, R640), a read position takes a snapshot and a read of the last word moves it on (R638). -/
def Obligations.TwinCommandsComplete : Prop :=
  (∀ (s : State) (x : W32) (d : Dev), d = (s.dev.logged (mgrWrite R.pitTwinWitness x) (1024 * b2n (decide (s.dev.rd R.pitTwinWitness = x.setWidth 64))) (s.dev.rd R.pitTwinWitness) (x.setWidth 64)).wr R.pitTwinWitness (x.setWidth 64) →
    s.dev.ready R.pitTwinWitness = true → x.toNat < 8192 →
    (d.role ≠ 1 → d.role ≠ 2 → exec (.twinWitnessWrite .pf 15#8 x) s = .next (s.after d)) ∧
    (d.role = 2 → d.gb F.pitTwinStatus_lease_held = false → exec (.twinWitnessWrite .pf 15#8 x) s = .next (s.after d.askHold))) ∧
  (∀ (s : State) (op : Nat) (c : Instr), (op, c) ∈ [(0, Instr.twinResume .pf 15#8), (1, .twinTakeOver .pf 15#8), (2, .twinReform .pf 15#8)] → s.dev.ready R.pitTwinCmd = true → s.dev.twinCheck op = none →
    exec c s = .next (s.after ((s.dev.logged (mgrWrite R.pitTwinCmd (BitVec.ofNat 32 op)) 1024 0#64 0#64).twinDo op))) ∧
  (∀ (s : State) (op r : Nat) (c : Instr), (op, c) ∈ [(0, Instr.twinResume .pf 15#8), (1, .twinTakeOver .pf 15#8), (2, .twinReform .pf 15#8)] → s.dev.ready R.pitTwinCmd = true → s.dev.twinCheck op = some r →
    exec c s = .next (s.after ((s.dev.logged (mgrWrite R.pitTwinCmd (BitVec.ofNat 32 op)) 1 0#64 0#64).s F.pitTwinCmdStatus_result r))) ∧
  (∀ (s : State) (x : W64), s.dev.ready R.pitTwinRdSeq = true →
    exec (.twinRdSeqWrite .pf x) s = .next (s.after
      (((s.dev.logged (mgrWrite8 R.pitTwinRdSeq x) (1024 * b2n (decide (s.dev.rd R.pitTwinRdSeq = x))) (s.dev.rd R.pitTwinRdSeq) x).wr R.pitTwinRdSeq x).twinSnap))) ∧
  (∀ s : State, s.dev.reaches (R.pitTwinRdRec 7 + 4) = true →
    exec (.twinRdRecAdvance .pf) s = .next (s.after
      (s.dev.twinAdvance.emit (.rdata 0 (bytesLE 4 ((s.dev.peek (R.pitTwinRdRec 7 + 4) false).getD 0#64).toNat) false))))
end

