-- ==== Sys2Proof/Laws/Map.lean ====
section
/-! SUPPORT. Sparse tables: reading after a change, and that every operation keeps the canonical form. -/
namespace Sys2Proof.Machine

variable {α : Type}

theorem SMap.rising_mono {m : SMap α} {lo lo' : Nat} (hl : lo' ≤ lo) (h : m.rising lo = true) : m.rising lo' = true := by
  cases m with
  | nil => rfl
  | cons e t =>
    simp only [SMap.rising, Bool.and_eq_true, decide_eq_true_eq] at h ⊢
    exact ⟨Nat.le_trans hl h.1, h.2⟩

theorem SMap.ins_rising {m : SMap α} {lo k : Nat} (v : α) (hk : lo ≤ k) (h : m.rising lo = true) : (m.ins k v).rising lo = true := by
  induction m generalizing lo with
  | nil => simp [SMap.ins, SMap.rising, hk]
  | cons e t ih =>
    obtain ⟨j, w⟩ := e
    simp only [SMap.rising, Bool.and_eq_true, decide_eq_true_eq] at h
    unfold SMap.ins
    split
    · simp only [SMap.rising, Bool.and_eq_true, decide_eq_true_eq]; exact ⟨hk, by omega, h.2⟩
    · split
      · rename_i e; subst e; simp only [SMap.rising, Bool.and_eq_true, decide_eq_true_eq]; exact h
      · simp only [SMap.rising, Bool.and_eq_true, decide_eq_true_eq]; exact ⟨h.1, ih (by omega) h.2⟩

theorem SMap.filter_rising {m : SMap α} {lo : Nat} (p : Nat × α → Bool) (h : m.rising lo = true) : SMap.rising (m.filter p) lo = true := by
  induction m generalizing lo with
  | nil => rfl
  | cons e t ih =>
    obtain ⟨j, w⟩ := e
    simp only [SMap.rising, Bool.and_eq_true, decide_eq_true_eq] at h
    by_cases hp : p (j, w) = true
    · simp only [List.filter, hp, SMap.rising, Bool.and_eq_true, decide_eq_true_eq]; exact ⟨h.1, ih h.2⟩
    · simp only [List.filter, hp]; exact SMap.rising_mono (by omega) (ih h.2)

theorem SMap.del_rising {m : SMap α} {lo : Nat} (k : Nat) (h : m.rising lo = true) : (m.del k).rising lo = true := by
  induction m generalizing lo with
  | nil => rfl
  | cons e t ih =>
    obtain ⟨j, w⟩ := e
    simp only [SMap.rising, Bool.and_eq_true, decide_eq_true_eq] at h
    unfold SMap.del
    split
    · simp only [SMap.rising, Bool.and_eq_true, decide_eq_true_eq]; exact h
    · split
      · exact SMap.rising_mono (by omega) h.2
      · simp only [SMap.rising, Bool.and_eq_true, decide_eq_true_eq]; exact ⟨h.1, ih h.2⟩

theorem SMap.ins_wf {m : SMap α} (k : Nat) (v : α) (h : m.wf = true) : (m.ins k v).wf = true := ins_rising v (Nat.zero_le k) h

theorem SMap.del_wf {m : SMap α} (k : Nat) (h : m.wf = true) : (m.del k).wf = true := del_rising k h

theorem SMap.filter_wf {m : SMap α} (p : Nat × α → Bool) (h : m.wf = true) : SMap.wf (m.filter p) = true := filter_rising p h

/-- Writing one key of a table in canonical form keeps the form. -/
theorem SMap.put_canon [DecidableEq α] {m : SMap α} {dv : α} (k : Nat) (v : α) (h : m.canon dv = true) : (m.put dv k v).canon dv = true := by
  simp only [SMap.canon, Bool.and_eq_true] at h ⊢
  unfold SMap.put
  split
  · refine ⟨SMap.del_wf k h.1, ?_⟩
    rw [List.all_eq_true] at *
    have hs : ∀ t : SMap α, ∀ e ∈ t.del k, e ∈ t := by
      intro t; induction t with
      | nil => intro e he; exact he
      | cons a t ih =>
        intro e he; unfold SMap.del at he; split at he
        · exact he
        · split at he
          · exact List.mem_cons_of_mem _ he
          · rcases List.mem_cons.1 he with h1 | h1
            · exact h1 ▸ List.mem_cons_self ..
            · exact List.mem_cons_of_mem _ (ih e h1)
    exact fun e he => h.2 e (hs m e he)
  · rename_i hv
    refine ⟨SMap.ins_wf k v h.1, ?_⟩
    rw [List.all_eq_true] at *
    have hs : ∀ t : SMap α, ∀ e ∈ t.ins k v, e = (k, v) ∨ e ∈ t := by
      intro t; induction t with
      | nil => intro e he; simp only [SMap.ins, List.mem_singleton] at he; exact .inl he
      | cons a t ih =>
        intro e he; unfold SMap.ins at he; split at he
        · rcases List.mem_cons.1 he with h1 | h1
          · exact .inl h1
          · exact .inr h1
        · split at he
          · rcases List.mem_cons.1 he with h1 | h1
            · exact .inl h1
            · exact .inr (List.mem_cons_of_mem _ h1)
          · rcases List.mem_cons.1 he with h1 | h1
            · exact .inr (h1 ▸ List.mem_cons_self ..)
            · rcases ih e h1 with h2 | h2
              · exact .inl h2
              · exact .inr (List.mem_cons_of_mem _ h2)
    intro e he
    rcases hs m e he with h1 | h1
    · subst h1; simpa using hv
    · exact h.2 e h1

/-- Dropping entries of a table in canonical form keeps the form. -/
theorem SMap.filter_canon [DecidableEq α] {m : SMap α} {dv : α} (p : Nat × α → Bool) (h : m.canon dv = true) : SMap.canon (m.filter p) dv = true := by
  simp only [SMap.canon, Bool.and_eq_true] at h ⊢
  refine ⟨SMap.filter_wf p h.1, ?_⟩
  rw [List.all_eq_true] at *
  exact fun e he => h.2 e (List.mem_filter.1 he).1

/-- The entry just stored is found. -/
@[simp] theorem SMap.find?_ins_self (m : SMap α) (k : Nat) (v : α) : (m.ins k v).find? k = some v := by
  induction m with
  | nil => simp [SMap.ins, SMap.find?]
  | cons e t ih =>
    obtain ⟨j, w⟩ := e
    unfold SMap.ins
    split
    · simp [SMap.find?]
    · split
      · simp [SMap.find?]
      · unfold SMap.find?; split
        · omega
        · simp [*]

/-- Storing one key leaves every other key of a canonical table alone. -/
theorem SMap.find?_ins_ne {m : SMap α} {k j : Nat} (v : α) (hne : j ≠ k) : (m.ins k v).find? j = m.find? j := by
  induction m with
  | nil => simp only [SMap.ins, SMap.find?]; split <;> simp_all
  | cons e t ih =>
    obtain ⟨i, w⟩ := e
    unfold SMap.ins
    split
    · simp only [SMap.find?]; split
      · omega
      · split
        · split
          · omega
          · split
            · rfl
            · omega
        · rfl
    · split
      · rename_i e; subst e; simp only [SMap.find?]; split
        · omega
        · split <;> simp_all
      · simp only [SMap.find?, ih]

/-- The value just stored is read back. -/
@[simp] theorem SMap.lk_ins_self (m : SMap α) (dv : α) (k : Nat) (v : α) : (m.ins k v).lk dv k = v := by simp [SMap.lk]

theorem SMap.lk_ins_ne {m : SMap α} {dv : α} {k j : Nat} (v : α) (hne : j ≠ k) : (m.ins k v).lk dv j = m.lk dv j := by
  simp [SMap.lk, SMap.find?_ins_ne v hne]

end Sys2Proof.Machine
end

