-- ==== Sys2Proof/Laws/Kept.lean ====
section
/-! SUPPORT. The relation `Kept` and the operations that change what it speaks of; the other files Laws/Kept*.lean show, function by function, that every operation on the device keeps it. -/
namespace Sys2Proof.Machine

theorem Kept.refl (d : Dev) : Kept d d := ⟨rfl, Nat.le_refl _, Nat.le_refl _, List.prefix_refl _, id, id⟩

theorem Kept.trans {a b c : Dev} (h : Kept a b) (k : Kept b c) : Kept a c :=
  ⟨k.serial.trans h.serial, Nat.le_trans h.now k.now, Nat.le_trans h.free k.free, h.out.trans k.out, fun x => k.regs (h.regs x), fun x => k.mem (h.mem x)⟩

/-- A step that keeps keeps soundness. -/
theorem Kept.sound {a b : Dev} (h : Kept a b) (hs : a.sound = true) : b.sound = true := by
  simp only [Dev.sound, Bool.and_eq_true] at hs ⊢
  exact ⟨h.regs hs.1, h.mem hs.2⟩

/-- A change of fields that `Kept` does not speak of. -/
theorem kept_same {a X : Dev} {emb pins pit pd sto ports net trn hst win iso lic fwt clg bvc twin held codes} :
    Kept a ⟨X.regs, emb, pins, pit, pd, sto, ports, net, trn, hst, win, X.ins, iso, lic, fwt, clg, bvc, twin, held, X.out, X.free, X.now, X.serial, codes⟩ ↔ Kept a X :=
  ⟨fun h => ⟨h.serial, h.now, h.free, h.out, h.regs, h.mem⟩, fun h => ⟨h.serial, h.now, h.free, h.out, h.regs, h.mem⟩⟩

/-- A change of the instances' tables beside the commons memory. -/
theorem kept_ins {a X : Dev} {emb pins pit pd sto ports net trn hst win iso lic fwt clg bvc twin held codes desc wseq mbx mbxErr msgOvf flr cmd refused waitUs} :
    Kept a ⟨X.regs, emb, pins, pit, pd, sto, ports, net, trn, hst, win, ⟨desc, wseq, mbx, mbxErr, msgOvf, X.ins.mem, flr, cmd, refused, waitUs⟩, iso, lic, fwt, clg, bvc, twin, held, X.out, X.free, X.now, X.serial, codes⟩ ↔ Kept a X :=
  ⟨fun h => ⟨h.serial, h.now, h.free, h.out, h.regs, h.mem⟩, fun h => ⟨h.serial, h.now, h.free, h.out, h.regs, h.mem⟩⟩

/-- Registers that a reset puts back. -/
theorem kept_filter {a X : Dev} (h : Kept a X) {p : Nat × W64 → Bool} {emb pins pit pd sto ports net trn hst win iso lic fwt clg bvc twin held codes} :
    Kept a ⟨X.regs.filter p, emb, pins, pit, pd, sto, ports, net, trn, hst, win, X.ins, iso, lic, fwt, clg, bvc, twin, held, X.out, X.free, X.now, X.serial, codes⟩ :=
  ⟨h.serial, h.now, h.free, h.out, fun x => SMap.filter_wf p (h.regs x), h.mem⟩

theorem kept_ite {a x y : Dev} {c : Prop} [Decidable c] (hx : Kept a x) (hy : Kept a y) : Kept a (if c then x else y) := by
  split
  · exact hx
  · exact hy

theorem kept_each {β : Type} {a d : Dev} (l : List β) (f : Dev → β → Dev) (hf : ∀ d x, Kept a d → Kept a (f d x)) (h : Kept a d) : Kept a (d.each l f) := by
  unfold Dev.each
  induction l generalizing d with
  | nil => exact h
  | cons x t ih => exact ih (hf d x h)

theorem kept_foldl {β : Type} {a d : Dev} (l : List β) (f : Dev → β → Dev) (hf : ∀ d x, Kept a d → Kept a (f d x)) (h : Kept a d) : Kept a (l.foldl f d) :=
  kept_each l f hf h

theorem kept_foldl_fst {β γ : Type} {a : Dev} (l : List β) (f : Dev × γ → β → Dev × γ) (p : Dev × γ) (hf : ∀ p x, Kept a p.1 → Kept a (f p x).1) (h : Kept a p.1) : Kept a (l.foldl f p).1 := by
  induction l generalizing p with
  | nil => exact h
  | cons x t ih => exact ih (f p x) (hf p x h)

theorem kept_foldl_snd {β γ : Type} {a : Dev} (l : List β) (f : γ × Dev → β → γ × Dev) (p : γ × Dev) (hf : ∀ p x, Kept a p.2 → Kept a (f p x).2) (h : Kept a p.2) : Kept a (l.foldl f p).2 := by
  induction l generalizing p with
  | nil => exact h
  | cons x t ih => exact ih (f p x) (hf p x h)

theorem kept_whenD {a d : Dev} (c : Bool) (f : Dev → Dev) (hf : ∀ d, Kept a d → Kept a (f d)) (h : Kept a d) : Kept a (d.whenD c f) := by
  unfold Dev.whenD
  split
  · exact hf d h
  · exact h

/-! ### The operations that change what `Kept` speaks of -/

theorem Dev.wr_kept {a d : Dev} (h : Kept a d) (off : Nat) (v : W64) : Kept a (d.wr off v) :=
  ⟨h.serial, h.now, h.free, h.out, fun x => SMap.ins_wf off v (h.regs x), h.mem⟩

theorem Dev.unset_kept {a d : Dev} (h : Kept a d) (off : Nat) : Kept a (d.unset off) :=
  ⟨h.serial, h.now, h.free, h.out, fun x => SMap.del_wf off (h.regs x), h.mem⟩

theorem Dev.takeFree_kept {a d : Dev} (h : Kept a d) : Kept a d.takeFree.2 :=
  ⟨h.serial, h.now, Nat.le_trans h.free (Nat.le_succ _), h.out, h.regs, h.mem⟩

theorem Dev.takeFrees_kept {a d : Dev} (h : Kept a d) (n : Nat) : Kept a (d.takeFrees n).2 :=
  ⟨h.serial, h.now, Nat.le_trans h.free (Nat.le_add_right _ n), h.out, h.regs, h.mem⟩

theorem Dev.emit_kept {a d : Dev} (h : Kept a d) (o : Out) : Kept a (d.emit o) :=
  ⟨h.serial, h.now, h.free, h.out.trans (List.prefix_append _ _), h.regs, h.mem⟩

theorem Dev.memWr_kept {a d : Dev} (h : Kept a d) (i : Nat) (b : Byte) : Kept a (d.memWr i b) :=
  ⟨h.serial, h.now, h.free, h.out, h.regs, fun x => SMap.put_canon i b (h.mem x)⟩

theorem kept_id {a d : Dev} (h : Kept a d) : Kept a (id d) := h

/-- The effect of a judged write keeps, whatever the judgement. -/
structure WOut.Keeps (o : WOut) : Prop where
  eff : match o with
    | .ok _ _ _ _ eff | .badEff _ eff | .group _ _ _ _ eff => ∀ a d, Kept a d → Kept a (eff d)
    | .bad _ _ _ | .none | .unmapped => True

theorem WOut.ok_keeps {old new : W64} {rs ex : Bool} {eff : Dev → Dev} (h : ∀ a d, Kept a d → Kept a (eff d)) : (WOut.ok old new rs ex eff).Keeps := ⟨h⟩

theorem WOut.badEff_keeps {old : W64} {eff : Dev → Dev} (h : ∀ a d, Kept a d → Kept a (eff d)) : (WOut.badEff old eff).Keeps := ⟨h⟩

theorem WOut.group_keeps {sp tgt : Nat} {olds news : List W64} {eff : Dev → Dev} (h : ∀ a d, Kept a d → Kept a (eff d)) : (WOut.group sp tgt olds news eff).Keeps := ⟨h⟩

theorem keeps_ite {c : Prop} [Decidable c] {x y : WOut} (hx : x.Keeps) (hy : y.Keeps) : (if c then x else y).Keeps := by
  split
  · exact hx
  · exact hy

theorem WOut.bad_keeps {old : W64} {rs ex : Bool} : (WOut.bad old rs ex).Keeps := ⟨trivial⟩

theorem WOut.none_keeps : WOut.none.Keeps := ⟨trivial⟩

theorem WOut.unmapped_keeps : WOut.unmapped.Keeps := ⟨trivial⟩

theorem WOut.of_ok {o : WOut} {old new : W64} {rs ex : Bool} {eff : Dev → Dev} (hk : o.Keeps) (he : o = .ok old new rs ex eff) {a d : Dev} (h : Kept a d) : Kept a (eff d) := by
  subst he; exact hk.eff a d h

theorem WOut.of_badEff {o : WOut} {old : W64} {eff : Dev → Dev} (hk : o.Keeps) (he : o = .badEff old eff) {a d : Dev} (h : Kept a d) : Kept a (eff d) := by
  subst he; exact hk.eff a d h

end Sys2Proof.Machine
end

