-- ==== Sys2Proof/Laws/KeptOps.lean ====
section
/-! SUPPORT. `Kept` over the shared operations, packets, isolation, holds and the path to host memory: one lemma per function. -/
namespace Sys2Proof.Machine

theorem Dev.s_kept {a d : Dev} (h : Kept a d) (f : Fld) (x : Nat) : Kept a (Dev.s d f x) := by
  unfold Dev.s
  repeat' (first | with_reducible assumption | with_reducible apply Dev.wr_kept)

theorem Dev.sb_kept {a d : Dev} (h : Kept a d) (f : Fld) (b : Bool) : Kept a (Dev.sb d f b) := by
  unfold Dev.sb
  repeat' (first | with_reducible assumption | with_reducible apply Dev.s_kept)

theorem Dev.bumpBy_kept {a d : Dev} (h : Kept a d) (f : Fld) (k : Nat) : Kept a (Dev.bumpBy d f k) := by
  unfold Dev.bumpBy
  repeat' (first | with_reducible assumption | with_reducible apply Dev.s_kept)

theorem Dev.bump_kept {a d : Dev} (h : Kept a d) (f : Fld) : Kept a (Dev.bump d f) := by
  unfold Dev.bump
  repeat' (first | with_reducible assumption | with_reducible apply Dev.bumpBy_kept)

theorem Dev.setBkp_kept {a d : Dev} (h : Kept a d) (i : Nat) (x : Nat) : Kept a (Dev.setBkp d i x) := by
  unfold Dev.setBkp
  try dsimp only
  repeat' (first | with_reducible assumption | with_reducible apply Dev.wr_kept)

theorem Dev.setBkpW_kept {a d : Dev} (h : Kept a d) (w : Nat) (x : W32) : Kept a (Dev.setBkpW d w x) := by
  unfold Dev.setBkpW
  repeat' (first | with_reducible assumption | with_reducible apply Dev.wr_kept)

theorem Dev.stamp_kept {a d : Dev} (h : Kept a d) (n : Nat) : Kept a (Dev.stamp d n) := by
  unfold Dev.stamp
  repeat' (first | with_reducible assumption | with_reducible apply Dev.wr_kept | with_reducible apply kept_ite | split)

theorem Dev.setPd_kept {a d : Dev} (h : Kept a d) (k : Nat) (x : PdSt) : Kept a (Dev.setPd d k x) := by
  unfold Dev.setPd
  repeat' (first | with_reducible assumption | simp only [kept_same])

theorem Dev.touch_kept {a d : Dev} (h : Kept a d) (lo : Nat) (hi : Nat) : Kept a (Dev.touch d lo hi) := by
  unfold Dev.touch
  try dsimp only
  repeat' (first | with_reducible assumption | intro _ _ _ | intro _ _ | intro _ | with_reducible apply kept_ite | simp only [kept_same] | split)

theorem Dev.stoMove_kept {a d : Dev} (h : Kept a d) (c : Nat) (n : Nat) : Kept a (Dev.stoMove d c n) := by
  unfold Dev.stoMove
  repeat' (first | with_reducible assumption | with_reducible apply Dev.wr_kept)

theorem Dev.setIdesc_kept {a d : Dev} (h : Kept a d) (n : Nat) (w : List W64) : Kept a (Dev.setIdesc d n w) := by
  unfold Dev.setIdesc
  repeat' (first | with_reducible assumption | with_reducible apply Dev.stoMove_kept | simp only [kept_ins])

theorem Dev.is_kept {a d : Dev} (h : Kept a d) (n : Nat) (off : Nat) (len : Nat) (x : Nat) : Kept a (Dev.is d n off len x) := by
  unfold Dev.is
  repeat' (first | with_reducible assumption | with_reducible apply Dev.setIdesc_kept)

theorem Dev.isFlop_kept {a d : Dev} (h : Kept a d) (n : Nat) (off : Nat) (len : Nat) (x : Nat) : Kept a (Dev.isFlop d n off len x) := by
  unfold Dev.isFlop
  repeat' (first | with_reducible assumption | simp only [kept_ins])

theorem Dev.setCfg_kept {a d : Dev} (h : Kept a d) (fn : Nat) (off : Nat) (v : W32) : Kept a (Dev.setCfg d fn off v) := by
  unfold Dev.setCfg
  repeat' (first | with_reducible assumption | simp only [kept_same])

theorem Dev.setCfgBit_kept {a d : Dev} (h : Kept a d) (fn : Nat) (off : Nat) (i : Nat) (b : Bool) : Kept a (Dev.setCfgBit d fn off i b) := by
  unfold Dev.setCfgBit
  repeat' (first | with_reducible assumption | with_reducible apply Dev.setCfg_kept)

theorem Dev.raise_kept {a d : Dev} (h : Kept a d) (n : Nat) : Kept a (Dev.raise d n) := by
  unfold Dev.raise
  repeat' (first | with_reducible assumption | simp only [kept_same])

theorem Dev.raiseAt_kept {a d : Dev} (h : Kept a d) (n : Nat) (p : Nat) : Kept a (Dev.raiseAt d n p) := by
  unfold Dev.raiseAt
  repeat' (first | with_reducible assumption | simp only [kept_same])

theorem Dev.raiseLvl_kept {a d : Dev} (h : Kept a d) (n : Nat) : Kept a (Dev.raiseLvl d n) := by
  unfold Dev.raiseLvl
  repeat' (first | with_reducible assumption | simp only [kept_same])

theorem Dev.clearSrc_kept {a d : Dev} (h : Kept a d) (n : Nat) : Kept a (Dev.clearSrc d n) := by
  unfold Dev.clearSrc
  try dsimp only
  repeat' (first | with_reducible assumption | intro _ _ _ | intro _ _ | intro _ | with_reducible apply kept_ite | simp only [kept_same] | split)

theorem Dev.srcCond_kept {a d : Dev} (h : Kept a d) (n : Nat) (c : Bool) : Kept a (Dev.srcCond d n c) := by
  unfold Dev.srcCond
  repeat' (first | with_reducible assumption | with_reducible apply Dev.raiseLvl_kept | with_reducible apply Dev.clearSrc_kept | with_reducible apply kept_ite | split)

theorem Dev.setPend_kept {a d : Dev} (h : Kept a d) (n : Nat) (b : Bool) : Kept a (Dev.setPend d n b) := by
  unfold Dev.setPend
  try dsimp only
  repeat' (first | with_reducible assumption | with_reducible apply Dev.wr_kept)

theorem Dev.licPulse_kept {a d : Dev} (h : Kept a d) (n : Nat) : Kept a (Dev.licPulse d n) := by
  unfold Dev.licPulse
  repeat' (first | with_reducible assumption | with_reducible apply Dev.setPend_kept | with_reducible apply kept_ite | simp only [kept_same] | split)

theorem Dev.setEgress_kept {a d : Dev} (h : Kept a d) (e : Nat) (x : Egress) : Kept a (Dev.setEgress d e x) := by
  unfold Dev.setEgress
  repeat' (first | with_reducible assumption | simp only [kept_same])

theorem Dev.enqueue_kept {a d : Dev} (h : Kept a d) (e : Nat) (id : Nat) (q : QEnt) : Kept a (Dev.enqueue d e id q) := by
  unfold Dev.enqueue
  try dsimp only
  repeat' (first | with_reducible assumption | with_reducible apply Dev.touch_kept | with_reducible apply Dev.setEgress_kept | with_reducible apply kept_id | with_reducible apply kept_ite | simp only [kept_same] | split)

theorem Dev.toHost_kept {a d : Dev} (h : Kept a d) (fn : Nat) (o : Out) (size : Nat) : Kept a (Dev.toHost d fn o size) := by
  unfold Dev.toHost
  repeat' (first | with_reducible assumption | with_reducible apply Dev.enqueue_kept)

theorem Dev.completeHost_kept {a d : Dev} (h : Kept a d) (o : Out) : Kept a (Dev.completeHost d o) := by
  unfold Dev.completeHost
  repeat' (first | with_reducible assumption | with_reducible apply Dev.enqueue_kept)

theorem Dev.setPba_kept {a d : Dev} (h : Kept a d) (fn : Nat) (vec : Nat) (b : Bool) : Kept a (Dev.setPba d fn vec b) := by
  unfold Dev.setPba
  repeat' (first | with_reducible assumption | simp only [kept_same])

theorem Dev.sendMsix_kept {a d : Dev} (h : Kept a d) (fn : Nat) (vec : Nat) : Kept a (Dev.sendMsix d fn vec) := by
  unfold Dev.sendMsix
  try dsimp only
  repeat' (first | with_reducible assumption | with_reducible apply Dev.toHost_kept | with_reducible apply Dev.setPba_kept)

theorem Dev.fireVec_kept {a d : Dev} (h : Kept a d) (fn : Nat) (vec : Nat) : Kept a (Dev.fireVec d fn vec) := by
  unfold Dev.fireVec
  repeat' (first | with_reducible assumption | with_reducible apply Dev.setPba_kept | with_reducible apply Dev.sendMsix_kept | with_reducible apply kept_ite | split)

theorem Dev.attention_kept {a d : Dev} (h : Kept a d) : Kept a (Dev.attention d) := by
  unfold Dev.attention
  try dsimp only
  repeat' (first | with_reducible assumption | with_reducible apply Dev.sb_kept | with_reducible apply Dev.licPulse_kept | with_reducible apply Dev.fireVec_kept | with_reducible apply kept_whenD | intro _ _ _ | intro _ _ | intro _ | with_reducible apply kept_ite | split)

theorem Dev.clgLevels_kept {a d : Dev} (h : Kept a d) : Kept a (Dev.clgLevels d) := by
  unfold Dev.clgLevels
  try dsimp only
  repeat' (first | with_reducible assumption | with_reducible apply Dev.srcCond_kept | with_reducible apply kept_whenD | intro _ _ _ | intro _ _ | intro _ | with_reducible apply kept_ite | split)

theorem Dev.logHeader_kept {a d : Dev} (h : Kept a d) : Kept a (Dev.logHeader d) := by
  unfold Dev.logHeader
  repeat' (first | with_reducible assumption | with_reducible apply Dev.stoMove_kept | simp only [kept_same])

theorem Dev.logDropTail_kept {a d : Dev} (h : Kept a d) : Kept a (Dev.logDropTail d) := by
  unfold Dev.logDropTail
  try dsimp only
  repeat' (first | with_reducible assumption | with_reducible apply Dev.wr_kept | simp only [kept_same] | split)

theorem Dev.shadowRec_kept {a d : Dev} (h : Kept a d) (seq : W64) (ws : List W64) : Kept a (Dev.shadowRec d seq ws) := by
  unfold Dev.shadowRec
  try dsimp only
  repeat' (first | with_reducible assumption | simp only [kept_same] | split)

theorem Dev.ringWrite_kept {a d : Dev} (h : Kept a d) (r : Rec) : Kept a (Dev.ringWrite d r) := by
  unfold Dev.ringWrite
  try dsimp only
  repeat' (first | with_reducible assumption | with_reducible apply Dev.bump_kept | with_reducible apply Dev.stoMove_kept | with_reducible apply Dev.attention_kept | with_reducible apply Dev.clgLevels_kept | with_reducible apply Dev.logHeader_kept | with_reducible apply Dev.logDropTail_kept | with_reducible apply Dev.shadowRec_kept | with_reducible apply Dev.wr_kept | with_reducible apply kept_whenD | intro _ _ _ | intro _ _ | intro _ | with_reducible apply kept_ite | simp only [kept_same] | split)

theorem Dev.flushOne_kept {a d : Dev} (h : Kept a d) : Kept a (Dev.flushOne d) := by
  unfold Dev.flushOne
  try dsimp only
  repeat' (first | with_reducible assumption | with_reducible apply Dev.ringWrite_kept | simp only [kept_same] | split)

theorem Dev.flushAll_kept {a d : Dev} (h : Kept a d) : Kept a (Dev.flushAll d) := by
  unfold Dev.flushAll
  try dsimp only
  repeat' (first | with_reducible assumption | with_reducible apply Dev.flushOne_kept | with_reducible apply kept_each | intro _ _ _ | intro _ _ | intro _)

theorem Dev.stageRec_kept {a d : Dev} (h : Kept a d) (r : Rec) : Kept a (Dev.stageRec d r) := by
  unfold Dev.stageRec
  try dsimp only
  repeat' (first | with_reducible assumption | with_reducible apply Dev.flushOne_kept | with_reducible apply kept_ite | simp only [kept_same] | split)

theorem Dev.missRec_kept {a d : Dev} (h : Kept a d) (r : Rec) : Kept a (Dev.missRec d r) := by
  unfold Dev.missRec
  try dsimp only
  repeat' (first | with_reducible assumption | with_reducible apply Dev.sb_kept | with_reducible apply Dev.bump_kept | with_reducible apply Dev.raiseLvl_kept | with_reducible apply Dev.attention_kept | with_reducible apply kept_whenD | intro _ _ _ | intro _ _ | intro _ | with_reducible apply kept_ite | simp only [kept_same] | split)

theorem Dev.missedRec_kept {a d : Dev} (h : Kept a d) : Kept a (Dev.missedRec d) := by
  unfold Dev.missedRec
  try dsimp only
  repeat' (first | with_reducible assumption | with_reducible apply Dev.sb_kept | with_reducible apply Dev.clearSrc_kept | with_reducible apply Dev.stageRec_kept | with_reducible apply kept_ite | simp only [kept_same] | split)

theorem Dev.log_kept {a d : Dev} (h : Kept a d) (r : Rec) : Kept a (Dev.log d r) := by
  unfold Dev.log
  try dsimp only
  repeat' (first | with_reducible assumption | with_reducible apply Dev.stageRec_kept | with_reducible apply Dev.missRec_kept | with_reducible apply Dev.missedRec_kept | with_reducible apply kept_ite | simp only [kept_same] | split)

theorem Dev.logEv_kept {a d : Dev} (h : Kept a d) (org : Origin) (kind : Nat) (old : Nat) (new : Nat) (aux : Nat) : Kept a (Dev.logEv d org kind old new aux) := by
  unfold Dev.logEv
  repeat' (first | with_reducible assumption | with_reducible apply Dev.log_kept)

theorem Dev.holdRefuse_kept {a d : Dev} (h : Kept a d) : Kept a (Dev.holdRefuse d) := by
  unfold Dev.holdRefuse
  repeat' (first | with_reducible assumption | with_reducible apply Dev.bump_kept | with_reducible apply Dev.raise_kept | with_reducible apply Dev.attention_kept)

theorem Dev.snapWrite_kept {a d : Dev} (h : Kept a d) : Kept a (Dev.snapWrite d) := by
  unfold Dev.snapWrite
  repeat' (first | with_reducible assumption | with_reducible apply kept_ite | simp only [kept_same] | split)

theorem Dev.snapMend_kept {a d : Dev} (h : Kept a d) (one : Bool) : Kept a (Dev.snapMend d one) := by
  unfold Dev.snapMend
  repeat' (first | with_reducible assumption | with_reducible apply kept_ite | simp only [kept_same] | split)

theorem Dev.setRole_kept {a d : Dev} (h : Kept a d) (r : Nat) (code : Nat) (org : Origin) : Kept a (Dev.setRole d r code org) := by
  unfold Dev.setRole
  try dsimp only
  repeat' (first | with_reducible assumption | with_reducible apply Dev.s_kept | with_reducible apply Dev.licPulse_kept | with_reducible apply Dev.logEv_kept | with_reducible apply kept_ite | split)

theorem Dev.reform_kept {a d : Dev} (h : Kept a d) (code : Nat) (org : Origin) : Kept a (Dev.reform d code org) := by
  unfold Dev.reform
  try dsimp only
  repeat' (first | with_reducible assumption | with_reducible apply Dev.sb_kept | with_reducible apply Dev.bump_kept | with_reducible apply Dev.setRole_kept | simp only [kept_same])

theorem Dev.lostPosted_kept {a d : Dev} (h : Kept a d) (k : Nat) (n : Nat) : Kept a (Dev.lostPosted d k n) := by
  unfold Dev.lostPosted
  try dsimp only
  repeat' (first | with_reducible assumption | with_reducible apply Dev.bumpBy_kept | with_reducible apply kept_ite | simp only [kept_same] | split)

theorem Dev.clampDom_kept {a d : Dev} (h : Kept a d) (k : Nat) : Kept a (Dev.clampDom d k) := by
  unfold Dev.clampDom
  try dsimp only
  repeat' (first | with_reducible assumption | with_reducible apply Dev.clearSrc_kept | with_reducible apply Dev.wr_kept | with_reducible apply kept_each | intro _ _ _ | intro _ _ | intro _)

theorem Dev.lateRsp_kept {a d : Dev} (h : Kept a d) (raise : Bool) : Kept a (Dev.lateRsp d raise) := by
  unfold Dev.lateRsp
  try dsimp only
  repeat' (first | with_reducible assumption | with_reducible apply Dev.bump_kept | with_reducible apply Dev.raise_kept | with_reducible apply kept_whenD | intro _ _ _ | intro _ _ | intro _)

theorem Dev.sendPkt_kept {a d : Dev} (h : Kept a d) (k : Pkt) : Kept a (Dev.sendPkt d k) := by
  unfold Dev.sendPkt
  try dsimp only
  repeat' (first | with_reducible assumption | with_reducible apply Dev.bump_kept | with_reducible apply Dev.enqueue_kept | with_reducible apply Dev.lostPosted_kept | with_reducible apply kept_whenD | intro _ _ _ | intro _ _ | intro _ | with_reducible apply kept_ite | split)

theorem Dev.respond_kept {a d : Dev} (h : Kept a d) (k : Pkt) (code : Nat) (detail : Nat) (data : List Byte) (retry : Nat) (gen : BitVec 16) : Kept a (Dev.respond d k code detail data retry gen) := by
  unfold Dev.respond
  try dsimp only
  repeat' (first | with_reducible assumption | with_reducible apply Dev.bump_kept | with_reducible apply Dev.sendPkt_kept | with_reducible apply kept_whenD | intro _ _ _ | intro _ _ | intro _ | with_reducible apply kept_ite | split)

theorem Dev.answer_kept {a d : Dev} (h : Kept a d) (k : Pkt) (code : Nat) (detail : Nat) : Kept a (Dev.answer d k code detail) := by
  unfold Dev.answer
  repeat' (first | with_reducible assumption | with_reducible apply Dev.respond_kept)

theorem Dev.answerBusy_kept {a d : Dev} (h : Kept a d) (k : Pkt) (detail : Nat) (retry : Nat) : Kept a (Dev.answerBusy d k detail retry) := by
  unfold Dev.answerBusy
  repeat' (first | with_reducible assumption | with_reducible apply Dev.respond_kept)

theorem Dev.answerBusyFree_kept {a d : Dev} (h : Kept a d) (k : Pkt) (detail : Nat) : Kept a (Dev.answerBusyFree d k detail) := by
  unfold Dev.answerBusyFree
  try dsimp only
  repeat' (first | with_reducible assumption | with_reducible apply Dev.takeFree_kept | with_reducible apply Dev.answerBusy_kept)

theorem Dev.refuse_kept {a d : Dev} (h : Kept a d) (k : Pkt) (code : Nat) (detail : Nat) (f : Dev → Dev) (hf : ∀ d, Kept a d → Kept a (f d)) : Kept a (Dev.refuse d k code detail f) := by
  unfold Dev.refuse
  repeat' (first | with_reducible assumption | with_reducible apply Dev.answer_kept | with_reducible apply hf | with_reducible apply kept_ite | split)

theorem Dev.answerBack_kept {a d : Dev} (h : Kept a d) (via : Via) (k : Pkt) (detail : Nat) : Kept a (Dev.answerBack d via k detail) := by
  unfold Dev.answerBack
  try dsimp only
  repeat' (first | with_reducible assumption | with_reducible apply Dev.enqueue_kept | with_reducible apply Dev.answer_kept | split)

theorem Dev.noForward_kept {a d : Dev} (h : Kept a d) (via : Via) (vc : Nat) (k : Pkt) (detail : Nat) : Kept a (Dev.noForward d via vc k detail) := by
  unfold Dev.noForward
  try dsimp only
  repeat' (first | with_reducible assumption | with_reducible apply Dev.bump_kept | with_reducible apply Dev.raise_kept | with_reducible apply Dev.lostPosted_kept | with_reducible apply Dev.answer_kept | with_reducible apply Dev.answerBack_kept | with_reducible apply kept_ite | split)

theorem Dev.forward_kept {a d : Dev} (h : Kept a d) (via : Via) (vc : Nat) (k : Pkt) : Kept a (Dev.forward d via vc k) := by
  unfold Dev.forward
  try dsimp only
  repeat' (first | with_reducible assumption | with_reducible apply Dev.enqueue_kept | with_reducible apply Dev.noForward_kept | with_reducible apply kept_ite | simp only [kept_same] | split)

theorem Dev.pay_kept {a d : Dev} (h : Kept a d) (i : Nat) (k : Pkt) : Kept a (Dev.pay d i k) := by
  unfold Dev.pay
  try dsimp only
  repeat' (first | with_reducible assumption | with_reducible apply Dev.s_kept | with_reducible apply kept_each | intro _ _ _ | intro _ _ | intro _ | with_reducible apply kept_ite | split)

theorem Dev.spoofCount_kept {a d : Dev} (h : Kept a d) (path : Nat) (inst : Nat) (check : Nat) (posted : Bool) : Kept a (Dev.spoofCount d path inst check posted) := by
  unfold Dev.spoofCount
  try dsimp only
  repeat' (first | with_reducible assumption | with_reducible apply Dev.s_kept | with_reducible apply Dev.bump_kept | with_reducible apply Dev.raise_kept | intro _ _ _ | intro _ _ | intro _ | with_reducible apply kept_ite | simp only [kept_ins] | split)

theorem Dev.markOne_kept {a d : Dev} (h : Kept a d) (t : Nat) (tr : Tracker) (ha : Nat) : Kept a (Dev.markOne d t tr ha) := by
  unfold Dev.markOne
  try dsimp only
  repeat' (first | with_reducible assumption | with_reducible apply Dev.bump_kept | with_reducible apply Dev.stoMove_kept | intro _ _ _ | intro _ _ | intro _ | with_reducible apply kept_ite | simp only [kept_same] | split)

theorem Dev.mark_kept {a d : Dev} (h : Kept a d) (i : Nat) (ha : Nat) : Kept a (Dev.mark d i ha) := by
  unfold Dev.mark
  try dsimp only
  repeat' (first | with_reducible assumption | with_reducible apply Dev.markOne_kept | with_reducible apply kept_each | intro _ _ _ | intro _ _ | intro _ | with_reducible apply kept_ite | split)

theorem Dev.setHold_kept {a d : Dev} (h : Kept a d) (e : HoldEnt) : Kept a (Dev.setHold d e) := by
  unfold Dev.setHold
  try dsimp only
  repeat' (first | with_reducible assumption | intro _ _ _ | intro _ _ | intro _ | with_reducible apply kept_ite | simp only [kept_same] | split)

theorem Dev.dropHold_kept {a d : Dev} (h : Kept a d) (i : Nat) (a_ : W64) : Kept a (Dev.dropHold d i a_) := by
  unfold Dev.dropHold
  try dsimp only
  repeat' (first | with_reducible assumption | intro _ _ _ | intro _ _ | intro _ | simp only [kept_same])

theorem Dev.breakHold_kept {a d : Dev} (h : Kept a d) (e : HoldEnt) : Kept a (Dev.breakHold d e) := by
  unfold Dev.breakHold
  repeat' (first | with_reducible assumption | with_reducible apply Dev.bump_kept | with_reducible apply Dev.setHold_kept | simp only [kept_same])

theorem Dev.expireHold_kept {a d : Dev} (h : Kept a d) (e : HoldEnt) : Kept a (Dev.expireHold d e) := by
  unfold Dev.expireHold
  repeat' (first | with_reducible assumption | with_reducible apply Dev.bump_kept | with_reducible apply Dev.raise_kept | with_reducible apply Dev.breakHold_kept)

theorem Dev.tickHold_kept {a d : Dev} (h : Kept a d) (i : Nat) (a_ : W64) : Kept a (Dev.tickHold d i a_) := by
  unfold Dev.tickHold
  try dsimp only
  repeat' (first | with_reducible assumption | with_reducible apply Dev.expireHold_kept | with_reducible apply kept_ite | split)

theorem Dev.hacqAt_kept {a d : Dev} (h : Kept a d) (k : Pkt) : Kept a (Dev.hacqAt d k) := by
  unfold Dev.hacqAt
  try dsimp only
  repeat' (first | with_reducible assumption | with_reducible apply Dev.raise_kept | with_reducible apply Dev.answer_kept | with_reducible apply Dev.answerBusy_kept | with_reducible apply Dev.answerBusyFree_kept | with_reducible apply Dev.setHold_kept | with_reducible apply Dev.tickHold_kept | with_reducible apply kept_ite | split)

theorem Dev.hrelAt_kept {a d : Dev} (h : Kept a d) (k : Pkt) : Kept a (Dev.hrelAt d k) := by
  unfold Dev.hrelAt
  try dsimp only
  repeat' (first | with_reducible assumption | with_reducible apply Dev.answer_kept | with_reducible apply Dev.dropHold_kept | with_reducible apply Dev.tickHold_kept | with_reducible apply kept_ite | split)

theorem Dev.hrenewAt_kept {a d : Dev} (h : Kept a d) (k : Pkt) : Kept a (Dev.hrenewAt d k) := by
  unfold Dev.hrenewAt
  try dsimp only
  repeat' (first | with_reducible assumption | with_reducible apply Dev.answer_kept | with_reducible apply Dev.setHold_kept | with_reducible apply Dev.tickHold_kept | with_reducible apply kept_ite | split)

theorem Dev.hqueryAt_kept {a d : Dev} (h : Kept a d) (k : Pkt) : Kept a (Dev.hqueryAt d k) := by
  unfold Dev.hqueryAt
  try dsimp only
  repeat' (first | with_reducible assumption | with_reducible apply Dev.respond_kept | with_reducible apply Dev.tickHold_kept)

theorem Dev.hdropAt_kept {a d : Dev} (h : Kept a d) (k : Pkt) : Kept a (Dev.hdropAt d k) := by
  unfold Dev.hdropAt
  try dsimp only
  repeat' (first | with_reducible assumption | with_reducible apply Dev.bump_kept | with_reducible apply Dev.breakHold_kept | with_reducible apply kept_ite | split)

theorem Dev.holdOp_kept {a d : Dev} (h : Kept a d) (k : Pkt) : Kept a (Dev.holdOp d k) := by
  unfold Dev.holdOp
  try dsimp only
  repeat' (first | with_reducible assumption | with_reducible apply Dev.answer_kept | with_reducible apply Dev.hacqAt_kept | with_reducible apply Dev.hrelAt_kept | with_reducible apply Dev.hrenewAt_kept | with_reducible apply Dev.hqueryAt_kept | with_reducible apply kept_ite | split)

theorem Dev.ownedAfter_kept {a d : Dev} (h : Kept a d) (k : Pkt) (code : Nat) : Kept a (Dev.ownedAfter d k code) := by
  unfold Dev.ownedAfter
  try dsimp only
  repeat' (first | with_reducible assumption | intro _ _ _ | intro _ _ | intro _ | with_reducible apply kept_ite | simp only [kept_same] | split)

theorem Dev.sendHdrop_kept {a d : Dev} (h : Kept a d) (e : OwnedEnt) : Kept a (Dev.sendHdrop d e) := by
  unfold Dev.sendHdrop
  repeat' (first | with_reducible assumption | with_reducible apply Dev.bump_kept | with_reducible apply Dev.sendPkt_kept)

theorem Dev.dropOwned_kept {a d : Dev} (h : Kept a d) (i : Nat) : Kept a (Dev.dropOwned d i) := by
  unfold Dev.dropOwned
  try dsimp only
  repeat' (first | with_reducible assumption | with_reducible apply Dev.sendHdrop_kept | with_reducible apply kept_each | intro _ _ _ | intro _ _ | intro _ | simp only [kept_same])

theorem Dev.freeHome_kept {a d : Dev} (h : Kept a d) (i : Nat) : Kept a (Dev.freeHome d i) := by
  unfold Dev.freeHome
  try dsimp only
  repeat' (first | with_reducible assumption | intro _ _ _ | intro _ _ | intro _ | simp only [kept_same])

theorem Dev.breakNode_kept {a d : Dev} (h : Kept a d) (node : Nat) : Kept a (Dev.breakNode d node) := by
  unfold Dev.breakNode
  try dsimp only
  repeat' (first | with_reducible assumption | with_reducible apply Dev.breakHold_kept | with_reducible apply kept_each | intro _ _ _ | intro _ _ | intro _)

theorem Dev.orCfg_kept {a d : Dev} (h : Kept a d) (fn : Nat) (off : Nat) (i : Nat) : Kept a (Dev.orCfg d fn off i) := by
  unfold Dev.orCfg
  repeat' (first | with_reducible assumption | with_reducible apply Dev.setCfgBit_kept)

theorem Dev.errMsg_kept {a d : Dev} (h : Kept a d) (fn : Nat) (sev : Nat) : Kept a (Dev.errMsg d fn sev) := by
  unfold Dev.errMsg
  repeat' (first | with_reducible assumption | with_reducible apply Dev.emit_kept)

theorem Dev.aerCor_kept {a d : Dev} (h : Kept a d) (fn : Nat) (bit : Nat) : Kept a (Dev.aerCor d fn bit) := by
  unfold Dev.aerCor
  try dsimp only
  repeat' (first | with_reducible assumption | with_reducible apply Dev.orCfg_kept | with_reducible apply Dev.errMsg_kept | with_reducible apply kept_whenD | intro _ _ _ | intro _ _ | intro _)

theorem Dev.aerFirst_kept {a d : Dev} (h : Kept a d) (fn : Nat) (bit : Nat) : Kept a (Dev.aerFirst d fn bit) := by
  unfold Dev.aerFirst
  try dsimp only
  repeat' (first | with_reducible assumption | with_reducible apply Dev.takeFree_kept | with_reducible apply Dev.setCfg_kept | with_reducible apply kept_ite | split)

theorem Dev.aerUnc_kept {a d : Dev} (h : Kept a d) (fn : Nat) (bit : Nat) (advisory : Bool) : Kept a (Dev.aerUnc d fn bit advisory) := by
  unfold Dev.aerUnc
  try dsimp only
  repeat' (first | with_reducible assumption | with_reducible apply Dev.orCfg_kept | with_reducible apply Dev.errMsg_kept | with_reducible apply Dev.aerFirst_kept | with_reducible apply kept_whenD | intro _ _ _ | intro _ _ | intro _ | with_reducible apply kept_ite | split)

theorem Dev.aerUr_kept {a d : Dev} (h : Kept a d) (fn : Nat) (nonPosted : Bool) : Kept a (Dev.aerUr d fn nonPosted) := by
  unfold Dev.aerUr
  repeat' (first | with_reducible assumption | with_reducible apply Dev.bump_kept | with_reducible apply Dev.orCfg_kept | with_reducible apply Dev.aerUnc_kept)

theorem Dev.aerCa_kept {a d : Dev} (h : Kept a d) (fn : Nat) : Kept a (Dev.aerCa d fn) := by
  unfold Dev.aerCa
  repeat' (first | with_reducible assumption | with_reducible apply Dev.bump_kept | with_reducible apply Dev.aerUnc_kept)

theorem Dev.memWrites_kept {a d : Dev} (h : Kept a d) (a_ : Nat) (bs : List Byte) : Kept a (Dev.memWrites d a_ bs) := by
  induction bs generalizing a_ d with
  | nil => exact h
  | cons b t ih => exact ih (Dev.memWr_kept h _ _) _

theorem Dev.memStore_kept {a d : Dev} (h : Kept a d) (a_ : Nat) (bs : List Byte) : Kept a (Dev.memStore d a_ bs) := by
  unfold Dev.memStore
  try dsimp only
  repeat' (first | with_reducible assumption | with_reducible apply Dev.stoMove_kept | with_reducible apply Dev.memWrites_kept | intro _ _ _ | intro _ _ | intro _ | with_reducible apply kept_ite | simp only [kept_same] | split)

theorem Dev.memZero_kept {a d : Dev} (h : Kept a d) (i : Nat) : Kept a (Dev.memZero d i) := by
  exact ⟨h.serial, h.now, h.free, h.out, h.regs, fun x => SMap.filter_canon _ (h.mem x)⟩

theorem Dev.ringOvf_kept {a d : Dev} (h : Kept a d) (i : Nat) (b : Bool) : Kept a (Dev.ringOvf d i b) := by
  unfold Dev.ringOvf
  repeat' (first | with_reducible assumption | simp only [kept_ins])

theorem Dev.msgRing_kept {a d : Dev} (h : Kept a d) (k : Pkt) : Kept a (Dev.msgRing d k) := by
  unfold Dev.msgRing
  try dsimp only
  repeat' (first | with_reducible assumption | with_reducible apply Dev.touch_kept | with_reducible apply Dev.isFlop_kept | with_reducible apply Dev.raise_kept | with_reducible apply Dev.fireVec_kept | with_reducible apply Dev.memStore_kept | with_reducible apply Dev.ringOvf_kept | with_reducible apply kept_whenD | intro _ _ _ | intro _ _ | intro _)

theorem Dev.message_kept {a d : Dev} (h : Kept a d) (k : Pkt) : Kept a (Dev.message d k) := by
  unfold Dev.message
  try dsimp only
  repeat' (first | with_reducible assumption | with_reducible apply Dev.bump_kept | with_reducible apply Dev.raise_kept | with_reducible apply Dev.answer_kept | with_reducible apply Dev.refuse_kept | with_reducible apply Dev.msgRing_kept | intro _ _ _ | intro _ _ | intro _ | with_reducible apply kept_ite | split)

theorem Dev.issuePiece_kept {a d : Dev} (h : Kept a d) (id : Nat) (o : HOp) (p : Nat × Nat × Nat) (t : Nat) : Kept a (Dev.issuePiece d id o p t) := by
  unfold Dev.issuePiece
  try dsimp only
  repeat' (first | with_reducible assumption | with_reducible apply Dev.enqueue_kept | with_reducible apply kept_id | simp only [kept_same])

theorem Dev.issueOp_kept {a d : Dev} (h : Kept a d) (id : Nat) : Kept a (Dev.issueOp d id) := by
  unfold Dev.issueOp
  try dsimp only
  repeat' (first | with_reducible assumption | with_reducible apply Dev.issuePiece_kept | with_reducible apply kept_id | with_reducible apply kept_each | intro _ _ _ | intro _ _ | intro _ | with_reducible apply kept_ite | simp only [kept_same] | split)

theorem Dev.pumpHost_kept {a d : Dev} (h : Kept a d) : Kept a (Dev.pumpHost d) := by
  unfold Dev.pumpHost
  repeat' (first | with_reducible assumption | with_reducible apply Dev.issueOp_kept | with_reducible apply kept_each | intro _ _ _ | intro _ _ | intro _)

theorem Dev.hostNp_kept {a d : Dev} (h : Kept a d) (via : Via) (k : Pkt) (ha : Nat) : Kept a (Dev.hostNp d via k ha) := by
  unfold Dev.hostNp
  try dsimp only
  repeat' (first | with_reducible assumption | with_reducible apply Dev.issueOp_kept | with_reducible apply kept_id | with_reducible apply kept_ite | simp only [kept_same] | split)

theorem Dev.hostWr_kept {a d : Dev} (h : Kept a d) (via : Via) (k : Pkt) (ha : Nat) : Kept a (Dev.hostWr d via k ha) := by
  unfold Dev.hostWr
  try dsimp only
  repeat' (first | with_reducible assumption | with_reducible apply Dev.enqueue_kept | with_reducible apply kept_each | intro _ _ _ | intro _ _ | intro _ | with_reducible apply kept_ite | split)

theorem Dev.inbound_kept {a d : Dev} (h : Kept a d) (via : Via) (k : Pkt) (w : List W64) : Kept a (Dev.inbound d via k w) := by
  unfold Dev.inbound
  try dsimp only
  repeat' (first | with_reducible assumption | with_reducible apply Dev.bump_kept | with_reducible apply Dev.touch_kept | with_reducible apply Dev.raise_kept | with_reducible apply Dev.lostPosted_kept | with_reducible apply Dev.answer_kept | with_reducible apply Dev.refuse_kept | with_reducible apply Dev.mark_kept | with_reducible apply Dev.hostNp_kept | with_reducible apply Dev.hostWr_kept | with_reducible apply kept_id | intro _ _ _ | intro _ _ | intro _ | with_reducible apply kept_ite | split)

theorem Dev.endOp_kept {a d : Dev} (h : Kept a d) (id : Nat) (o : HOp) : Kept a (Dev.endOp d id o) := by
  unfold Dev.endOp
  try dsimp only
  repeat' (first | with_reducible assumption | with_reducible apply Dev.respond_kept | with_reducible apply kept_id | with_reducible apply kept_ite | simp only [kept_same] | split)

theorem Dev.pieceDone_kept {a d : Dev} (h : Kept a d) (h_ : HTag) (data : List Byte) (fail : Option (BitVec 8 × BitVec 8)) : Kept a (Dev.pieceDone d h_ data fail) := by
  unfold Dev.pieceDone
  try dsimp only
  repeat' (first | with_reducible assumption | with_reducible apply Dev.endOp_kept | with_reducible apply kept_ite | simp only [kept_same] | split)

theorem Dev.freeHostTag_kept {a d : Dev} (h : Kept a d) (t : Nat) : Kept a (Dev.freeHostTag d t) := by
  unfold Dev.freeHostTag
  try dsimp only
  repeat' (first | with_reducible assumption | intro _ _ _ | intro _ _ | intro _ | with_reducible apply kept_ite | simp only [kept_same] | split)

theorem Dev.endOps_kept {a d : Dev} (h : Kept a d) (p : HOp → Bool) (code : Nat) (detail : Nat) : Kept a (Dev.endOps d p code detail) := by
  unfold Dev.endOps
  try dsimp only
  repeat' (first | with_reducible assumption | with_reducible apply Dev.respond_kept | with_reducible apply kept_each | intro _ _ _ | intro _ _ | intro _ | with_reducible apply kept_ite | simp only [kept_same] | split)

end Sys2Proof.Machine
end

