-- ==== Sys2Proof/Laws/KeptTransport.lean ====
section
/-! SUPPORT. `Kept` over requests, the endpoint, register writes and windows: one lemma per function. -/
namespace Sys2Proof.Machine

theorem Dev.laneNumber_kept {a d : Dev} (h : Kept a d) (k : Pkt) : Kept a (Dev.laneNumber d k).2 := by
  unfold Dev.laneNumber
  try dsimp only
  repeat' (first | with_reducible assumption | with_reducible apply kept_ite | simp only [kept_same] | split)

theorem Dev.freeLocalTag_kept {a d : Dev} (h : Kept a d) (x : Nat) : Kept a (Dev.freeLocalTag d x) := by
  unfold Dev.freeLocalTag
  repeat' (first | with_reducible assumption | simp only [kept_same])

theorem Dev.freeFabricTag_kept {a d : Dev} (h : Kept a d) (t : Nat) : Kept a (Dev.freeFabricTag d t) := by
  unfold Dev.freeFabricTag
  repeat' (first | with_reducible assumption | simp only [kept_same])

theorem Dev.completeData_kept {a d : Dev} (h : Kept a d) (r : HReq) (data : List Byte) (ep : Bool) : Kept a (Dev.completeData d r data ep) := by
  unfold Dev.completeData
  try dsimp only
  repeat' (first | with_reducible assumption | with_reducible apply Dev.completeHost_kept | with_reducible apply kept_each | intro _ _ _ | intro _ _ | intro _)

theorem Dev.hostAnswer_kept {a d : Dev} (h : Kept a d) (fn : Nat) (rt : BitVec 16) (code : Nat) (data : List Byte) : Kept a (Dev.hostAnswer d fn rt code data) := by
  unfold Dev.hostAnswer
  try dsimp only
  repeat' (first | with_reducible assumption | with_reducible apply Dev.bump_kept | with_reducible apply Dev.completeHost_kept | with_reducible apply Dev.aerUr_kept | with_reducible apply Dev.aerCa_kept | with_reducible apply Dev.completeData_kept | with_reducible apply kept_ite | simp only [kept_same] | split)

theorem Dev.finishWho_kept {a d : Dev} (h : Kept a d) (w : Who) (k : Pkt) (r : Pkt) : Kept a (Dev.finishWho d w k r) := by
  unfold Dev.finishWho
  try dsimp only
  repeat' (first | with_reducible assumption | with_reducible apply Dev.enqueue_kept | with_reducible apply Dev.ownedAfter_kept | with_reducible apply Dev.freeLocalTag_kept | with_reducible apply Dev.hostAnswer_kept | simp only [kept_same] | split)

theorem Dev.endTag_kept {a d : Dev} (h : Kept a d) (t : Nat) (f : FTag) (code : Nat) (detail : Nat) : Kept a (Dev.endTag d t f code detail) := by
  unfold Dev.endTag
  try dsimp only
  repeat' (first | with_reducible assumption | with_reducible apply Dev.freeFabricTag_kept | with_reducible apply Dev.finishWho_kept | with_reducible apply kept_whenD | intro _ _ _ | intro _ _ | intro _ | simp only [kept_same])

theorem Dev.launch_kept {a d : Dev} (h : Kept a d) (w : Wait) : Kept a (Dev.launch d w) := by
  unfold Dev.launch
  try dsimp only
  repeat' (first | with_reducible assumption | with_reducible apply Dev.bump_kept | with_reducible apply Dev.sendPkt_kept | with_reducible apply Dev.laneNumber_kept | with_reducible apply Dev.endTag_kept | with_reducible apply kept_ite | simp only [kept_same] | split)

theorem Dev.tryIssue_kept {a d : Dev} (h : Kept a d) (before : List Wait) (w : Wait) : Kept a (Dev.tryIssue d before w).1 := by
  unfold Dev.tryIssue
  try dsimp only
  repeat' (first | with_reducible assumption | with_reducible apply Dev.pay_kept | with_reducible apply Dev.launch_kept | with_reducible apply kept_ite | simp only [kept_same] | split)

theorem Dev.turnAway_kept {a d : Dev} (h : Kept a d) (who : Who) (k : Pkt) (code : Nat) (detail : Nat) (retry : Nat) : Kept a (Dev.turnAway d who k code detail retry) := by
  unfold Dev.turnAway
  try dsimp only
  repeat' (first | with_reducible assumption | with_reducible apply Dev.enqueue_kept | with_reducible apply Dev.finishWho_kept | simp only [kept_same] | split)

theorem Dev.submit_kept {a d : Dev} (h : Kept a d) (who : Who) (k : Pkt) : Kept a (Dev.submit d who k) := by
  unfold Dev.submit
  try dsimp only
  repeat' (first | with_reducible assumption | with_reducible apply Dev.takeFree_kept | with_reducible apply Dev.touch_kept | with_reducible apply Dev.raise_kept | with_reducible apply Dev.lostPosted_kept | with_reducible apply Dev.tryIssue_kept | with_reducible apply Dev.turnAway_kept | with_reducible apply kept_ite | simp only [kept_same] | split)

theorem Dev.pump_kept {a d : Dev} (h : Kept a d) : Kept a (Dev.pump d) := by
  unfold Dev.pump
  try dsimp only
  repeat' (first | with_reducible assumption | with_reducible apply Dev.tryIssue_kept | with_reducible apply kept_foldl | with_reducible apply kept_foldl_fst | with_reducible apply kept_foldl_snd | intro _ _ _ | intro _ _ | intro _ | simp only [kept_same] | split)

theorem Dev.endTags_kept {a d : Dev} (h : Kept a d) (p : FTag → Bool) (code : Nat) (detail : Nat) : Kept a (Dev.endTags d p code detail) := by
  unfold Dev.endTags
  try dsimp only
  repeat' (first | with_reducible assumption | with_reducible apply Dev.endTag_kept | with_reducible apply kept_each | intro _ _ _ | intro _ _ | intro _ | with_reducible apply kept_ite | split)

theorem Dev.late_kept {a d : Dev} (h : Kept a d) (r : Pkt) : Kept a (Dev.late d r) := by
  unfold Dev.late
  try dsimp only
  repeat' (first | with_reducible assumption | with_reducible apply Dev.lateRsp_kept | with_reducible apply Dev.sendHdrop_kept | with_reducible apply kept_ite | simp only [kept_same] | split)

theorem Dev.response_kept {a d : Dev} (h : Kept a d) (r : Pkt) : Kept a (Dev.response d r) := by
  unfold Dev.response
  try dsimp only
  repeat' (first | with_reducible assumption | with_reducible apply Dev.lateRsp_kept | with_reducible apply Dev.freeFabricTag_kept | with_reducible apply Dev.finishWho_kept | with_reducible apply Dev.pump_kept | with_reducible apply Dev.late_kept | with_reducible apply kept_ite | simp only [kept_same] | split)

theorem Dev.retryTag_kept {a d : Dev} (h : Kept a d) (t : Nat) : Kept a (Dev.retryTag d t) := by
  unfold Dev.retryTag
  try dsimp only
  repeat' (first | with_reducible assumption | with_reducible apply Dev.bump_kept | with_reducible apply Dev.sendPkt_kept | with_reducible apply Dev.laneNumber_kept | with_reducible apply Dev.endTag_kept | with_reducible apply Dev.pump_kept | with_reducible apply kept_ite | simp only [kept_same] | split)

theorem Dev.deliverNow_kept {a d : Dev} (h : Kept a d) (p : Nat) (via : Via) (k : Pkt) : Kept a (Dev.deliverNow d p via k) := by
  unfold Dev.deliverNow
  try dsimp only
  repeat' (first | with_reducible assumption | with_reducible apply Dev.enqueue_kept | with_reducible apply kept_ite | simp only [kept_same] | split)

theorem Dev.deliver_kept {a d : Dev} (h : Kept a d) (p : Nat) (via : Via) (k : Pkt) : Kept a (Dev.deliver d p via k) := by
  unfold Dev.deliver
  try dsimp only
  repeat' (first | with_reducible assumption | with_reducible apply Dev.deliverNow_kept | intro _ _ _ | intro _ _ | intro _ | with_reducible apply kept_ite | simp only [kept_same] | split)

theorem Dev.toLocal_kept {a d : Dev} (h : Kept a d) (via : Via) (k : Pkt) : Kept a (Dev.toLocal d via k) := by
  unfold Dev.toLocal
  try dsimp only
  repeat' (first | with_reducible assumption | with_reducible apply Dev.bump_kept | with_reducible apply Dev.raise_kept | with_reducible apply Dev.lostPosted_kept | with_reducible apply Dev.refuse_kept | with_reducible apply Dev.deliver_kept | intro _ _ _ | intro _ _ | intro _ | with_reducible apply kept_ite | split)

theorem Dev.pumpLocal_kept {a d : Dev} (h : Kept a d) : Kept a (Dev.pumpLocal d) := by
  unfold Dev.pumpLocal
  try dsimp only
  repeat' (first | with_reducible assumption | with_reducible apply Dev.deliver_kept | with_reducible apply kept_each | intro _ _ _ | intro _ _ | intro _ | simp only [kept_same] | split)

theorem Dev.undefOp_kept {a d : Dev} (h : Kept a d) (cls : PClass) (k : Pkt) : Kept a (Dev.undefOp d cls k) := by
  unfold Dev.undefOp
  try dsimp only
  repeat' (first | with_reducible assumption | with_reducible apply Dev.bump_kept | with_reducible apply Dev.raise_kept | with_reducible apply Dev.lateRsp_kept | with_reducible apply Dev.answer_kept | with_reducible apply Dev.response_kept | split)

theorem Dev.badReq_kept {a d : Dev} (h : Kept a d) (cls : PClass) (k : Pkt) (detail : Nat) : Kept a (Dev.badReq d cls k detail) := by
  unfold Dev.badReq
  try dsimp only
  repeat' (first | with_reducible assumption | with_reducible apply Dev.bump_kept | with_reducible apply Dev.raise_kept | with_reducible apply Dev.lateRsp_kept | with_reducible apply Dev.answer_kept | with_reducible apply Dev.response_kept | split)

theorem Dev.discardPosted_kept {a d : Dev} (h : Kept a d) (i : Nat) : Kept a (Dev.discardPosted d i) := by
  unfold Dev.discardPosted
  repeat' (first | with_reducible assumption | with_reducible apply Dev.raise_kept | with_reducible apply Dev.lostPosted_kept)

theorem Dev.instGate_kept {a d : Dev} (h : Kept a d) (k : Pkt) {e : Dev} (he : (Dev.instGate d k) = some e) : Kept a e := by
  revert he
  unfold Dev.instGate
  dsimp only
  repeat' split
  all_goals intro he
  all_goals first | (cases he; done) | skip
  all_goals (obtain rfl := Option.some.inj he)
  all_goals repeat' (first | with_reducible assumption | with_reducible apply Dev.refuse_kept | with_reducible apply Dev.discardPosted_kept | with_reducible apply Dev.lostPosted_kept | with_reducible apply Dev.answerBusyFree_kept | with_reducible apply kept_ite | intro _ _ | split)

theorem Dev.memoryOp_kept {a d : Dev} (h : Kept a d) (via : Via) (k : Pkt) : Kept a (Dev.memoryOp d via k) := by
  unfold Dev.memoryOp
  try dsimp only
  repeat' (first | with_reducible assumption | with_reducible apply Dev.inbound_kept | with_reducible apply Dev.toLocal_kept | split)

theorem Dev.serve_kept {a d : Dev} (h : Kept a d) (via : Via) (k : Pkt) : Kept a (Dev.serve d via k) := by
  unfold Dev.serve
  try dsimp only
  repeat' (first | with_reducible assumption | with_reducible apply Dev.lostPosted_kept | with_reducible apply Dev.refuse_kept | with_reducible apply Dev.holdOp_kept | with_reducible apply Dev.message_kept | with_reducible apply Dev.memoryOp_kept | intro _ _ _ | intro _ _ | intro _ | with_reducible apply kept_ite | simp only [kept_same] | split)

theorem Dev.perform_kept {a d : Dev} (h : Kept a d) (via : Via) (vc : Nat) (k : Pkt) : Kept a (Dev.perform d via vc k) := by
  unfold Dev.perform
  try dsimp only
  repeat' (first | with_reducible assumption | with_reducible apply Dev.touch_kept | with_reducible apply Dev.respond_kept | with_reducible apply Dev.hdropAt_kept | with_reducible apply Dev.undefOp_kept | with_reducible apply Dev.badReq_kept | with_reducible apply Dev.discardPosted_kept | with_reducible apply Dev.serve_kept | intro _ _ _ | intro _ _ | intro _ | with_reducible apply kept_ite | simp only [kept_same] | (refine Dev.instGate_kept ?_ _ ‹_ = some _›) | split)

theorem Dev.fencePass_kept {a d : Dev} (h : Kept a d) : Kept a (Dev.fencePass d) := by
  unfold Dev.fencePass
  try dsimp only
  repeat' (first | with_reducible assumption | with_reducible apply Dev.answer_kept | with_reducible apply kept_each | intro _ _ _ | intro _ _ | intro _ | with_reducible apply kept_ite | simp only [kept_same] | split)

theorem Dev.pumpFences_kept {a d : Dev} (h : Kept a d) : Kept a (Dev.pumpFences d) := by
  unfold Dev.pumpFences
  try dsimp only
  repeat' (first | with_reducible assumption | with_reducible apply Dev.perform_kept | with_reducible apply Dev.fencePass_kept | with_reducible apply kept_each | intro _ _ _ | intro _ _ | intro _ | with_reducible apply kept_ite | simp only [kept_same] | split)

theorem Dev.unpark_kept {a d : Dev} (h : Kept a d) (q : Parked) : Kept a (Dev.unpark d q) := by
  unfold Dev.unpark
  repeat' (first | with_reducible assumption | simp only [kept_same])

theorem Dev.setLane_kept {a d : Dev} (h : Kept a d) (lane : Nat) (e : Nat) : Kept a (Dev.setLane d lane e) := by
  unfold Dev.setLane
  repeat' (first | with_reducible assumption | simp only [kept_same])

theorem Dev.drainLane_kept {a d : Dev} (h : Kept a d) (fuel : Nat) (lane : Nat) : Kept a (Dev.drainLane d fuel lane) := by
  induction fuel generalizing d with
  | zero => exact h
  | succ n ih =>
    unfold Dev.drainLane
    repeat' split
    · exact h
    · exact h
    · exact ih (Dev.perform_kept (Dev.setLane_kept (Dev.unpark_kept h _) _ _) _ _ _)

theorem Dev.orderBreak_kept {a d : Dev} (h : Kept a d) : Kept a (Dev.orderBreak d) := by
  unfold Dev.orderBreak
  repeat' (first | with_reducible assumption | with_reducible apply Dev.bump_kept | with_reducible apply Dev.raise_kept)

theorem Dev.laneRoom_kept {a d : Dev} (h : Kept a d) {e : Dev} (he : (Dev.laneRoom d) = some e) : Kept a e := by
  revert he
  unfold Dev.laneRoom
  dsimp only
  split
  · intro he; obtain rfl := Option.some.inj he; exact h
  · intro he
    obtain ⟨x, -, rfl⟩ := Option.map_eq_some_iff.1 he
    exact kept_same.2 h

theorem Dev.resequence_kept {a d : Dev} (h : Kept a d) (via : Via) (vc : Nat) (k : Pkt) : Kept a (Dev.resequence d via vc k) := by
  unfold Dev.resequence
  try dsimp only
  repeat' (first | with_reducible assumption | with_reducible apply Dev.response_kept | with_reducible apply Dev.perform_kept | with_reducible apply Dev.setLane_kept | with_reducible apply Dev.drainLane_kept | with_reducible apply Dev.orderBreak_kept | with_reducible apply kept_ite | simp only [kept_same] | (refine Dev.laneRoom_kept ?_ ‹_ = some _›) | split)

theorem Dev.gapSkipLane_kept {a d : Dev} (h : Kept a d) (lane : Nat) : Kept a (Dev.gapSkipLane d lane) := by
  unfold Dev.gapSkipLane
  try dsimp only
  repeat' (first | with_reducible assumption | with_reducible apply Dev.bump_kept | with_reducible apply Dev.raise_kept | with_reducible apply Dev.setLane_kept | with_reducible apply Dev.drainLane_kept | with_reducible apply kept_foldl | with_reducible apply kept_foldl_fst | with_reducible apply kept_foldl_snd | intro _ _ _ | intro _ _ | intro _ | split)

theorem Dev.consume_kept {a d : Dev} (h : Kept a d) (via : Via) (k : Pkt) : Kept a (Dev.consume d via k) := by
  unfold Dev.consume
  try dsimp only
  repeat' (first | with_reducible assumption | intro _ _ _ | intro _ _ | intro _ | simp only [kept_same] | split)

theorem Dev.fabricRefused_kept {a d : Dev} (h : Kept a d) (vc : Nat) (k : Pkt) (check : Nat) : Kept a (Dev.fabricRefused d vc k check) := by
  unfold Dev.fabricRefused
  try dsimp only
  repeat' (first | with_reducible assumption | with_reducible apply Dev.answer_kept | with_reducible apply Dev.spoofCount_kept | with_reducible apply kept_ite | split)

theorem Dev.arrive_kept {a d : Dev} (h : Kept a d) (via : Via) (vc : Nat) (k : Pkt) : Kept a (Dev.arrive d via vc k) := by
  unfold Dev.arrive
  try dsimp only
  repeat' (first | with_reducible assumption | with_reducible apply Dev.bump_kept | with_reducible apply Dev.lostPosted_kept | with_reducible apply Dev.answerBusy_kept | with_reducible apply Dev.answerBusyFree_kept | with_reducible apply Dev.noForward_kept | with_reducible apply Dev.forward_kept | with_reducible apply Dev.response_kept | with_reducible apply Dev.resequence_kept | with_reducible apply Dev.consume_kept | with_reducible apply Dev.fabricRefused_kept | with_reducible apply kept_ite | split)

theorem Dev.arriveRsp_kept {a d : Dev} (h : Kept a d) (via : Via) (k : Pkt) : Kept a (Dev.arriveRsp d via k) := by
  unfold Dev.arriveRsp
  try dsimp only
  repeat' (first | with_reducible assumption | with_reducible apply Dev.forward_kept | with_reducible apply Dev.response_kept | with_reducible apply Dev.consume_kept | with_reducible apply kept_ite | split)

theorem Dev.localAnswer_kept {a d : Dev} (h : Kept a d) (p : Nat) (r : Pkt) : Kept a (Dev.localAnswer d p r) := by
  unfold Dev.localAnswer
  try dsimp only
  repeat' (first | with_reducible assumption | with_reducible apply Dev.s_kept | with_reducible apply Dev.bump_kept | with_reducible apply Dev.raise_kept | with_reducible apply Dev.lateRsp_kept | with_reducible apply Dev.respond_kept | with_reducible apply Dev.freeLocalTag_kept | with_reducible apply Dev.pump_kept | with_reducible apply Dev.deliver_kept | with_reducible apply Dev.pumpLocal_kept | with_reducible apply kept_ite | split)

theorem Dev.localTagExpired_kept {a d : Dev} (h : Kept a d) (t : Nat) : Kept a (Dev.localTagExpired d t) := by
  unfold Dev.localTagExpired
  try dsimp only
  repeat' (first | with_reducible assumption | with_reducible apply Dev.respond_kept | with_reducible apply Dev.freeLocalTag_kept | with_reducible apply Dev.pump_kept | with_reducible apply Dev.deliver_kept | with_reducible apply Dev.pumpLocal_kept | with_reducible apply kept_ite | split)

theorem Dev.endLocalTags_kept {a d : Dev} (h : Kept a d) (p : Nat) (detail : Nat) : Kept a (Dev.endLocalTags d p detail).2 := by
  unfold Dev.endLocalTags
  try dsimp only
  repeat' (first | with_reducible assumption | with_reducible apply Dev.respond_kept | with_reducible apply Dev.freeLocalTag_kept | with_reducible apply Dev.deliver_kept | with_reducible apply kept_each | intro _ _ _ | intro _ _ | intro _)

theorem Dev.goneSynth_kept {a d : Dev} (h : Kept a d) (n : Nat) : Kept a (Dev.goneSynth d n) := by
  unfold Dev.goneSynth
  repeat' (first | with_reducible assumption | with_reducible apply Dev.bumpBy_kept | with_reducible apply Dev.raise_kept | with_reducible apply kept_ite | split)

theorem Dev.incarnationChanged_kept {a d : Dev} (h : Kept a d) (node : Addr) : Kept a (Dev.incarnationChanged d node) := by
  unfold Dev.incarnationChanged
  try dsimp only
  repeat' (first | with_reducible assumption | with_reducible apply Dev.bumpBy_kept | with_reducible apply Dev.breakNode_kept | with_reducible apply Dev.pump_kept | with_reducible apply Dev.endTags_kept | with_reducible apply Dev.fabricRefused_kept | with_reducible apply kept_each | intro _ _ _ | intro _ _ | intro _ | simp only [kept_same])

theorem Dev.logWord_kept {a d : Dev} (h : Kept a d) (org : Origin) (space : Nat) (tgt : Nat) (n : Nat) (i : Nat) (old : W64) (new : W64) : Kept a (Dev.logWord d org space tgt n i old new) := by
  unfold Dev.logWord
  try dsimp only
  repeat' (first | with_reducible assumption | with_reducible apply Dev.log_kept | with_reducible apply kept_ite | split)

theorem Dev.logGroup_kept {a d : Dev} (h : Kept a d) (org : Origin) (space : Nat) (tgt : Nat) (n : Nat) (i : Nat) (olds : List W64) (news : List W64) : Kept a (Dev.logGroup d org space tgt n i olds news) := by
  induction olds generalizing d i news with
  | nil => unfold Dev.logGroup; exact h
  | cons o t ih =>
    cases news with
    | nil => unfold Dev.logGroup; exact h
    | cons x u => exact ih (Dev.logWord_kept h _ _ _ _ _ _ _) _ _

theorem Dev.commitS_kept {a d : Dev} (h : Kept a d) (c : WCtx) (o : WOut) (hf : o.Keeps) : Kept a (Dev.commitS d c o).1 := by
  unfold Dev.commitS
  cases o with
  | ok old new rs ex eff =>
    dsimp only
    repeat' split
    · exact hf.eff _ _ h
    · exact Dev.holdRefuse_kept h
    · exact hf.eff _ _ (Dev.log_kept h _)
  | bad old rs ex =>
    dsimp only
    split
    · exact Dev.holdRefuse_kept h
    · exact Dev.log_kept h _
  | badEff old eff =>
    dsimp only
    split
    · exact Dev.holdRefuse_kept h
    · exact hf.eff _ _ (Dev.log_kept h _)
  | group sp tgt olds news eff =>
    dsimp only
    split
    · exact Dev.holdRefuse_kept h
    · exact hf.eff _ _ (Dev.logGroup_kept h _ _ _ _ _ _ _)
  | none => exact h
  | unmapped =>
    dsimp only
    split
    · exact Dev.holdRefuse_kept h
    · exact Dev.log_kept h _

theorem Dev.readBusy_keeps (d : Dev) (c : WCtx) (eff : Dev → Dev) (hf : ∀ a d, Kept a d → Kept a (eff d)) : (Dev.readBusy d c eff).Keeps := by
  unfold Dev.readBusy
  try dsimp only
  repeat' (first | with_reducible assumption | exact WOut.bad_keeps | exact WOut.none_keeps | exact WOut.unmapped_keeps | with_reducible apply WOut.ok_keeps | with_reducible apply WOut.badEff_keeps | with_reducible apply WOut.group_keeps | with_reducible apply Dev.log_kept | with_reducible apply hf | intro _ _ _ | intro _ _ | intro _ | split)

theorem Dev.judgeRow_keeps (d : Dev) (r : RegDef) (c : WCtx) (cur : W64) (eff : W64 → Dev → Dev) (hf : ∀ v a d, Kept a d → Kept a (eff v d)) : (Dev.judgeRow d r c cur eff).Keeps := by
  unfold Dev.judgeRow
  try dsimp only
  repeat' (first | with_reducible assumption | exact WOut.bad_keeps | exact WOut.none_keeps | exact WOut.unmapped_keeps | with_reducible apply WOut.ok_keeps | with_reducible apply WOut.badEff_keeps | with_reducible apply WOut.group_keeps | with_reducible apply hf | intro _ _ _ | intro _ _ | intro _ | with_reducible apply kept_ite | split)

theorem Dev.judgeTable_keeps (d : Dev) (c : WCtx) : (Dev.judgeTable d c).Keeps := by
  unfold Dev.judgeTable
  try dsimp only
  repeat' (first | with_reducible assumption | exact WOut.bad_keeps | exact WOut.none_keeps | exact WOut.unmapped_keeps | with_reducible apply WOut.ok_keeps | with_reducible apply WOut.badEff_keeps | with_reducible apply WOut.group_keeps | with_reducible apply Dev.judgeRow_keeps | with_reducible apply Dev.wr_kept | intro _ _ _ | intro _ _ | intro _ | with_reducible apply kept_ite | (refine WOut.of_ok (Dev.judgeRow_keeps _ _ _ _ _) ‹_› ?_) | split | (subst_vars; first | with_reducible assumption | with_reducible apply Dev.judgeRow_keeps | with_reducible apply Dev.wr_kept))

theorem Dev.hold_kept {a d : Dev} (h : Kept a d) (h_ : Held) : Kept a (Dev.hold d h_) := by
  unfold Dev.hold
  repeat' (first | with_reducible assumption | simp only [kept_same])

theorem Dev.regCmdS_kept {a d : Dev} (h : Kept a d) (pty : Party) (off : Nat) (wide : Bool) (be : Nat) (data : W64) (old : W64) (auth : Bool) (judge : Dev → WCtx → WOut) (hf : ∀ d c, (judge d c).Keeps) : Kept a (Dev.regCmdS d pty off wide be data old auth judge).1 := by
  unfold Dev.regCmdS
  try dsimp only
  repeat' (first | with_reducible assumption | exact WOut.bad_keeps | exact WOut.none_keeps | exact WOut.unmapped_keeps | with_reducible apply WOut.ok_keeps | with_reducible apply Dev.aerUr_kept | with_reducible apply Dev.commitS_kept | with_reducible apply Dev.hold_kept | with_reducible apply hf | intro _ _ _ | intro _ _ | intro _ | with_reducible apply kept_ite | split)

theorem Dev.regCmd_kept {a d : Dev} (h : Kept a d) (pty : Party) (off : Nat) (wide : Bool) (be : Nat) (data : W64) (auth : Bool) (judge : Dev → WCtx → WOut) (hf : ∀ d c, (judge d c).Keeps) : Kept a (Dev.regCmd d pty off wide be data auth judge) := by
  unfold Dev.regCmd
  repeat' (first | with_reducible assumption | with_reducible apply Dev.regCmdS_kept | with_reducible apply hf | intro _ _ _ | intro _ _ | intro _)

theorem Dev.gcLines_kept {a d : Dev} (h : Kept a d) : Kept a (Dev.gcLines d) := by
  unfold Dev.gcLines
  try dsimp only
  repeat' (first | with_reducible assumption | intro _ _ _ | intro _ _ | intro _ | with_reducible apply kept_ite | simp only [kept_same] | split)

theorem Dev.sendLine_kept {a d : Dev} (h : Kept a d) (l : WcLine) : Kept a (Dev.sendLine d l) := by
  unfold Dev.sendLine
  try dsimp only
  repeat' (first | with_reducible assumption | with_reducible apply Dev.bump_kept | with_reducible apply Dev.submit_kept | with_reducible apply Dev.gcLines_kept | with_reducible apply kept_id | with_reducible apply kept_each | intro _ _ _ | intro _ _ | intro _ | with_reducible apply kept_ite | simp only [kept_same] | split)

theorem Dev.flushLines_kept {a d : Dev} (h : Kept a d) (p : WcLine → Bool) : Kept a (Dev.flushLines d p) := by
  unfold Dev.flushLines
  try dsimp only
  repeat' (first | with_reducible assumption | with_reducible apply Dev.sendLine_kept | with_reducible apply kept_each | intro _ _ _ | intro _ _ | intro _)

theorem Dev.flushTo_kept {a d : Dev} (h : Kept a d) (l : WcLine) : Kept a (Dev.flushTo d l) := by
  unfold Dev.flushTo
  try dsimp only
  repeat' (first | with_reducible assumption | with_reducible apply Dev.flushLines_kept | with_reducible apply kept_id | intro _ _ _ | intro _ _ | intro _)

theorem Dev.sendIfFull_kept {a d : Dev} (h : Kept a d) (l : WcLine) : Kept a (Dev.sendIfFull d l) := by
  unfold Dev.sendIfFull
  repeat' (first | with_reducible assumption | with_reducible apply Dev.flushTo_kept | with_reducible apply kept_ite | split)

theorem Dev.combine_kept {a d : Dev} (h : Kept a d) (fn : Nat) (wi : Nat) (o : Nat) (w : List W64) (bs : List Byte) (be : List Bool) : Kept a (Dev.combine d fn wi o w bs be) := by
  unfold Dev.combine
  try dsimp only
  repeat' (first | with_reducible assumption | with_reducible apply Dev.touch_kept | with_reducible apply Dev.flushLines_kept | with_reducible apply Dev.flushTo_kept | with_reducible apply Dev.sendIfFull_kept | with_reducible apply kept_id | intro _ _ _ | intro _ _ | intro _ | with_reducible apply kept_ite | simp only [kept_same] | split)

theorem Dev.directWrite_kept {a d : Dev} (h : Kept a d) (fn : Nat) (o : Nat) (w : List W64) (bs : List Byte) (be : List Bool) (ep : Bool) : Kept a (Dev.directWrite d fn o w bs be ep) := by
  unfold Dev.directWrite
  try dsimp only
  repeat' (first | with_reducible assumption | with_reducible apply Dev.submit_kept | with_reducible apply Dev.flushLines_kept | with_reducible apply kept_each | intro _ _ _ | intro _ _ | intro _)

theorem Dev.hostRefuse_kept {a d : Dev} (h : Kept a d) (fn : Nat) (rt : BitVec 16) (ca : Bool) : Kept a (Dev.hostRefuse d fn rt ca) := by
  unfold Dev.hostRefuse
  repeat' (first | with_reducible assumption | with_reducible apply Dev.completeHost_kept | with_reducible apply Dev.aerUr_kept | with_reducible apply Dev.aerCa_kept | with_reducible apply kept_ite | split)

theorem Dev.hostPoison_kept {a d : Dev} (h : Kept a d) (fn : Nat) : Kept a (Dev.hostPoison d fn) := by
  unfold Dev.hostPoison
  repeat' (first | with_reducible assumption | with_reducible apply Dev.bump_kept | with_reducible apply Dev.raise_kept | with_reducible apply Dev.aerUnc_kept)

theorem Dev.hostWriteNow_kept {a d : Dev} (h : Kept a d) (fn : Nat) (o : Nat) (bs : List Byte) (be : List Bool) (ep : Bool) : Kept a (Dev.hostWriteNow d fn o bs be ep) := by
  unfold Dev.hostWriteNow
  try dsimp only
  repeat' (first | with_reducible assumption | with_reducible apply Dev.bump_kept | with_reducible apply Dev.raise_kept | with_reducible apply Dev.lostPosted_kept | with_reducible apply Dev.aerUnc_kept | with_reducible apply Dev.aerUr_kept | with_reducible apply Dev.aerCa_kept | with_reducible apply Dev.combine_kept | with_reducible apply Dev.directWrite_kept | with_reducible apply Dev.hostPoison_kept | with_reducible apply kept_ite | split)

theorem Dev.hostNpNow_kept {a d : Dev} (h : Kept a d) (op : Nat) (fn : Nat) (rt : BitVec 16) (o : Nat) (len : Nat) (data : List Byte) (perm : Nat) : Kept a (Dev.hostNpNow d op fn rt o len data perm) := by
  unfold Dev.hostNpNow
  try dsimp only
  repeat' (first | with_reducible assumption | with_reducible apply Dev.bumpBy_kept | with_reducible apply Dev.bump_kept | with_reducible apply Dev.submit_kept | with_reducible apply Dev.flushLines_kept | with_reducible apply Dev.hostRefuse_kept | intro _ _ _ | intro _ _ | intro _ | with_reducible apply kept_ite | simp only [kept_same] | split)

theorem Dev.hostWrite2_kept {a d : Dev} (h : Kept a d) (fn : Nat) (o : Nat) (bs : List Byte) (be : List Bool) (ep : Bool) : Kept a (Dev.hostWrite2 d fn o bs be ep) := by
  unfold Dev.hostWrite2
  repeat' (first | with_reducible assumption | with_reducible apply Dev.hostWriteNow_kept | with_reducible apply kept_ite | simp only [kept_same] | split)

theorem Dev.hostNp2_kept {a d : Dev} (h : Kept a d) (op : Nat) (fn : Nat) (rt : BitVec 16) (o : Nat) (len : Nat) (data : List Byte) (perm : Nat) : Kept a (Dev.hostNp2 d op fn rt o len data perm) := by
  unfold Dev.hostNp2
  repeat' (first | with_reducible assumption | with_reducible apply Dev.hostNpNow_kept | with_reducible apply kept_ite | simp only [kept_same] | split)

theorem Dev.stallRun_kept {a d : Dev} (h : Kept a d) : Kept a (Dev.stallRun d) := by
  unfold Dev.stallRun
  try dsimp only
  repeat' (first | with_reducible assumption | with_reducible apply Dev.hostWrite2_kept | with_reducible apply Dev.hostNp2_kept | with_reducible apply kept_each | intro _ _ _ | intro _ _ | intro _ | with_reducible apply kept_ite | simp only [kept_same] | split)

theorem Dev.hostAtomic2_kept {a d : Dev} (h : Kept a d) (fn : Nat) (rt : BitVec 16) (o : Nat) (kind : AtomicKind) (width : Nat) (ops : List Byte) : Kept a (Dev.hostAtomic2 d fn rt o kind width ops) := by
  unfold Dev.hostAtomic2
  try dsimp only
  repeat' (first | with_reducible assumption | with_reducible apply Dev.hostRefuse_kept | with_reducible apply Dev.hostNp2_kept | with_reducible apply kept_ite | split)

theorem Dev.cplLimit_kept {a d : Dev} (h : Kept a d) (fn : Nat) (rt : BitVec 16) : Kept a (Dev.cplLimit d fn rt) := by
  unfold Dev.cplLimit
  try dsimp only
  repeat' (first | with_reducible assumption | with_reducible apply Dev.raise_kept | with_reducible apply Dev.hostRefuse_kept | simp only [kept_same] | split)

theorem Dev.localReply_kept {a d : Dev} (h : Kept a d) (p : Nat) (k : Pkt) (code : Nat) (detail : Nat) (retry : Nat) : Kept a (Dev.localReply d p k code detail retry) := by
  unfold Dev.localReply
  try dsimp only
  repeat' (first | with_reducible assumption | with_reducible apply Dev.bump_kept | with_reducible apply Dev.turnAway_kept | with_reducible apply kept_whenD | intro _ _ _ | intro _ _ | intro _)

theorem Dev.localBreak_kept {a d : Dev} (h : Kept a d) (p : Nat) : Kept a (Dev.localBreak d p) := by
  unfold Dev.localBreak
  repeat' (first | with_reducible assumption | with_reducible apply Dev.bump_kept | with_reducible apply Dev.raise_kept)

theorem Dev.localSubmit_kept {a d : Dev} (h : Kept a d) (p : Nat) (k : Pkt) : Kept a (Dev.localSubmit d p k) := by
  unfold Dev.localSubmit
  repeat' (first | with_reducible assumption | with_reducible apply Dev.submit_kept | simp only [kept_same])

theorem Dev.setAdmit_kept {a d : Dev} (h : Kept a d) (x : Nat) (e : Nat) : Kept a (Dev.setAdmit d x e) := by
  unfold Dev.setAdmit
  repeat' (first | with_reducible assumption | simp only [kept_same])

theorem Dev.admitRoom_kept {a d : Dev} (h : Kept a d) (p : Nat) {e : Dev} (he : (Dev.admitRoom d p) = some e) : Kept a e := by
  revert he
  unfold Dev.admitRoom
  dsimp only
  split
  · intro he; obtain rfl := Option.some.inj he; exact h
  · intro he
    obtain ⟨x, -, rfl⟩ := Option.map_eq_some_iff.1 he
    exact kept_same.2 h

theorem Dev.drainAdmit_kept {a d : Dev} (h : Kept a d) (fuel : Nat) (p : Nat) (x : Nat) : Kept a (Dev.drainAdmit d fuel p x) := by
  induction fuel generalizing d with
  | zero => exact h
  | succ n ih =>
    unfold Dev.drainAdmit
    repeat' split
    · exact h
    · exact h
    · exact ih (Dev.localSubmit_kept (Dev.setAdmit_kept (kept_same.2 h) _ _) _ _)

theorem Dev.localOrder_kept {a d : Dev} (h : Kept a d) (p : Nat) (vc : Nat) (k : Pkt) : Kept a (Dev.localOrder d p vc k) := by
  unfold Dev.localOrder
  try dsimp only
  repeat' (first | with_reducible assumption | with_reducible apply Dev.localBreak_kept | with_reducible apply Dev.localSubmit_kept | with_reducible apply Dev.setAdmit_kept | with_reducible apply Dev.drainAdmit_kept | intro _ _ _ | intro _ _ | intro _ | with_reducible apply kept_ite | simp only [kept_same] | (refine Dev.admitRoom_kept ?_ _ ‹_ = some _›) | split)

theorem Dev.localReq_kept {a d : Dev} (h : Kept a d) (p : LPort) (vc : Nat) (k : Pkt) : Kept a (Dev.localReq d p vc k) := by
  unfold Dev.localReq
  try dsimp only
  repeat' (first | with_reducible assumption | with_reducible apply Dev.bump_kept | with_reducible apply Dev.raise_kept | with_reducible apply Dev.lostPosted_kept | with_reducible apply Dev.lateRsp_kept | with_reducible apply Dev.spoofCount_kept | with_reducible apply Dev.response_kept | with_reducible apply Dev.consume_kept | with_reducible apply Dev.localReply_kept | with_reducible apply Dev.localOrder_kept | intro _ _ _ | intro _ _ | intro _ | with_reducible apply kept_ite | split)

theorem Dev.localSkip_kept {a d : Dev} (h : Kept a d) (p : Nat) (x : Nat) : Kept a (Dev.localSkip d p x) := by
  unfold Dev.localSkip
  try dsimp only
  repeat' (first | with_reducible assumption | with_reducible apply Dev.localBreak_kept | with_reducible apply Dev.setAdmit_kept | with_reducible apply Dev.drainAdmit_kept | with_reducible apply kept_foldl | with_reducible apply kept_foldl_fst | with_reducible apply kept_foldl_snd | intro _ _ _ | intro _ _ | intro _ | split)

end Sys2Proof.Machine
end

