-- ==== Sys2Proof/Laws/KeptIns.lean ====
section
/-! SUPPORT. `Kept` over instances and the host port: one lemma per function. -/
namespace Sys2Proof.Machine

theorem Dev.setEv_kept {a d : Dev} (h : Kept a d) (n : Nat) (f : Nat → Fld) : Kept a (Dev.setEv d n f) := by
  unfold Dev.setEv
  try dsimp only
  repeat' (first | with_reducible assumption | with_reducible apply Dev.sb_kept | with_reducible apply Dev.fireVec_kept | with_reducible apply kept_whenD | intro _ _ _ | intro _ _ | intro _ | with_reducible apply kept_ite | split)

theorem Dev.slotWrite_kept {a d : Dev} (h : Kept a d) (n : Nat) (s : Nat) (data : W64) : Kept a (Dev.slotWrite d n s data) := by
  unfold Dev.slotWrite
  try dsimp only
  repeat' (first | with_reducible assumption | with_reducible apply Dev.bump_kept | with_reducible apply Dev.stoMove_kept | with_reducible apply Dev.isFlop_kept | with_reducible apply Dev.raise_kept | with_reducible apply kept_whenD | intro _ _ _ | intro _ _ | intro _ | with_reducible apply kept_ite | simp only [kept_ins] | split)

theorem Dev.ringInbox_kept {a d : Dev} (h : Kept a d) (n : Nat) (m : Nat) : Kept a (Dev.ringInbox d n m) := by
  unfold Dev.ringInbox
  repeat' (first | with_reducible assumption | with_reducible apply Dev.isFlop_kept | with_reducible apply Dev.fireVec_kept | with_reducible apply kept_ite | split)

theorem Dev.ringOutbox_kept {a d : Dev} (h : Kept a d) (n : Nat) (m : Nat) : Kept a (Dev.ringOutbox d n m) := by
  unfold Dev.ringOutbox
  repeat' (first | with_reducible assumption | with_reducible apply Dev.isFlop_kept | with_reducible apply Dev.setEv_kept | with_reducible apply kept_ite | split)

theorem Dev.clearMailbox_kept {a d : Dev} (h : Kept a d) (n : Nat) : Kept a (Dev.clearMailbox d n) := by
  unfold Dev.clearMailbox
  try dsimp only
  repeat' (first | with_reducible assumption | with_reducible apply Dev.isFlop_kept | intro _ _ _ | intro _ _ | intro _ | simp only [kept_ins])

theorem Dev.putWdesc_kept {a d : Dev} (h : Kept a d) (i : Nat) (w : List W64) : Kept a (Dev.putWdesc d i w) := by
  unfold Dev.putWdesc
  repeat' (first | with_reducible assumption | with_reducible apply Dev.stoMove_kept | simp only [kept_same])

theorem Dev.flushWin_kept {a d : Dev} (h : Kept a d) (i : Nat) : Kept a (Dev.flushWin d i) := by
  unfold Dev.flushWin
  try dsimp only
  repeat' (first | with_reducible assumption | with_reducible apply Dev.flushLines_kept | intro _ _ _ | intro _ _ | intro _)

theorem Dev.disableWin_kept {a d : Dev} (h : Kept a d) (i : Nat) : Kept a (Dev.disableWin d i) := by
  unfold Dev.disableWin
  repeat' (first | with_reducible assumption | with_reducible apply Dev.putWdesc_kept | with_reducible apply Dev.flushWin_kept)

theorem Dev.disableRange_kept {a d : Dev} (h : Kept a d) (lo : Nat) (hi : Nat) : Kept a (Dev.disableRange d lo hi) := by
  unfold Dev.disableRange
  try dsimp only
  repeat' (first | with_reducible assumption | with_reducible apply Dev.disableWin_kept | with_reducible apply kept_each | intro _ _ _ | intro _ _ | intro _)

theorem Dev.toStage_kept {a d : Dev} (h : Kept a d) (r : Nat → Nat) (i : Nat) (ws : List W64) : Kept a (Dev.toStage d r i ws) := by
  induction ws generalizing d i with
  | nil => exact h
  | cons w t ih => exact ih (Dev.wr_kept h _ _) _

theorem Dev.winStatus_kept {a d : Dev} (h : Kept a d) (result : Nat) (index : Nat) : Kept a (Dev.winStatus d result index) := by
  unfold Dev.winStatus
  repeat' (first | with_reducible assumption | with_reducible apply Dev.s_kept)

theorem Dev.judgeWinCmd_keeps (d : Dev) (c : WCtx) : (Dev.judgeWinCmd d c).Keeps := by
  unfold Dev.judgeWinCmd
  try dsimp only
  repeat' (first | with_reducible assumption | exact WOut.bad_keeps | exact WOut.none_keeps | exact WOut.unmapped_keeps | with_reducible apply WOut.ok_keeps | with_reducible apply WOut.badEff_keeps | with_reducible apply WOut.group_keeps | with_reducible apply Dev.sb_kept | with_reducible apply Dev.readBusy_keeps | with_reducible apply Dev.putWdesc_kept | with_reducible apply Dev.flushWin_kept | with_reducible apply Dev.toStage_kept | with_reducible apply Dev.winStatus_kept | intro _ _ _ | intro _ _ | intro _ | with_reducible apply kept_ite | simp only [kept_same] | split)

theorem Dev.winDone_kept {a d : Dev} (h : Kept a d) : Kept a (Dev.winDone d) := by
  unfold Dev.winDone
  try dsimp only
  repeat' (first | with_reducible assumption | with_reducible apply Dev.sb_kept | with_reducible apply Dev.winStatus_kept | simp only [kept_same] | split)

theorem Dev.insStatus_kept {a d : Dev} (h : Kept a d) (result : Nat) (index : Nat) : Kept a (Dev.insStatus d result index) := by
  unfold Dev.insStatus
  repeat' (first | with_reducible assumption | with_reducible apply Dev.s_kept)

theorem Dev.doPitch_kept {a d : Dev} (h : Kept a d) (n : Nat) (new : List W64) : Kept a (Dev.doPitch d n new) := by
  unfold Dev.doPitch
  try dsimp only
  repeat' (first | with_reducible assumption | with_reducible apply Dev.setIdesc_kept | with_reducible apply Dev.ringOvf_kept | with_reducible apply Dev.clearMailbox_kept | with_reducible apply Dev.disableRange_kept | intro _ _ _ | intro _ _ | intro _ | simp only [kept_same])

theorem Dev.rebill_kept {a d : Dev} (h : Kept a d) (n : Nat) : Kept a (Dev.rebill d n) := by
  unfold Dev.rebill
  try dsimp only
  repeat' (first | with_reducible assumption | intro _ _ _ | intro _ _ | intro _ | with_reducible apply kept_ite | simp only [kept_same] | split)

theorem Dev.doResize_kept {a d : Dev} (h : Kept a d) (n : Nat) (new : List W64) : Kept a (Dev.doResize d n new) := by
  unfold Dev.doResize
  try dsimp only
  repeat' (first | with_reducible assumption | with_reducible apply Dev.setIdesc_kept | with_reducible apply Dev.pump_kept | with_reducible apply Dev.disableWin_kept | with_reducible apply Dev.rebill_kept | with_reducible apply kept_each | with_reducible apply kept_whenD | intro _ _ _ | intro _ _ | intro _)

theorem Dev.flrStart_kept {a d : Dev} (h : Kept a d) (n : Nat) (destroy : Bool) : Kept a (Dev.flrStart d n destroy) := by
  unfold Dev.flrStart
  try dsimp only
  repeat' (first | with_reducible assumption | with_reducible apply Dev.dropOwned_kept | with_reducible apply Dev.freeHome_kept | with_reducible apply Dev.flushLines_kept | with_reducible apply kept_whenD | intro _ _ _ | intro _ _ | intro _ | with_reducible apply kept_ite | simp only [kept_ins] | simp only [kept_same] | split)

theorem Dev.dlClose_kept {a d : Dev} (h : Kept a d) (t : Nat) (stop : Bool) : Kept a (Dev.dlClose d t stop) := by
  unfold Dev.dlClose
  try dsimp only
  repeat' (first | with_reducible assumption | with_reducible apply Dev.s_kept | with_reducible apply Dev.sb_kept | with_reducible apply Dev.wr_kept | with_reducible apply kept_ite | simp only [kept_same] | split)

theorem Dev.dlDestroyed_kept {a d : Dev} (h : Kept a d) (n : Nat) : Kept a (Dev.dlDestroyed d n) := by
  unfold Dev.dlDestroyed
  try dsimp only
  repeat' (first | with_reducible assumption | with_reducible apply Dev.dlClose_kept | with_reducible apply kept_each | intro _ _ _ | intro _ _ | intro _ | with_reducible apply kept_ite | simp only [kept_same] | split)

theorem Dev.flrFinish_kept {a d : Dev} (h : Kept a d) (n : Nat) : Kept a (Dev.flrFinish d n) := by
  unfold Dev.flrFinish
  try dsimp only
  repeat' (first | with_reducible assumption | with_reducible apply Dev.sb_kept | with_reducible apply Dev.bump_kept | with_reducible apply Dev.is_kept | with_reducible apply Dev.isFlop_kept | with_reducible apply Dev.memZero_kept | with_reducible apply Dev.ringOvf_kept | with_reducible apply Dev.endOps_kept | with_reducible apply Dev.setEv_kept | with_reducible apply Dev.clearMailbox_kept | with_reducible apply Dev.disableRange_kept | with_reducible apply Dev.insStatus_kept | with_reducible apply Dev.dlDestroyed_kept | with_reducible apply Dev.wr_kept | intro _ _ _ | intro _ _ | intro _ | with_reducible apply kept_ite | simp only [kept_ins] | simp only [kept_same] | split)

theorem Dev.judgeInsCmd_keeps (d : Dev) (c : WCtx) : (Dev.judgeInsCmd d c).Keeps := by
  unfold Dev.judgeInsCmd
  try dsimp only
  repeat' (first | with_reducible assumption | exact WOut.bad_keeps | exact WOut.none_keeps | exact WOut.unmapped_keeps | with_reducible apply WOut.ok_keeps | with_reducible apply WOut.badEff_keeps | with_reducible apply WOut.group_keeps | with_reducible apply Dev.sb_kept | with_reducible apply Dev.bump_kept | with_reducible apply Dev.readBusy_keeps | with_reducible apply Dev.toStage_kept | with_reducible apply Dev.insStatus_kept | with_reducible apply Dev.doPitch_kept | with_reducible apply Dev.doResize_kept | with_reducible apply Dev.flrStart_kept | intro _ _ _ | intro _ _ | intro _ | with_reducible apply kept_ite | simp only [kept_ins] | split)

theorem Dev.insDone_kept {a d : Dev} (h : Kept a d) : Kept a (Dev.insDone d) := by
  unfold Dev.insDone
  try dsimp only
  repeat' (first | with_reducible assumption | with_reducible apply Dev.sb_kept | with_reducible apply Dev.insStatus_kept | with_reducible apply Dev.flrFinish_kept | with_reducible apply kept_ite | simp only [kept_ins] | split)

theorem Dev.dlAbort_kept {a d : Dev} (h : Kept a d) : Kept a (Dev.dlAbort d) := by
  unfold Dev.dlAbort
  try dsimp only
  repeat' (first | with_reducible assumption | with_reducible apply Dev.s_kept | with_reducible apply Dev.raise_kept | with_reducible apply kept_each | intro _ _ _ | intro _ _ | intro _ | with_reducible apply kept_ite | split)

theorem Dev.dlStat_kept {a d : Dev} (h : Kept a d) (result : Nat) (t : Nat) : Kept a (Dev.dlStat d result t) := by
  unfold Dev.dlStat
  repeat' (first | with_reducible assumption | with_reducible apply Dev.s_kept)

theorem Dev.dlBegin_kept {a d : Dev} (h : Kept a d) (t : Nat) (w : List W64) : Kept a (Dev.dlBegin d t w) := by
  unfold Dev.dlBegin
  try dsimp only
  repeat' (first | with_reducible assumption | with_reducible apply Dev.wr_kept | simp only [kept_same])

theorem Dev.judgeDlCmd_keeps (d : Dev) (c : WCtx) : (Dev.judgeDlCmd d c).Keeps := by
  unfold Dev.judgeDlCmd
  try dsimp only
  repeat' (first | with_reducible assumption | exact WOut.bad_keeps | exact WOut.none_keeps | exact WOut.unmapped_keeps | with_reducible apply WOut.ok_keeps | with_reducible apply WOut.badEff_keeps | with_reducible apply WOut.group_keeps | with_reducible apply Dev.readBusy_keeps | with_reducible apply Dev.toStage_kept | with_reducible apply Dev.dlClose_kept | with_reducible apply Dev.dlStat_kept | with_reducible apply Dev.dlBegin_kept | intro _ _ _ | intro _ _ | intro _ | with_reducible apply kept_ite | split)

theorem Dev.dlWord_kept {a d : Dev} (h : Kept a d) (tr : Tracker) (half : Bool) (word : Nat) (v : W64) : Kept a (Dev.dlWord d tr half word v) := by
  unfold Dev.dlWord
  try dsimp only
  repeat' (first | with_reducible assumption | with_reducible apply Dev.toHost_kept | with_reducible apply kept_ite | split)

theorem Dev.dlWriteDue_kept {a d : Dev} (h : Kept a d) (t : Nat) (half : Bool) (word : Nat) : Kept a (Dev.dlWriteDue d t half word) := by
  unfold Dev.dlWriteDue
  try dsimp only
  repeat' (first | with_reducible assumption | with_reducible apply Dev.dlWord_kept | with_reducible apply kept_ite | simp only [kept_same] | split)

theorem Dev.dlFinish_kept {a d : Dev} (h : Kept a d) (t : Nat) : Kept a (Dev.dlFinish d t) := by
  unfold Dev.dlFinish
  try dsimp only
  repeat' (first | with_reducible assumption | with_reducible apply Dev.s_kept | with_reducible apply Dev.toHost_kept | with_reducible apply Dev.fireVec_kept | with_reducible apply Dev.dlClose_kept | with_reducible apply Dev.dlWord_kept | with_reducible apply Dev.dlWriteDue_kept | with_reducible apply Dev.wr_kept | with_reducible apply kept_each | with_reducible apply kept_whenD | intro _ _ _ | intro _ _ | intro _ | with_reducible apply kept_ite | simp only [kept_same] | split)

theorem Dev.msixSweep_kept {a d : Dev} (h : Kept a d) (fn : Nat) : Kept a (Dev.msixSweep d fn) := by
  unfold Dev.msixSweep
  try dsimp only
  repeat' (first | with_reducible assumption | with_reducible apply Dev.sendMsix_kept | with_reducible apply kept_each | intro _ _ _ | intro _ _ | intro _ | with_reducible apply kept_ite | split)

theorem Dev.msixDwWrite_kept {a d : Dev} (h : Kept a d) (fn : Nat) (off : Nat) (be : Nat) (data : W64) : Kept a (Dev.msixDwWrite d fn off be data) := by
  unfold Dev.msixDwWrite
  try dsimp only
  repeat' (first | with_reducible assumption | exact WOut.bad_keeps | exact WOut.none_keeps | exact WOut.unmapped_keeps | with_reducible apply WOut.ok_keeps | with_reducible apply Dev.sendMsix_kept | with_reducible apply Dev.commitS_kept | intro _ _ _ | intro _ _ | intro _ | with_reducible apply kept_ite | simp only [kept_same] | split)

theorem Dev.msixWrite_kept {a d : Dev} (h : Kept a d) (fn : Nat) (off : Nat) (size8 : Bool) (be : Nat) (data : W64) : Kept a (Dev.msixWrite d fn off size8 be data) := by
  unfold Dev.msixWrite
  repeat' (first | with_reducible assumption | exact WOut.bad_keeps | exact WOut.none_keeps | exact WOut.unmapped_keeps | with_reducible apply WOut.ok_keeps | with_reducible apply Dev.bump_kept | with_reducible apply Dev.aerUr_kept | with_reducible apply Dev.commitS_kept | with_reducible apply Dev.msixDwWrite_kept | intro _ _ _ | intro _ _ | intro _ | with_reducible apply kept_ite | split)

theorem Dev.cfgReset_kept {a d : Dev} (h : Kept a d) (fn : Nat) (sticky : Bool) : Kept a (Dev.cfgReset d fn sticky) := by
  unfold Dev.cfgReset
  try dsimp only
  repeat' (first | with_reducible assumption | intro _ _ _ | intro _ _ | intro _ | simp only [kept_same])

theorem Dev.vfFlr_kept {a d : Dev} (h : Kept a d) (n : Nat) : Kept a (Dev.vfFlr d n) := by
  unfold Dev.vfFlr
  repeat' (first | with_reducible assumption | with_reducible apply Dev.flrStart_kept | with_reducible apply Dev.cfgReset_kept)

theorem Dev.pushReset_kept {a d : Dev} (h : Kept a d) : Kept a (Dev.pushReset d) := by
  unfold Dev.pushReset
  repeat' (first | with_reducible assumption | with_reducible apply Dev.unset_kept)

theorem Dev.pfReset_kept {a d : Dev} (h : Kept a d) (sticky : Bool) : Kept a (Dev.pfReset d sticky) := by
  unfold Dev.pfReset
  try dsimp only
  repeat' (first | with_reducible assumption | with_reducible apply Dev.flrStart_kept | with_reducible apply Dev.dlAbort_kept | with_reducible apply Dev.cfgReset_kept | with_reducible apply Dev.vfFlr_kept | with_reducible apply Dev.pushReset_kept | with_reducible apply kept_each | intro _ _ _ | intro _ _ | intro _)

theorem Dev.hostPathLost_kept {a d : Dev} (h : Kept a d) : Kept a (Dev.hostPathLost d) := by
  unfold Dev.hostPathLost
  try dsimp only
  repeat' (first | with_reducible assumption | with_reducible apply Dev.bumpBy_kept | with_reducible apply Dev.raise_kept | with_reducible apply Dev.setEgress_kept | with_reducible apply Dev.lostPosted_kept | with_reducible apply Dev.answer_kept | with_reducible apply Dev.endOps_kept | with_reducible apply kept_each | with_reducible apply kept_foldl | with_reducible apply kept_foldl_fst | with_reducible apply kept_foldl_snd | intro _ _ _ | intro _ _ | intro _ | with_reducible apply kept_ite | split)

theorem Dev.linkLost_kept {a d : Dev} (h : Kept a d) (ltssm : Nat) : Kept a (Dev.linkLost d ltssm) := by
  unfold Dev.linkLost
  try dsimp only
  repeat' (first | with_reducible assumption | with_reducible apply Dev.s_kept | with_reducible apply Dev.sb_kept | with_reducible apply Dev.pfReset_kept | with_reducible apply Dev.hostPathLost_kept | simp only [kept_same])

theorem Dev.hstCounters_kept {a d : Dev} (h : Kept a d) : Kept a (Dev.hstCounters d) := by
  unfold Dev.hstCounters
  try dsimp only
  repeat' (first | with_reducible assumption | with_reducible apply Dev.unset_kept | with_reducible apply kept_each | intro _ _ _ | intro _ _ | intro _)

theorem Dev.setVfEnable_kept {a d : Dev} (h : Kept a d) (b : Bool) : Kept a (Dev.setVfEnable d b) := by
  unfold Dev.setVfEnable
  try dsimp only
  repeat' (first | with_reducible assumption | with_reducible apply Dev.setCfgBit_kept | with_reducible apply Dev.vfFlr_kept | with_reducible apply kept_each | intro _ _ _ | intro _ _ | intro _ | with_reducible apply kept_ite | split)

theorem Dev.pfFlr_kept {a d : Dev} (h : Kept a d) : Kept a (Dev.pfFlr d) := by
  unfold Dev.pfFlr
  repeat' (first | with_reducible assumption | with_reducible apply Dev.pfReset_kept)

theorem Dev.cfgEffect_kept {a d : Dev} (h : Kept a d) (fn : Nat) (off : Nat) (data : Nat) (new : W32) : Kept a (Dev.cfgEffect d fn off data new) := by
  unfold Dev.cfgEffect
  try dsimp only
  repeat' (first | with_reducible assumption | with_reducible apply Dev.setCfg_kept | with_reducible apply Dev.msixSweep_kept | with_reducible apply Dev.vfFlr_kept | with_reducible apply Dev.setVfEnable_kept | with_reducible apply Dev.pfFlr_kept | intro _ _ _ | intro _ _ | intro _ | with_reducible apply kept_ite | split)

theorem Dev.cfgWrite_kept {a d : Dev} (h : Kept a d) (fn : Nat) (off : Nat) (be : Nat) (data : W32) : Kept a (Dev.cfgWrite d fn off be data) := by
  unfold Dev.cfgWrite
  try dsimp only
  repeat' (first | with_reducible assumption | exact WOut.bad_keeps | exact WOut.none_keeps | exact WOut.unmapped_keeps | with_reducible apply WOut.ok_keeps | with_reducible apply Dev.emit_kept | with_reducible apply Dev.bump_kept | with_reducible apply Dev.aerUr_kept | with_reducible apply Dev.commitS_kept | with_reducible apply Dev.cfgEffect_kept | intro _ _ _ | intro _ _ | intro _ | with_reducible apply kept_ite | split)

theorem Dev.judgePfVectors_keeps (d : Dev) (c : WCtx) : (Dev.judgePfVectors d c).Keeps := by
  unfold Dev.judgePfVectors
  try dsimp only
  repeat' (first | with_reducible assumption | exact WOut.bad_keeps | exact WOut.none_keeps | exact WOut.unmapped_keeps | with_reducible apply WOut.ok_keeps | with_reducible apply WOut.badEff_keeps | with_reducible apply WOut.group_keeps | with_reducible apply Dev.wr_kept | intro _ _ _ | intro _ _ | intro _ | with_reducible apply kept_ite | split)

theorem Dev.hostCpl_kept {a d : Dev} (h : Kept a d) (t : Nat) (st : HostStatus) (data : List Byte) : Kept a (Dev.hostCpl d t st data) := by
  unfold Dev.hostCpl
  try dsimp only
  repeat' (first | with_reducible assumption | with_reducible apply Dev.bump_kept | with_reducible apply Dev.aerUnc_kept | with_reducible apply Dev.pumpHost_kept | with_reducible apply Dev.pieceDone_kept | with_reducible apply Dev.freeHostTag_kept | with_reducible apply kept_ite | split)

theorem Dev.hostCplTimeout_kept {a d : Dev} (h : Kept a d) (t : Nat) : Kept a (Dev.hostCplTimeout d t) := by
  unfold Dev.hostCplTimeout
  try dsimp only
  repeat' (first | with_reducible assumption | with_reducible apply Dev.bump_kept | with_reducible apply Dev.raise_kept | with_reducible apply Dev.aerUnc_kept | with_reducible apply Dev.pumpHost_kept | with_reducible apply Dev.pieceDone_kept | with_reducible apply Dev.freeHostTag_kept | with_reducible apply kept_ite | split)

theorem Dev.hostMsg_kept {a d : Dev} (h : Kept a d) (fn : Nat) (m : HostMsg) : Kept a (Dev.hostMsg d fn m) := by
  unfold Dev.hostMsg
  try dsimp only
  repeat' (first | with_reducible assumption | with_reducible apply Dev.aerUr_kept | split)

theorem Dev.hostError_kept {a d : Dev} (h : Kept a d) (e : HostErr) (fn : Nat) : Kept a (Dev.hostError d e fn) := by
  unfold Dev.hostError
  try dsimp only
  repeat' (first | with_reducible assumption | with_reducible apply Dev.s_kept | with_reducible apply Dev.bump_kept | with_reducible apply Dev.raise_kept | with_reducible apply Dev.aerCor_kept | with_reducible apply Dev.aerUnc_kept | intro _ _ _ | intro _ _ | intro _ | simp only [kept_same] | split)

theorem Dev.hostCorrEnd_kept {a d : Dev} (h : Kept a d) : Kept a (Dev.hostCorrEnd d) := by
  unfold Dev.hostCorrEnd
  try dsimp only
  repeat' (first | with_reducible assumption | with_reducible apply Dev.raise_kept | with_reducible apply kept_whenD | intro _ _ _ | intro _ _ | intro _ | simp only [kept_same])

theorem Dev.hostUp_kept {a d : Dev} (h : Kept a d) (speed : Nat) (width : Nat) (flit : Bool) : Kept a (Dev.hostUp d speed width flit) := by
  unfold Dev.hostUp
  try dsimp only
  repeat' (first | with_reducible assumption | with_reducible apply Dev.s_kept | with_reducible apply Dev.sb_kept | with_reducible apply Dev.raise_kept | with_reducible apply kept_whenD | intro _ _ _ | intro _ _ | intro _ | simp only [kept_same])

end Sys2Proof.Machine
end

