-- ==== Sys2Proof/Laws/KeptNet.lean ====
section
/-! SUPPORT. `Kept` over discovery, routing and the LIC: one lemma per function. -/
namespace Sys2Proof.Machine

theorem Dev.setNbr_kept {a d : Dev} (h : Kept a d) (p : Nat) (n : Nbr) : Kept a (Dev.setNbr d p n) := by
  unfold Dev.setNbr
  repeat' (first | with_reducible assumption | simp only [kept_same])

theorem Dev.netSend_kept {a d : Dev} (h : Kept a d) (p : Nat) (b : List Byte) : Kept a (Dev.netSend d p b) := by
  unfold Dev.netSend
  repeat' (first | with_reducible assumption | with_reducible apply Dev.enqueue_kept | with_reducible apply kept_ite | split)

theorem Dev.sendHello_kept {a d : Dev} (h : Kept a d) (p : Nat) : Kept a (Dev.sendHello d p) := by
  unfold Dev.sendHello
  try dsimp only
  repeat' (first | with_reducible assumption | with_reducible apply Dev.setNbr_kept | with_reducible apply Dev.netSend_kept | with_reducible apply kept_ite | simp only [kept_same] | split)

theorem Dev.sendLsa_kept {a d : Dev} (h : Kept a d) (p : Nat) (l : Lsa) : Kept a (Dev.sendLsa d p l) := by
  unfold Dev.sendLsa
  repeat' (first | with_reducible assumption | with_reducible apply Dev.netSend_kept)

theorem Dev.sendKeys_kept {a d : Dev} (h : Kept a d) (p : Nat) (typ : Nat) (last : Bool) (ks : List LsaKey) : Kept a (Dev.sendKeys d p typ last ks) := by
  unfold Dev.sendKeys
  try dsimp only
  repeat' (first | with_reducible assumption | with_reducible apply Dev.netSend_kept | with_reducible apply kept_each | intro _ _ _ | intro _ _ | intro _)

theorem Dev.netEv_kept {a d : Dev} (h : Kept a d) (before : Nat) (code : Nat) (port : Nat) : Kept a (Dev.netEv d before code port) := by
  unfold Dev.netEv
  repeat' (first | with_reducible assumption | with_reducible apply Dev.logEv_kept)

theorem Dev.dbChanged_kept {a d : Dev} (h : Kept a d) : Kept a (Dev.dbChanged d) := by
  unfold Dev.dbChanged
  repeat' (first | with_reducible assumption | with_reducible apply Dev.sb_kept | simp only [kept_same])

theorem Dev.floodOn_kept {a d : Dev} (h : Kept a d) (l : Lsa) (p : Nat) : Kept a (Dev.floodOn d l p) := by
  unfold Dev.floodOn
  try dsimp only
  repeat' (first | with_reducible assumption | with_reducible apply Dev.setNbr_kept | with_reducible apply Dev.sendLsa_kept | with_reducible apply kept_ite | simp only [kept_same] | split)

theorem Dev.flood_kept {a d : Dev} (h : Kept a d) (l : Lsa) (skip : Nat) : Kept a (Dev.flood d l skip) := by
  unfold Dev.flood
  try dsimp only
  repeat' (first | with_reducible assumption | with_reducible apply Dev.floodOn_kept | with_reducible apply kept_each | intro _ _ _ | intro _ _ | intro _)

theorem Dev.noteInc_kept {a d : Dev} (h : Kept a d) (a_ : Addr) (noAddr : Bool) (s : Serial) (inc : W32) : Kept a (Dev.noteInc d a_ noAddr s inc) := by
  unfold Dev.noteInc
  try dsimp only
  repeat' (first | with_reducible assumption | with_reducible apply Dev.incarnationChanged_kept | with_reducible apply kept_whenD | intro _ _ _ | intro _ _ | intro _ | with_reducible apply kept_ite | simp only [kept_same] | split)

theorem Dev.originate_kept {a d : Dev} (h : Kept a d) : Kept a (Dev.originate d) := by
  unfold Dev.originate
  try dsimp only
  repeat' (first | with_reducible assumption | with_reducible apply Dev.bump_kept | with_reducible apply Dev.dbChanged_kept | with_reducible apply Dev.flood_kept | simp only [kept_same])

theorem Dev.lsaDue_kept {a d : Dev} (h : Kept a d) : Kept a (Dev.lsaDue d) := by
  unfold Dev.lsaDue
  repeat' (first | with_reducible assumption | simp only [kept_same])

theorem Dev.quarantine_kept {a d : Dev} (h : Kept a d) (src : Nat) : Kept a (Dev.quarantine d src) := by
  unfold Dev.quarantine
  repeat' (first | with_reducible assumption | with_reducible apply Dev.s_kept | with_reducible apply Dev.sb_kept | with_reducible apply Dev.raise_kept | with_reducible apply Dev.netEv_kept)

theorem Dev.setAddr_kept {a d : Dev} (h : Kept a d) (a_ : Addr) (valid : Bool) : Kept a (Dev.setAddr d a_ valid) := by
  unfold Dev.setAddr
  repeat' (first | with_reducible assumption | with_reducible apply Dev.s_kept | with_reducible apply Dev.sb_kept)

theorem Dev.takeMember_kept {a d : Dev} (h : Kept a d) (ms : List Nat) : Kept a (Dev.takeMember d ms) := by
  unfold Dev.takeMember
  try dsimp only
  repeat' (first | with_reducible assumption | with_reducible apply Dev.s_kept | with_reducible apply Dev.quarantine_kept | with_reducible apply Dev.setAddr_kept | intro _ _ _ | intro _ _ | intro _ | split)

theorem Dev.yieldMember_kept {a d : Dev} (h : Kept a d) : Kept a (Dev.yieldMember d) := by
  unfold Dev.yieldMember
  try dsimp only
  repeat' (first | with_reducible assumption | with_reducible apply Dev.bump_kept | with_reducible apply Dev.netEv_kept | with_reducible apply Dev.quarantine_kept | with_reducible apply Dev.takeMember_kept | with_reducible apply kept_ite | simp only [kept_same] | split)

theorem Dev.dupCheck_kept {a d : Dev} (h : Kept a d) : Kept a (Dev.dupCheck d) := by
  unfold Dev.dupCheck
  try dsimp only
  repeat' (first | with_reducible assumption | with_reducible apply Dev.s_kept | with_reducible apply Dev.raise_kept | with_reducible apply Dev.netEv_kept | with_reducible apply Dev.originate_kept | with_reducible apply Dev.quarantine_kept | with_reducible apply Dev.yieldMember_kept | with_reducible apply kept_each | intro _ _ _ | intro _ _ | intro _ | with_reducible apply kept_ite | simp only [kept_same] | split)

theorem Dev.claimCheck_kept {a d : Dev} (h : Kept a d) : Kept a (Dev.claimCheck d) := by
  unfold Dev.claimCheck
  try dsimp only
  repeat' (first | with_reducible assumption | with_reducible apply Dev.s_kept | with_reducible apply Dev.sb_kept | with_reducible apply Dev.netEv_kept | with_reducible apply Dev.originate_kept | with_reducible apply Dev.quarantine_kept | with_reducible apply Dev.takeMember_kept | with_reducible apply Dev.yieldMember_kept | with_reducible apply Dev.dupCheck_kept | intro _ _ _ | intro _ _ | intro _ | with_reducible apply kept_ite | simp only [kept_same] | split)

theorem Dev.leaveNbr_kept {a d : Dev} (h : Kept a d) (p : Nat) (st : Nat) : Kept a (Dev.leaveNbr d p st) := by
  unfold Dev.leaveNbr
  try dsimp only
  repeat' (first | with_reducible assumption | with_reducible apply Dev.s_kept | with_reducible apply Dev.sb_kept | with_reducible apply Dev.setNbr_kept | with_reducible apply Dev.lsaDue_kept | with_reducible apply kept_whenD | intro _ _ _ | intro _ _ | intro _ | simp only [kept_same])

theorem Dev.nbrDown_kept {a d : Dev} (h : Kept a d) (p : Nat) : Kept a (Dev.nbrDown d p) := by
  unfold Dev.nbrDown
  repeat' (first | with_reducible assumption | with_reducible apply Dev.sb_kept | with_reducible apply Dev.leaveNbr_kept | with_reducible apply kept_ite | split)

theorem Dev.tryFull_kept {a d : Dev} (h : Kept a d) (p : Nat) : Kept a (Dev.tryFull d p) := by
  unfold Dev.tryFull
  repeat' (first | with_reducible assumption | with_reducible apply Dev.s_kept | with_reducible apply Dev.lsaDue_kept | with_reducible apply Dev.claimCheck_kept | with_reducible apply kept_ite | split)

theorem Dev.startExchange_kept {a d : Dev} (h : Kept a d) (p : Nat) : Kept a (Dev.startExchange d p) := by
  unfold Dev.startExchange
  repeat' (first | with_reducible assumption | with_reducible apply Dev.s_kept | with_reducible apply Dev.sendKeys_kept | with_reducible apply Dev.tryFull_kept)

theorem Dev.fabricOpen_kept {a d : Dev} (h : Kept a d) (p : Nat) : Kept a (Dev.fabricOpen d p) := by
  unfold Dev.fabricOpen
  repeat' (first | with_reducible assumption | with_reducible apply Dev.sb_kept | with_reducible apply Dev.sendHello_kept)

theorem Dev.fabricDown_kept {a d : Dev} (h : Kept a d) (p : Nat) : Kept a (Dev.fabricDown d p) := by
  unfold Dev.fabricDown
  try dsimp only
  repeat' (first | with_reducible assumption | with_reducible apply Dev.sb_kept | with_reducible apply Dev.bump_kept | with_reducible apply Dev.raise_kept | with_reducible apply Dev.netEv_kept | with_reducible apply Dev.lsaDue_kept | with_reducible apply Dev.nbrDown_kept | with_reducible apply kept_ite | split)

theorem Dev.undamp_kept {a d : Dev} (h : Kept a d) (p : Nat) : Kept a (Dev.undamp d p) := by
  unfold Dev.undamp
  repeat' (first | with_reducible assumption | with_reducible apply Dev.sb_kept | with_reducible apply Dev.netEv_kept | with_reducible apply Dev.lsaDue_kept | with_reducible apply kept_ite | split)

theorem Dev.helloCap_kept {a d : Dev} (h : Kept a d) (p : Nat) : Kept a (Dev.helloCap d p).1 := by
  unfold Dev.helloCap
  try dsimp only
  repeat' (first | with_reducible assumption | with_reducible apply Dev.bump_kept | with_reducible apply Dev.setNbr_kept | with_reducible apply kept_ite | simp only [kept_same] | split)

theorem Dev.netUndef_kept {a d : Dev} (h : Kept a d) : Kept a (Dev.netUndef d) := by
  unfold Dev.netUndef
  repeat' (first | with_reducible assumption | with_reducible apply Dev.bump_kept)

theorem Dev.helloIn_kept {a d : Dev} (h : Kept a d) (p : Nat) (h_ : Hello) : Kept a (Dev.helloIn d p h_) := by
  unfold Dev.helloIn
  try dsimp only
  repeat' (first | with_reducible assumption | with_reducible apply Dev.s_kept | with_reducible apply Dev.sb_kept | with_reducible apply Dev.raise_kept | with_reducible apply Dev.setNbr_kept | with_reducible apply Dev.sendHello_kept | with_reducible apply Dev.noteInc_kept | with_reducible apply Dev.leaveNbr_kept | with_reducible apply Dev.nbrDown_kept | with_reducible apply Dev.startExchange_kept | with_reducible apply kept_whenD | intro _ _ _ | intro _ _ | intro _ | with_reducible apply kept_ite | simp only [kept_same] | split)

theorem Dev.consumeRaw_kept {a d : Dev} (h : Kept a d) (p : Nat) (b : List Byte) : Kept a (Dev.consumeRaw d p b) := by
  unfold Dev.consumeRaw
  try dsimp only
  repeat' (first | with_reducible assumption | intro _ _ _ | intro _ _ | intro _ | simp only [kept_same] | split)

theorem Dev.helloCmd_kept {a d : Dev} (h : Kept a d) (p : Nat) (h_ : Hello) : Kept a (Dev.helloCmd d p h_) := by
  unfold Dev.helloCmd
  try dsimp only
  repeat' (first | with_reducible assumption | with_reducible apply Dev.helloCap_kept | with_reducible apply Dev.netUndef_kept | with_reducible apply Dev.helloIn_kept | with_reducible apply kept_ite | split)

theorem Dev.nbrDead_kept {a d : Dev} (h : Kept a d) (p : Nat) : Kept a (Dev.nbrDead d p) := by
  unfold Dev.nbrDead
  repeat' (first | with_reducible assumption | with_reducible apply Dev.nbrDown_kept)

theorem Dev.install_kept {a d : Dev} (h : Kept a d) (l : Lsa) : Kept a (Dev.install d l) := by
  unfold Dev.install
  try dsimp only
  repeat' (first | with_reducible assumption | with_reducible apply Dev.bump_kept | with_reducible apply Dev.dbChanged_kept | with_reducible apply Dev.noteInc_kept | simp only [kept_same])

theorem Dev.ackLsa_kept {a d : Dev} (h : Kept a d) (p : Nat) (l : Lsa) : Kept a (Dev.ackLsa d p l) := by
  unfold Dev.ackLsa
  repeat' (first | with_reducible assumption | with_reducible apply Dev.sendKeys_kept)

theorem Dev.ownBack_kept {a d : Dev} (h : Kept a d) (p : Nat) (l : Lsa) : Kept a (Dev.ownBack d p l) := by
  unfold Dev.ownBack
  try dsimp only
  repeat' (first | with_reducible assumption | with_reducible apply Dev.floodOn_kept | with_reducible apply Dev.originate_kept | with_reducible apply Dev.ackLsa_kept | simp only [kept_same] | split)

theorem Dev.otherLsa_kept {a d : Dev} (h : Kept a d) (p : Nat) (l : Lsa) : Kept a (Dev.otherLsa d p l) := by
  unfold Dev.otherLsa
  try dsimp only
  repeat' (first | with_reducible assumption | with_reducible apply Dev.raise_kept | with_reducible apply Dev.floodOn_kept | with_reducible apply Dev.flood_kept | with_reducible apply Dev.dupCheck_kept | with_reducible apply Dev.install_kept | with_reducible apply Dev.ackLsa_kept | with_reducible apply kept_ite | split)

theorem Dev.lsaCmd_kept {a d : Dev} (h : Kept a d) (p : Nat) (h_ : NetHdr) (l : Lsa) : Kept a (Dev.lsaCmd d p h_ l) := by
  unfold Dev.lsaCmd
  try dsimp only
  repeat' (first | with_reducible assumption | with_reducible apply Dev.setNbr_kept | with_reducible apply Dev.tryFull_kept | with_reducible apply Dev.netUndef_kept | with_reducible apply Dev.ownBack_kept | with_reducible apply Dev.otherLsa_kept | intro _ _ _ | intro _ _ | intro _ | with_reducible apply kept_ite | simp only [kept_same] | split)

theorem Dev.ackCmd_kept {a d : Dev} (h : Kept a d) (p : Nat) (h_ : NetHdr) (ks : List LsaKey) : Kept a (Dev.ackCmd d p h_ ks) := by
  unfold Dev.ackCmd
  try dsimp only
  repeat' (first | with_reducible assumption | with_reducible apply Dev.setNbr_kept | with_reducible apply Dev.netUndef_kept | intro _ _ _ | intro _ _ | intro _ | with_reducible apply kept_ite | simp only [kept_same] | split)

theorem Dev.summaryCmd_kept {a d : Dev} (h : Kept a d) (p : Nat) (h_ : NetHdr) (last : Bool) (ks : List LsaKey) : Kept a (Dev.summaryCmd d p h_ last ks) := by
  unfold Dev.summaryCmd
  try dsimp only
  repeat' (first | with_reducible assumption | with_reducible apply Dev.sb_kept | with_reducible apply Dev.setNbr_kept | with_reducible apply Dev.sendKeys_kept | with_reducible apply Dev.tryFull_kept | with_reducible apply Dev.netUndef_kept | with_reducible apply kept_whenD | intro _ _ _ | intro _ _ | intro _ | with_reducible apply kept_ite | simp only [kept_same] | split)

theorem Dev.requestCmd_kept {a d : Dev} (h : Kept a d) (p : Nat) (h_ : NetHdr) (ks : List LsaKey) : Kept a (Dev.requestCmd d p h_ ks) := by
  unfold Dev.requestCmd
  try dsimp only
  repeat' (first | with_reducible assumption | with_reducible apply Dev.floodOn_kept | with_reducible apply Dev.netUndef_kept | with_reducible apply kept_each | intro _ _ _ | intro _ _ | intro _ | with_reducible apply kept_ite | split)

theorem Dev.requestAgain_kept {a d : Dev} (h : Kept a d) (p : Nat) : Kept a (Dev.requestAgain d p) := by
  unfold Dev.requestAgain
  repeat' (first | with_reducible assumption | with_reducible apply Dev.sendKeys_kept | with_reducible apply kept_ite | split)

theorem Dev.lsaAgain_kept {a d : Dev} (h : Kept a d) (p : Nat) : Kept a (Dev.lsaAgain d p) := by
  unfold Dev.lsaAgain
  try dsimp only
  repeat' (first | with_reducible assumption | with_reducible apply Dev.sendLsa_kept | with_reducible apply kept_each | intro _ _ _ | intro _ _ | intro _ | with_reducible apply kept_ite | split)

theorem Dev.originateCmd_kept {a d : Dev} (h : Kept a d) : Kept a (Dev.originateCmd d) := by
  unfold Dev.originateCmd
  repeat' (first | with_reducible assumption | with_reducible apply Dev.originate_kept | with_reducible apply kept_ite | split)

theorem Dev.deleteLsa_kept {a d : Dev} (h : Kept a d) (s : Serial) : Kept a (Dev.deleteLsa d s) := by
  unfold Dev.deleteLsa
  repeat' (first | with_reducible assumption | with_reducible apply Dev.dbChanged_kept | with_reducible apply kept_ite | simp only [kept_same] | split)

theorem Dev.routeRun_kept {a d : Dev} (h : Kept a d) : Kept a (Dev.routeRun d) := by
  unfold Dev.routeRun
  repeat' (first | with_reducible assumption | with_reducible apply Dev.bump_kept | with_reducible apply kept_ite | simp only [kept_same] | split)

theorem Dev.convergedNow_kept {a d : Dev} (h : Kept a d) : Kept a (Dev.convergedNow d) := by
  unfold Dev.convergedNow
  try dsimp only
  repeat' (first | with_reducible assumption | with_reducible apply Dev.sb_kept | with_reducible apply kept_ite | simp only [kept_same] | split)

theorem Dev.routeInstall_kept {a d : Dev} (h : Kept a d) : Kept a (Dev.routeInstall d) := by
  unfold Dev.routeInstall
  try dsimp only
  repeat' (first | with_reducible assumption | with_reducible apply Dev.s_kept | with_reducible apply Dev.sb_kept | with_reducible apply Dev.raise_kept | with_reducible apply Dev.licPulse_kept | with_reducible apply Dev.snapWrite_kept | with_reducible apply Dev.convergedNow_kept | with_reducible apply kept_whenD | intro _ _ _ | intro _ _ | intro _ | with_reducible apply kept_ite | simp only [kept_same] | split)

theorem Dev.convergenceCmd_kept {a d : Dev} (h : Kept a d) : Kept a (Dev.convergenceCmd d) := by
  unfold Dev.convergenceCmd
  try dsimp only
  repeat' (first | with_reducible assumption | with_reducible apply Dev.claimCheck_kept | with_reducible apply Dev.convergedNow_kept | intro _ _ _ | intro _ _ | intro _ | with_reducible apply kept_ite | split)

theorem Dev.setWordBit_kept {a d : Dev} (h : Kept a d) (off : Nat) (i : Nat) (b : Bool) : Kept a (Dev.setWordBit d off i b) := by
  unfold Dev.setWordBit
  repeat' (first | with_reducible assumption | with_reducible apply Dev.wr_kept)

theorem Dev.sendDeliver_kept {a d : Dev} (h : Kept a d) (c : Nat) (n : Nat) (kind : Nat) (prio : Nat) (vec : W64) : Kept a (Dev.sendDeliver d c n kind prio vec) := by
  unfold Dev.sendDeliver
  repeat' (first | with_reducible assumption | with_reducible apply Dev.enqueue_kept)

theorem Dev.withdrawOffer_kept {a d : Dev} (h : Kept a d) (c : Nat) : Kept a (Dev.withdrawOffer d c) := by
  unfold Dev.withdrawOffer
  try dsimp only
  repeat' (first | with_reducible assumption | with_reducible apply Dev.s_kept | with_reducible apply Dev.bump_kept | with_reducible apply Dev.sendDeliver_kept | with_reducible apply kept_ite | split)

theorem Dev.setPrep_kept {a d : Dev} (h : Kept a d) (c : Nat) (n : Option Nat) : Kept a (Dev.setPrep d c n) := by
  unfold Dev.setPrep
  try dsimp only
  repeat' (first | with_reducible assumption | simp only [kept_same] | split)

theorem Dev.choose_kept {a d : Dev} (h : Kept a d) (ready : List Nat) (c : Nat) : Kept a (Dev.choose d ready c) := by
  unfold Dev.choose
  try dsimp only
  repeat' (first | with_reducible assumption | with_reducible apply Dev.s_kept | with_reducible apply Dev.bump_kept | with_reducible apply Dev.sendDeliver_kept | with_reducible apply Dev.withdrawOffer_kept | with_reducible apply Dev.setPrep_kept | with_reducible apply kept_ite | split)

theorem Dev.licChoose_kept {a d : Dev} (h : Kept a d) : Kept a (Dev.licChoose d) := by
  unfold Dev.licChoose
  try dsimp only
  repeat' (first | with_reducible assumption | with_reducible apply Dev.choose_kept | with_reducible apply kept_each | intro _ _ _ | intro _ _ | intro _ | with_reducible apply kept_ite | split)

theorem Dev.activate_kept {a d : Dev} (h : Kept a d) (c : Nat) (n : Nat) : Kept a (Dev.activate d c n) := by
  unfold Dev.activate
  try dsimp only
  repeat' (first | with_reducible assumption | with_reducible apply Dev.setWordBit_kept | with_reducible apply Dev.wr_kept | with_reducible apply kept_ite | simp only [kept_same] | split)

theorem Dev.deliverPrep_kept {a d : Dev} (h : Kept a d) (c : Nat) : Kept a (Dev.deliverPrep d c) := by
  unfold Dev.deliverPrep
  try dsimp only
  repeat' (first | with_reducible assumption | with_reducible apply Dev.s_kept | with_reducible apply Dev.bump_kept | with_reducible apply Dev.sendDeliver_kept | with_reducible apply Dev.setPrep_kept | with_reducible apply Dev.activate_kept | with_reducible apply kept_ite | split)

theorem Dev.deliverWaits_kept {a d : Dev} (h : Kept a d) (p : Nat) : Kept a (Dev.deliverWaits d p) := by
  unfold Dev.deliverWaits
  try dsimp only
  repeat' (first | with_reducible assumption | with_reducible apply Dev.raise_kept | intro _ _ _ | intro _ _ | intro _ | with_reducible apply kept_ite | split)

theorem Dev.claim_kept {a d : Dev} (h : Kept a d) (c : Nat) : Kept a (Dev.claim d c).1 := by
  unfold Dev.claim
  try dsimp only
  repeat' (first | with_reducible assumption | with_reducible apply Dev.s_kept | with_reducible apply Dev.bump_kept | with_reducible apply Dev.activate_kept | intro _ _ _ | intro _ _ | intro _ | split)

theorem Dev.deactivate_kept {a d : Dev} (h : Kept a d) (c : Nat) (n : Nat) : Kept a (Dev.deactivate d c n) := by
  unfold Dev.deactivate
  repeat' (first | with_reducible assumption | with_reducible apply Dev.s_kept | with_reducible apply Dev.setWordBit_kept | with_reducible apply kept_ite | simp only [kept_same] | split)

theorem Dev.repend_kept {a d : Dev} (h : Kept a d) (c : Nat) (n : Nat) : Kept a (Dev.repend d c n) := by
  unfold Dev.repend
  repeat' (first | with_reducible assumption | with_reducible apply Dev.s_kept | with_reducible apply Dev.setPend_kept | with_reducible apply Dev.setWordBit_kept | with_reducible apply kept_ite | split)

theorem Dev.licEoi_kept {a d : Dev} (h : Kept a d) (c : Nat) (n : Nat) : Kept a (Dev.licEoi d c n) := by
  unfold Dev.licEoi
  try dsimp only
  repeat' (first | with_reducible assumption | with_reducible apply Dev.bump_kept | with_reducible apply Dev.raise_kept | with_reducible apply Dev.setPend_kept | with_reducible apply Dev.deactivate_kept | with_reducible apply kept_whenD | intro _ _ _ | intro _ _ | intro _ | with_reducible apply kept_ite | split)

theorem Dev.coreLost_kept {a d : Dev} (h : Kept a d) (c : Nat) : Kept a (Dev.coreLost d c).1 := by
  unfold Dev.coreLost
  try dsimp only
  repeat' (first | with_reducible assumption | with_reducible apply Dev.s_kept | with_reducible apply Dev.setPrep_kept | with_reducible apply Dev.deactivate_kept | with_reducible apply Dev.repend_kept | with_reducible apply kept_each | intro _ _ _ | intro _ _ | intro _ | with_reducible apply kept_ite | split)

theorem Dev.coresLost_kept {a d : Dev} (h : Kept a d) (cs : List Nat) : Kept a (Dev.coresLost d cs) := by
  unfold Dev.coresLost
  try dsimp only
  repeat' (first | with_reducible assumption | with_reducible apply Dev.bumpBy_kept | with_reducible apply Dev.raise_kept | with_reducible apply Dev.coreLost_kept | with_reducible apply kept_foldl | with_reducible apply kept_foldl_fst | with_reducible apply kept_foldl_snd | intro _ _ _ | intro _ _ | intro _ | with_reducible apply kept_ite | split)

theorem Dev.licSession_kept {a d : Dev} (h : Kept a d) (n : Nat) : Kept a (Dev.licSession d n) := by
  unfold Dev.licSession
  try dsimp only
  repeat' (first | with_reducible assumption | with_reducible apply Dev.coresLost_kept | intro _ _ _ | intro _ _ | intro _)

theorem Dev.lineAct_kept {a d : Dev} (h : Kept a d) (n : Nat) (up : Bool) : Kept a (Dev.lineAct d n up) := by
  unfold Dev.lineAct
  try dsimp only
  repeat' (first | with_reducible assumption | with_reducible apply Dev.bump_kept | with_reducible apply Dev.setPend_kept | with_reducible apply Dev.setWordBit_kept | with_reducible apply kept_whenD | intro _ _ _ | intro _ _ | intro _ | with_reducible apply kept_ite | split)

theorem Dev.capture_kept {a d : Dev} (h : Kept a d) (x : Capture) : Kept a (Dev.capture d x) := by
  unfold Dev.capture
  repeat' (first | with_reducible assumption | simp only [kept_same])

theorem Dev.mirrorLine_kept {a d : Dev} (h : Kept a d) (n : Nat) (up : Bool) : Kept a (Dev.mirrorLine d n up) := by
  unfold Dev.mirrorLine
  try dsimp only
  repeat' (first | with_reducible assumption | intro _ _ _ | intro _ _ | intro _ | simp only [kept_same])

theorem Dev.raiseMsg_kept {a d : Dev} (h : Kept a d) (p : Nat) (n : Nat) (action : Nat) : Kept a (Dev.raiseMsg d p n action) := by
  unfold Dev.raiseMsg
  try dsimp only
  repeat' (first | with_reducible assumption | with_reducible apply Dev.bump_kept | with_reducible apply Dev.raise_kept | with_reducible apply Dev.licPulse_kept | with_reducible apply Dev.lineAct_kept | with_reducible apply Dev.capture_kept | with_reducible apply Dev.mirrorLine_kept | with_reducible apply kept_ite | split)

theorem Dev.signalPriv_kept {a d : Dev} (h : Kept a d) (c : Nat) (k : Nat) : Kept a (Dev.signalPriv d c k) := by
  unfold Dev.signalPriv
  repeat' (first | with_reducible assumption | with_reducible apply Dev.setWordBit_kept | with_reducible apply Dev.capture_kept | with_reducible apply kept_ite | split)

theorem Dev.setTrap_kept {a d : Dev} (h : Kept a d) (t : Nat) : Kept a (Dev.setTrap d t) := by
  unfold Dev.setTrap
  try dsimp only
  repeat' (first | with_reducible assumption | with_reducible apply Dev.s_kept | with_reducible apply Dev.raise_kept | with_reducible apply kept_each | with_reducible apply kept_whenD | intro _ _ _ | intro _ _ | intro _)

theorem Dev.licTrap_kept {a d : Dev} (h : Kept a d) (t : Nat) : Kept a (Dev.licTrap d t) := by
  unfold Dev.licTrap
  repeat' (first | with_reducible assumption | with_reducible apply Dev.capture_kept | with_reducible apply Dev.setTrap_kept | with_reducible apply kept_ite | split)

theorem Dev.applyCapture_kept {a d : Dev} (h : Kept a d) (x : Capture) : Kept a (Dev.applyCapture d x) := by
  unfold Dev.applyCapture
  try dsimp only
  repeat' (first | with_reducible assumption | with_reducible apply Dev.setPend_kept | with_reducible apply Dev.setWordBit_kept | with_reducible apply Dev.lineAct_kept | with_reducible apply Dev.setTrap_kept | with_reducible apply kept_whenD | intro _ _ _ | intro _ _ | intro _ | split)

theorem Dev.linesFromMirror_kept {a d : Dev} (h : Kept a d) : Kept a (Dev.linesFromMirror d) := by
  unfold Dev.linesFromMirror
  try dsimp only
  repeat' (first | with_reducible assumption | with_reducible apply Dev.wr_kept | with_reducible apply kept_each | intro _ _ _ | intro _ _ | intro _ | with_reducible apply kept_ite | split)

theorem Dev.applyCaptures_kept {a d : Dev} (h : Kept a d) : Kept a (Dev.applyCaptures d) := by
  unfold Dev.applyCaptures
  try dsimp only
  repeat' (first | with_reducible assumption | with_reducible apply Dev.applyCapture_kept | with_reducible apply Dev.linesFromMirror_kept | with_reducible apply kept_each | intro _ _ _ | intro _ _ | intro _ | simp only [kept_same])

theorem Dev.licFields_kept {a d : Dev} (h : Kept a d) : Kept a (Dev.licFields d) := by
  unfold Dev.licFields
  try dsimp only
  repeat' (first | with_reducible assumption | intro _ _ _ | intro _ _ | intro _ | simp only [kept_same] | with_reducible apply kept_filter)

theorem Dev.licReset_kept {a d : Dev} (h : Kept a d) : Kept a (Dev.licReset d) := by
  unfold Dev.licReset
  try dsimp only
  repeat' (first | with_reducible assumption | with_reducible apply Dev.s_kept | with_reducible apply Dev.bumpBy_kept | with_reducible apply Dev.linesFromMirror_kept | with_reducible apply Dev.licFields_kept | with_reducible apply kept_ite | split)

theorem Dev.gateEntry_kept {a d : Dev} (h : Kept a d) : Kept a (Dev.gateEntry d) := by
  unfold Dev.gateEntry
  try dsimp only
  repeat' (first | with_reducible assumption | with_reducible apply Dev.bump_kept | with_reducible apply Dev.setPd_kept | with_reducible apply Dev.clampDom_kept | intro _ _ _ | intro _ _ | intro _ | with_reducible apply kept_ite | split)

theorem Dev.licWakeUp_kept {a d : Dev} (h : Kept a d) (access : Bool) : Kept a (Dev.licWakeUp d access) := by
  unfold Dev.licWakeUp
  repeat' (first | with_reducible assumption | with_reducible apply Dev.setPd_kept | with_reducible apply kept_ite | simp only [kept_same] | split)

theorem Dev.licRestored_kept {a d : Dev} (h : Kept a d) (crcOk : Bool) : Kept a (Dev.licRestored d crcOk) := by
  unfold Dev.licRestored
  try dsimp only
  repeat' (first | with_reducible assumption | with_reducible apply Dev.s_kept | with_reducible apply Dev.bump_kept | with_reducible apply Dev.raise_kept | with_reducible apply Dev.applyCaptures_kept | with_reducible apply Dev.licFields_kept | with_reducible apply kept_ite | simp only [kept_same] | split)

theorem Dev.judgeWord_keeps (d : Dev) (c : WCtx) (off : Nat) (valid : Nat) (sets : Bool) (exempt : Bool) (eff : W64 → W64 → Dev → Dev) (hf : ∀ x y a d, Kept a d → Kept a (eff x y d)) : (Dev.judgeWord d c off valid sets exempt eff).Keeps := by
  unfold Dev.judgeWord
  try dsimp only
  repeat' (first | with_reducible assumption | exact WOut.bad_keeps | exact WOut.none_keeps | exact WOut.unmapped_keeps | with_reducible apply WOut.ok_keeps | with_reducible apply WOut.badEff_keeps | with_reducible apply WOut.group_keeps | with_reducible apply hf | intro _ _ _ | intro _ _ | intro _ | with_reducible apply kept_ite | split)

theorem Dev.judgePendClr_keeps (d : Dev) (b : LicBank) (c : WCtx) : (Dev.judgePendClr d b c).Keeps := by
  unfold Dev.judgePendClr
  try dsimp only
  repeat' (first | with_reducible assumption | exact WOut.bad_keeps | exact WOut.none_keeps | exact WOut.unmapped_keeps | with_reducible apply WOut.ok_keeps | with_reducible apply WOut.badEff_keeps | with_reducible apply WOut.group_keeps | with_reducible apply Dev.bumpBy_kept | with_reducible apply Dev.judgeWord_keeps | with_reducible apply Dev.wr_kept | intro _ _ _ | intro _ _ | intro _ | split)

theorem Dev.judgePendSet_keeps (d : Dev) (b : LicBank) (c : WCtx) : (Dev.judgePendSet d b c).Keeps := by
  unfold Dev.judgePendSet
  try dsimp only
  repeat' (first | with_reducible assumption | exact WOut.bad_keeps | exact WOut.none_keeps | exact WOut.unmapped_keeps | with_reducible apply WOut.ok_keeps | with_reducible apply WOut.badEff_keeps | with_reducible apply WOut.group_keeps | with_reducible apply Dev.judgeWord_keeps | with_reducible apply Dev.wr_kept | intro _ _ _ | intro _ _ | intro _ | split)

theorem Dev.judgeMask_keeps (d : Dev) (b : LicBank) (sets : Bool) (c : WCtx) : (Dev.judgeMask d b sets c).Keeps := by
  unfold Dev.judgeMask
  try dsimp only
  repeat' (first | with_reducible assumption | exact WOut.bad_keeps | exact WOut.none_keeps | exact WOut.unmapped_keeps | with_reducible apply WOut.ok_keeps | with_reducible apply WOut.badEff_keeps | with_reducible apply WOut.group_keeps | with_reducible apply Dev.judgeWord_keeps | with_reducible apply Dev.wr_kept | intro _ _ _ | intro _ _ | intro _ | split)

theorem judgeSignal_keeps (c : WCtx) : (judgeSignal c).Keeps := by
  unfold judgeSignal
  try dsimp only
  repeat' (first | with_reducible assumption | exact WOut.bad_keeps | exact WOut.none_keeps | exact WOut.unmapped_keeps | with_reducible apply WOut.ok_keeps | with_reducible apply WOut.badEff_keeps | with_reducible apply WOut.group_keeps | with_reducible apply Dev.signalPriv_kept | with_reducible apply kept_each | intro _ _ _ | intro _ _ | intro _ | with_reducible apply kept_ite | split)

theorem Dev.judgeSrc_keeps (d : Dev) (n : Nat) (c : WCtx) : (Dev.judgeSrc d n c).Keeps := by
  unfold Dev.judgeSrc
  repeat' (first | with_reducible assumption | exact WOut.bad_keeps | exact WOut.none_keeps | exact WOut.unmapped_keeps | with_reducible apply WOut.ok_keeps | with_reducible apply WOut.badEff_keeps | with_reducible apply WOut.group_keeps | with_reducible apply Dev.judgeTable_keeps | with_reducible apply kept_id | intro _ _ _ | intro _ _ | intro _ | with_reducible apply kept_ite | (refine WOut.of_ok (Dev.judgeTable_keeps _ _) ‹_› ?_) | split | (subst_vars; first | with_reducible assumption | with_reducible apply Dev.judgeTable_keeps))

theorem Dev.judgeBind_keeps (d : Dev) (i : Nat) (c : WCtx) : (Dev.judgeBind d i c).Keeps := by
  unfold Dev.judgeBind
  try dsimp only
  repeat' (first | with_reducible assumption | exact WOut.bad_keeps | exact WOut.none_keeps | exact WOut.unmapped_keeps | with_reducible apply WOut.ok_keeps | with_reducible apply WOut.badEff_keeps | with_reducible apply WOut.group_keeps | with_reducible apply Dev.judgeTable_keeps | with_reducible apply Dev.coresLost_kept | with_reducible apply Dev.wr_kept | intro _ _ _ | intro _ _ | intro _ | with_reducible apply kept_ite | (refine WOut.of_ok (Dev.judgeTable_keeps _ _) ‹_› ?_) | split | (subst_vars; first | with_reducible assumption | with_reducible apply Dev.judgeTable_keeps | with_reducible apply Dev.coresLost_kept | with_reducible apply Dev.wr_kept))

theorem judgeEoi_keeps (i : Nat) (c : WCtx) : (judgeEoi i c).Keeps := by
  unfold judgeEoi
  try dsimp only
  repeat' (first | with_reducible assumption | exact WOut.bad_keeps | exact WOut.none_keeps | exact WOut.unmapped_keeps | with_reducible apply WOut.ok_keeps | with_reducible apply WOut.badEff_keeps | with_reducible apply WOut.group_keeps | with_reducible apply Dev.licEoi_kept | intro _ _ _ | intro _ _ | intro _ | with_reducible apply kept_ite | split)

end Sys2Proof.Machine
end

