-- ==== Sys2Proof/Laws/KeptLink.lean ====
section
/-! SUPPORT. `Kept` over the physical layer, the link layer and the egresses: one lemma per function. -/
namespace Sys2Proof.Machine

theorem Dev.setPort_kept {a d : Dev} (h : Kept a d) (p : Nat) (x : PortSt) : Kept a (Dev.setPort d p x) := by
  unfold Dev.setPort
  repeat' (first | with_reducible assumption | simp only [kept_same])

theorem Dev.setPhy_kept {a d : Dev} (h : Kept a d) (p : Nat) (x : Phy) : Kept a (Dev.setPhy d p x) := by
  unfold Dev.setPhy
  repeat' (first | with_reducible assumption | with_reducible apply Dev.setPort_kept | simp only [kept_same])

theorem Dev.setLnk_kept {a d : Dev} (h : Kept a d) (p : Nat) (x : Link) : Kept a (Dev.setLnk d p x) := by
  unfold Dev.setLnk
  repeat' (first | with_reducible assumption | with_reducible apply Dev.setPort_kept | simp only [kept_same])

theorem Dev.leaveOpen_kept {a d : Dev} (h : Kept a d) (p : Nat) : Kept a (Dev.leaveOpen d p) := by
  unfold Dev.leaveOpen
  try dsimp only
  repeat' (first | with_reducible assumption | with_reducible apply Dev.licPulse_kept | with_reducible apply Dev.nbrDown_kept | with_reducible apply kept_whenD | intro _ _ _ | intro _ _ | intro _ | with_reducible apply kept_ite | split)

theorem Dev.linkDown_kept {a d : Dev} (h : Kept a d) (p : Nat) : Kept a (Dev.linkDown d p) := by
  unfold Dev.linkDown
  try dsimp only
  repeat' (first | with_reducible assumption | with_reducible apply Dev.s_kept | with_reducible apply Dev.sb_kept | with_reducible apply Dev.fabricDown_kept | with_reducible apply Dev.setLnk_kept | with_reducible apply Dev.leaveOpen_kept | with_reducible apply kept_whenD | intro _ _ _ | intro _ _ | intro _ | simp only [kept_same])

theorem Dev.linkUp_kept {a d : Dev} (h : Kept a d) (p : Nat) : Kept a (Dev.linkUp d p) := by
  unfold Dev.linkUp
  repeat' (first | with_reducible assumption | with_reducible apply Dev.s_kept | with_reducible apply Dev.setLnk_kept | simp only [kept_same])

theorem Dev.setLaneT_kept {a d : Dev} (h : Kept a d) (p : Nat) (l : Nat) (x : LaneT) : Kept a (Dev.setLaneT d p l x) := by
  unfold Dev.setLaneT
  repeat' (first | with_reducible assumption | with_reducible apply Dev.setPhy_kept | simp only [kept_same])

theorem Dev.sendFrame_kept {a d : Dev} (h : Kept a d) (p : Nat) (count : Nat) : Kept a (Dev.sendFrame d p count) := by
  unfold Dev.sendFrame
  try dsimp only
  repeat' (first | with_reducible assumption | with_reducible apply Dev.emit_kept | with_reducible apply Dev.setPhy_kept | with_reducible apply kept_each | intro _ _ _ | intro _ _ | intro _ | with_reducible apply kept_ite | simp only [kept_same] | split)

theorem Dev.sendFrames_kept {a d : Dev} (h : Kept a d) (p : Nat) : Kept a (Dev.sendFrames d p) := by
  unfold Dev.sendFrames
  repeat' (first | with_reducible assumption | with_reducible apply Dev.sendFrame_kept | with_reducible apply kept_ite | split)

theorem Dev.laneStart_kept {a d : Dev} (h : Kept a d) (p : Nat) (l : Nat) : Kept a (Dev.laneStart d p l) := by
  unfold Dev.laneStart
  try dsimp only
  repeat' (first | with_reducible assumption | with_reducible apply Dev.s_kept | with_reducible apply Dev.wr_kept)

theorem Dev.attempt_kept {a d : Dev} (h : Kept a d) (p : Nat) : Kept a (Dev.attempt d p) := by
  unfold Dev.attempt
  try dsimp only
  repeat' (first | with_reducible assumption | with_reducible apply Dev.s_kept | with_reducible apply Dev.sb_kept | with_reducible apply Dev.bump_kept | with_reducible apply Dev.setPhy_kept | with_reducible apply Dev.sendFrames_kept | with_reducible apply Dev.laneStart_kept | with_reducible apply kept_each | intro _ _ _ | intro _ _ | intro _ | simp only [kept_same])

theorem Dev.trainStart_kept {a d : Dev} (h : Kept a d) (p : Nat) : Kept a (Dev.trainStart d p) := by
  unfold Dev.trainStart
  repeat' (first | with_reducible assumption | with_reducible apply Dev.attempt_kept | with_reducible apply kept_ite | split)

theorem Dev.toIdle_kept {a d : Dev} (h : Kept a d) (p : Nat) : Kept a (Dev.toIdle d p) := by
  unfold Dev.toIdle
  try dsimp only
  repeat' (first | with_reducible assumption | with_reducible apply Dev.s_kept | with_reducible apply Dev.sb_kept | with_reducible apply Dev.setPhy_kept | with_reducible apply kept_each | intro _ _ _ | intro _ _ | intro _ | simp only [kept_same])

theorem Dev.trainFail_kept {a d : Dev} (h : Kept a d) (p : Nat) : Kept a (Dev.trainFail d p) := by
  unfold Dev.trainFail
  try dsimp only
  repeat' (first | with_reducible assumption | with_reducible apply Dev.s_kept | with_reducible apply Dev.bump_kept | with_reducible apply Dev.raise_kept | with_reducible apply Dev.setPhy_kept | with_reducible apply Dev.toIdle_kept | with_reducible apply kept_ite | simp only [kept_same] | split)

theorem Dev.trainIdleEnd_kept {a d : Dev} (h : Kept a d) (p : Nat) : Kept a (Dev.trainIdleEnd d p) := by
  unfold Dev.trainIdleEnd
  repeat' (first | with_reducible assumption | with_reducible apply Dev.setPhy_kept | with_reducible apply Dev.trainStart_kept | with_reducible apply kept_ite | simp only [kept_same] | split)

theorem Dev.steer_kept {a d : Dev} (h : Kept a d) (p : Nat) (k : Nat) (preReq : Nat) (postReq : Nat) : Kept a (Dev.steer d p k preReq postReq) := by
  unfold Dev.steer
  try dsimp only
  repeat' (first | with_reducible assumption | with_reducible apply Dev.s_kept | with_reducible apply Dev.setLaneT_kept | with_reducible apply kept_ite | simp only [kept_same] | split)

theorem Dev.adapt_kept {a d : Dev} (h : Kept a d) (p : Nat) (l : Nat) : Kept a (Dev.adapt d p l) := by
  unfold Dev.adapt
  try dsimp only
  repeat' (first | with_reducible assumption | with_reducible apply Dev.takeFree_kept | with_reducible apply Dev.setLaneT_kept | simp only [kept_same])

theorem Dev.frame_kept {a d : Dev} (h : Kept a d) (p : Nat) (l : Nat) (f : BitVec 256) : Kept a (Dev.frame d p l f) := by
  unfold Dev.frame
  try dsimp only
  repeat' (first | with_reducible assumption | with_reducible apply Dev.s_kept | with_reducible apply Dev.sb_kept | with_reducible apply Dev.setLaneT_kept | with_reducible apply Dev.sendFrames_kept | with_reducible apply Dev.steer_kept | with_reducible apply Dev.adapt_kept | with_reducible apply kept_whenD | intro _ _ _ | intro _ _ | intro _ | with_reducible apply kept_ite | simp only [kept_same] | split)

theorem Dev.stepTimeout_kept {a d : Dev} (h : Kept a d) (p : Nat) : Kept a (Dev.stepTimeout d p) := by
  unfold Dev.stepTimeout
  try dsimp only
  repeat' (first | with_reducible assumption | with_reducible apply Dev.trainFail_kept | with_reducible apply kept_ite | split)

theorem Dev.deskewed_kept {a d : Dev} (h : Kept a d) (p : Nat) : Kept a (Dev.deskewed d p) := by
  unfold Dev.deskewed
  try dsimp only
  repeat' (first | with_reducible assumption | with_reducible apply Dev.s_kept | with_reducible apply Dev.sb_kept | with_reducible apply Dev.setPhy_kept | with_reducible apply Dev.sendFrames_kept | with_reducible apply Dev.trainFail_kept | with_reducible apply kept_each | with_reducible apply kept_foldl | with_reducible apply kept_foldl_fst | with_reducible apply kept_foldl_snd | intro _ _ _ | intro _ _ | intro _ | with_reducible apply kept_ite | simp only [kept_same] | split)

theorem Dev.configured_kept {a d : Dev} (h : Kept a d) (p : Nat) : Kept a (Dev.configured d p) := by
  unfold Dev.configured
  try dsimp only
  repeat' (first | with_reducible assumption | with_reducible apply Dev.s_kept | with_reducible apply Dev.sb_kept | with_reducible apply Dev.raise_kept | with_reducible apply Dev.sendFrame_kept | with_reducible apply Dev.trainFail_kept | with_reducible apply kept_each | with_reducible apply kept_whenD | intro _ _ _ | intro _ _ | intro _ | with_reducible apply kept_ite | split)

theorem Dev.laneCoding_kept {a d : Dev} (h : Kept a d) (p : Nat) (k : Nat) : Kept a (Dev.laneCoding d p k) := by
  unfold Dev.laneCoding
  try dsimp only
  repeat' (first | with_reducible assumption | with_reducible apply Dev.takeFree_kept | with_reducible apply Dev.setPhy_kept | simp only [kept_same])

theorem Dev.laneDecoding_kept {a d : Dev} (h : Kept a d) (p : Nat) (l : Nat) : Kept a (Dev.laneDecoding d p l) := by
  unfold Dev.laneDecoding
  try dsimp only
  repeat' (first | with_reducible assumption | with_reducible apply Dev.takeFree_kept | with_reducible apply Dev.setPhy_kept | simp only [kept_same])

theorem Dev.switched_kept {a d : Dev} (h : Kept a d) (p : Nat) : Kept a (Dev.switched d p) := by
  unfold Dev.switched
  try dsimp only
  repeat' (first | with_reducible assumption | with_reducible apply Dev.s_kept | with_reducible apply Dev.laneCoding_kept | with_reducible apply Dev.laneDecoding_kept | with_reducible apply kept_each | intro _ _ _ | intro _ _ | intro _ | with_reducible apply kept_ite | split)

theorem Dev.sendSymbol_kept {a d : Dev} (h : Kept a d) (p : Nat) (w : Nat) (bs : List Bool) : Kept a (Dev.sendSymbol d p w bs) := by
  unfold Dev.sendSymbol
  try dsimp only
  repeat' (first | with_reducible assumption | with_reducible apply Dev.emit_kept | with_reducible apply Dev.setPhy_kept | simp only [kept_same] | split)

theorem Dev.sendBlock_kept {a d : Dev} (h : Kept a d) (p : Nat) (w : Nat) (k : Nat) (bs : List Bool) : Kept a (Dev.sendBlock d p w k bs) := by
  unfold Dev.sendBlock
  try dsimp only
  repeat' (first | with_reducible assumption | with_reducible apply Dev.emit_kept | with_reducible apply Dev.setPhy_kept | simp only [kept_same] | split)

theorem Dev.lineSend_kept {a d : Dev} (h : Kept a d) (p : Nat) (bytes : List Byte) : Kept a (Dev.lineSend d p bytes) := by
  unfold Dev.lineSend
  try dsimp only
  repeat' (first | with_reducible assumption | with_reducible apply Dev.setPhy_kept | with_reducible apply Dev.sendSymbol_kept | with_reducible apply Dev.sendBlock_kept | with_reducible apply kept_each | intro _ _ _ | intro _ _ | intro _ | with_reducible apply kept_ite | simp only [kept_same] | split)

theorem Dev.lineUp_kept {a d : Dev} (h : Kept a d) (p : Nat) (l : Nat) (gap : Nat) (since : Option Nat) (q : Piece) : Kept a (Dev.lineUp d p l gap since q) := by
  unfold Dev.lineUp
  try dsimp only
  repeat' (first | with_reducible assumption | with_reducible apply Dev.setPhy_kept | with_reducible apply kept_ite | simp only [kept_same] | split)

theorem Dev.takeUp_kept {a d : Dev} (h : Kept a d) (p : Nat) : Kept a (Dev.takeUp d p) := by
  unfold Dev.takeUp
  try dsimp only
  repeat' (first | with_reducible assumption | with_reducible apply Dev.setPhy_kept | with_reducible apply kept_ite | simp only [kept_same] | split)

theorem Dev.unscramble_kept {a d : Dev} (h : Kept a d) (p : Nat) (l : Nat) (bs : List Bool) : Kept a (Dev.unscramble d p l bs).1 := by
  unfold Dev.unscramble
  try dsimp only
  repeat' (first | with_reducible assumption | with_reducible apply Dev.setPhy_kept | simp only [kept_same])

theorem Dev.setLaneL_kept {a d : Dev} (h : Kept a d) (p : Nat) (l : Nat) (x : LaneL) : Kept a (Dev.setLaneL d p l x) := by
  unfold Dev.setLaneL
  repeat' (first | with_reducible assumption | with_reducible apply Dev.setPhy_kept | simp only [kept_same])

theorem Dev.phyUp_kept {a d : Dev} (h : Kept a d) (p : Nat) : Kept a (Dev.phyUp d p) := by
  unfold Dev.phyUp
  try dsimp only
  repeat' (first | with_reducible assumption | with_reducible apply Dev.s_kept | with_reducible apply Dev.sb_kept | with_reducible apply Dev.setPhy_kept | with_reducible apply Dev.linkUp_kept | simp only [kept_same])

theorem Dev.dataLocked_kept {a d : Dev} (h : Kept a d) (p : Nat) : Kept a (Dev.dataLocked d p) := by
  unfold Dev.dataLocked
  try dsimp only
  repeat' (first | with_reducible assumption | with_reducible apply Dev.sb_kept | with_reducible apply Dev.phyUp_kept | with_reducible apply kept_each | intro _ _ _ | intro _ _ | intro _ | with_reducible apply kept_ite | split)

theorem Dev.laneLost_kept {a d : Dev} (h : Kept a d) (p : Nat) (l : Nat) : Kept a (Dev.laneLost d p l) := by
  unfold Dev.laneLost
  try dsimp only
  repeat' (first | with_reducible assumption | with_reducible apply Dev.sb_kept | with_reducible apply Dev.bump_kept | with_reducible apply Dev.setPhy_kept | with_reducible apply Dev.setLaneL_kept | with_reducible apply kept_whenD | intro _ _ _ | intro _ _ | intro _ | with_reducible apply kept_ite | simp only [kept_same] | split)

theorem Dev.phyDown_kept {a d : Dev} (h : Kept a d) (p : Nat) (cause : Nat) : Kept a (Dev.phyDown d p cause) := by
  unfold Dev.phyDown
  try dsimp only
  repeat' (first | with_reducible assumption | with_reducible apply Dev.s_kept | with_reducible apply Dev.bump_kept | with_reducible apply Dev.raise_kept | with_reducible apply Dev.linkDown_kept | with_reducible apply Dev.toIdle_kept | with_reducible apply kept_each | with_reducible apply kept_whenD | intro _ _ _ | intro _ _ | intro _ | with_reducible apply kept_ite | split)

theorem Dev.laneFound_kept {a d : Dev} (h : Kept a d) (p : Nat) (l : Nat) (expiring : Bool) : Kept a (Dev.laneFound d p l expiring) := by
  unfold Dev.laneFound
  try dsimp only
  repeat' (first | with_reducible assumption | with_reducible apply Dev.sb_kept | with_reducible apply Dev.bump_kept | with_reducible apply Dev.setPhy_kept | with_reducible apply Dev.trainStart_kept | with_reducible apply Dev.phyUp_kept | with_reducible apply Dev.phyDown_kept | with_reducible apply kept_whenD | intro _ _ _ | intro _ _ | intro _ | with_reducible apply kept_ite | simp only [kept_same] | split)

theorem Dev.lockTimer_kept {a d : Dev} (h : Kept a d) (p : Nat) : Kept a (Dev.lockTimer d p) := by
  unfold Dev.lockTimer
  repeat' (first | with_reducible assumption | with_reducible apply Dev.trainStart_kept | with_reducible apply Dev.phyDown_kept | with_reducible apply kept_ite | split)

theorem Dev.phyRetrain_kept {a d : Dev} (h : Kept a d) (p : Nat) (cause : Nat) : Kept a (Dev.phyRetrain d p cause) := by
  unfold Dev.phyRetrain
  repeat' (first | with_reducible assumption | with_reducible apply Dev.trainStart_kept | with_reducible apply Dev.phyDown_kept | with_reducible apply kept_ite | split)

theorem Dev.phyStop_kept {a d : Dev} (h : Kept a d) (p : Nat) (cause : Nat) : Kept a (Dev.phyStop d p cause) := by
  unfold Dev.phyStop
  try dsimp only
  repeat' (first | with_reducible assumption | with_reducible apply Dev.setPhy_kept | with_reducible apply Dev.toIdle_kept | with_reducible apply Dev.phyDown_kept | with_reducible apply kept_ite | simp only [kept_same] | split)

theorem Dev.countCw_kept {a d : Dev} (h : Kept a d) (p : Nat) (l : Nat) (k : Option (List (BitVec 10) × Nat × Bool)) : Kept a (Dev.countCw d p l k) := by
  unfold Dev.countCw
  try dsimp only
  repeat' (first | with_reducible assumption | with_reducible apply Dev.bumpBy_kept | with_reducible apply Dev.bump_kept | with_reducible apply Dev.setPhy_kept | with_reducible apply kept_ite | simp only [kept_same] | split)

theorem Dev.codeword_kept {a d : Dev} (h : Kept a d) (p : Nat) (l : Nat) (c : List (BitVec 10)) : Kept a (Dev.codeword d p l c) := by
  unfold Dev.codeword
  try dsimp only
  repeat' (first | with_reducible assumption | with_reducible apply Dev.lineUp_kept | with_reducible apply Dev.unscramble_kept | with_reducible apply Dev.setLaneL_kept | with_reducible apply Dev.laneLost_kept | with_reducible apply Dev.laneFound_kept | with_reducible apply Dev.countCw_kept | with_reducible apply kept_whenD | intro _ _ _ | intro _ _ | intro _ | with_reducible apply kept_ite | split)

theorem Dev.syncBlk_kept {a d : Dev} (h : Kept a d) (p : Nat) (l : Nat) (hdr : Nat) (payload : W64) : Kept a (Dev.syncBlk d p l hdr payload) := by
  unfold Dev.syncBlk
  try dsimp only
  repeat' (first | with_reducible assumption | with_reducible apply Dev.bump_kept | with_reducible apply Dev.lineUp_kept | with_reducible apply Dev.unscramble_kept | with_reducible apply Dev.setLaneL_kept | with_reducible apply Dev.laneLost_kept | with_reducible apply Dev.laneFound_kept | with_reducible apply kept_whenD | intro _ _ _ | intro _ _ | intro _ | with_reducible apply kept_ite | split)

theorem Dev.corrInterval_kept {a d : Dev} (h : Kept a d) (p : Nat) : Kept a (Dev.corrInterval d p) := by
  unfold Dev.corrInterval
  try dsimp only
  repeat' (first | with_reducible assumption | with_reducible apply Dev.raise_kept | with_reducible apply Dev.setPhy_kept | with_reducible apply kept_whenD | intro _ _ _ | intro _ _ | intro _ | simp only [kept_same])

theorem Dev.phycal_kept {a d : Dev} (h : Kept a d) (ohms : Nat) : Kept a (Dev.phycal d ohms) := by
  unfold Dev.phycal
  try dsimp only
  repeat' (first | with_reducible assumption | with_reducible apply Dev.s_kept | with_reducible apply Dev.sb_kept | with_reducible apply Dev.srcCond_kept | with_reducible apply kept_each | intro _ _ _ | intro _ _ | intro _)

theorem Dev.calPitch_kept {a d : Dev} (h : Kept a d) (ohms : Nat) : Kept a (Dev.calPitch d ohms) := by
  unfold Dev.calPitch
  try dsimp only
  repeat' (first | with_reducible assumption | with_reducible apply Dev.phycal_kept | with_reducible apply kept_ite | simp only [kept_same] | split)

theorem Dev.calService_kept {a d : Dev} (h : Kept a d) (ohms : Nat) : Kept a (Dev.calService d ohms) := by
  unfold Dev.calService
  try dsimp only
  repeat' (first | with_reducible assumption | with_reducible apply Dev.phycal_kept | with_reducible apply kept_ite | simp only [kept_same] | split)

theorem Dev.calTick_kept {a d : Dev} (h : Kept a d) : Kept a (Dev.calTick d) := by
  unfold Dev.calTick
  repeat' (first | with_reducible assumption | with_reducible apply kept_ite | simp only [kept_same] | split)

theorem Dev.judgePhyCfg_keeps (d : Dev) (p : Nat) (c : WCtx) : (Dev.judgePhyCfg d p c).Keeps := by
  unfold Dev.judgePhyCfg
  try dsimp only
  repeat' (first | with_reducible assumption | exact WOut.bad_keeps | exact WOut.none_keeps | exact WOut.unmapped_keeps | with_reducible apply WOut.ok_keeps | with_reducible apply WOut.badEff_keeps | with_reducible apply WOut.group_keeps | with_reducible apply Dev.judgeRow_keeps | with_reducible apply Dev.phyRetrain_kept | with_reducible apply Dev.wr_kept | intro _ _ _ | intro _ _ | intro _ | with_reducible apply kept_ite | (refine WOut.of_ok (Dev.judgeRow_keeps _ _ _ _ _) ‹_› ?_) | split | (subst_vars; first | with_reducible assumption | with_reducible apply Dev.judgeRow_keeps | with_reducible apply Dev.phyRetrain_kept | with_reducible apply Dev.wr_kept))

theorem Dev.judgeEye_keeps (d : Dev) (p : Nat) (c : WCtx) : (Dev.judgeEye d p c).Keeps := by
  unfold Dev.judgeEye
  split
  · exact WOut.unmapped_keeps
  · split
    · rename_i he
      split
      · exact WOut.bad_keeps
      · exact WOut.ok_keeps (fun a d h => WOut.of_ok (Dev.judgeRow_keeps _ _ _ _ _ (fun _ _ _ h => Dev.wr_kept h _ _)) he h)
    · exact Dev.judgeRow_keeps _ _ _ _ _ (fun _ _ _ h => Dev.wr_kept h _ _)

theorem Dev.eyeDone_kept {a d : Dev} (h : Kept a d) (p : Nat) (w : Nat) (h_ : Nat) : Kept a (Dev.eyeDone d p w h_) := by
  unfold Dev.eyeDone
  repeat' (first | with_reducible assumption | with_reducible apply Dev.s_kept | with_reducible apply Dev.sb_kept | with_reducible apply kept_ite | split)

theorem Dev.cnt_kept {a d : Dev} (h : Kept a d) (p : Nat) (i : Nat) : Kept a (Dev.cnt d p i) := by
  unfold Dev.cnt
  repeat' (first | with_reducible assumption | with_reducible apply Dev.bump_kept)

theorem Dev.grantOne_kept {a d : Dev} (h : Kept a d) (p : Nat) (v : Nat) (shared : Bool) : Kept a (Dev.grantOne d p v shared) := by
  unfold Dev.grantOne
  try dsimp only
  repeat' (first | with_reducible assumption | with_reducible apply Dev.setLnk_kept | with_reducible apply kept_ite | simp only [kept_same] | split)

theorem Dev.grantVc_kept {a d : Dev} (h : Kept a d) (p : Nat) (v : Nat) : Kept a (Dev.grantVc d p v) := by
  unfold Dev.grantVc
  try dsimp only
  repeat' (first | with_reducible assumption | with_reducible apply Dev.setLnk_kept | simp only [kept_same])

theorem Dev.openGrants_kept {a d : Dev} (h : Kept a d) (p : Nat) : Kept a (Dev.openGrants d p) := by
  unfold Dev.openGrants
  try dsimp only
  repeat' (first | with_reducible assumption | with_reducible apply Dev.setLnk_kept | with_reducible apply Dev.grantVc_kept | with_reducible apply kept_each | intro _ _ _ | intro _ _ | intro _ | simp only [kept_same])

theorem Dev.tryOpen_kept {a d : Dev} (h : Kept a d) (p : Nat) : Kept a (Dev.tryOpen d p) := by
  unfold Dev.tryOpen
  try dsimp only
  repeat' (first | with_reducible assumption | with_reducible apply Dev.s_kept | with_reducible apply Dev.stamp_kept | with_reducible apply Dev.licPulse_kept | with_reducible apply Dev.fabricOpen_kept | with_reducible apply Dev.openGrants_kept | with_reducible apply kept_whenD | intro _ _ _ | intro _ _ | intro _ | with_reducible apply kept_ite | split)

theorem Dev.discardSession_kept {a d : Dev} (h : Kept a d) (p : Nat) : Kept a (Dev.discardSession d p) := by
  unfold Dev.discardSession
  try dsimp only
  repeat' (first | with_reducible assumption | with_reducible apply Dev.s_kept | with_reducible apply Dev.sb_kept | with_reducible apply Dev.bumpBy_kept | with_reducible apply Dev.raise_kept | with_reducible apply Dev.lostPosted_kept | with_reducible apply Dev.licSession_kept | with_reducible apply Dev.setLnk_kept | with_reducible apply kept_each | with_reducible apply kept_foldl | with_reducible apply kept_foldl_fst | with_reducible apply kept_foldl_snd | with_reducible apply kept_whenD | intro _ _ _ | intro _ _ | intro _ | simp only [kept_same])

theorem Dev.localEnd_kept {a d : Dev} (h : Kept a d) (n : Nat) : Kept a (Dev.localEnd d n).1 := by
  unfold Dev.localEnd
  try dsimp only
  repeat' (first | with_reducible assumption | with_reducible apply Dev.setEgress_kept | with_reducible apply Dev.lostPosted_kept | with_reducible apply Dev.answer_kept | with_reducible apply Dev.endLocalTags_kept | with_reducible apply Dev.setLnk_kept | with_reducible apply kept_each | with_reducible apply kept_foldl | with_reducible apply kept_foldl_fst | with_reducible apply kept_foldl_snd | intro _ _ _ | intro _ _ | intro _ | with_reducible apply kept_ite | simp only [kept_same] | split)

theorem Dev.localLapse_kept {a d : Dev} (h : Kept a d) (n : Nat) : Kept a (Dev.localLapse d n) := by
  unfold Dev.localLapse
  try dsimp only
  repeat' (first | with_reducible assumption | with_reducible apply Dev.raise_kept | with_reducible apply Dev.localEnd_kept | with_reducible apply kept_whenD | intro _ _ _ | intro _ _ | intro _)

theorem Dev.lapse_kept {a d : Dev} (h : Kept a d) (p : Nat) : Kept a (Dev.lapse d p) := by
  unfold Dev.lapse
  try dsimp only
  repeat' (first | with_reducible assumption | with_reducible apply Dev.sb_kept | with_reducible apply Dev.setLnk_kept | with_reducible apply Dev.discardSession_kept | with_reducible apply Dev.localLapse_kept | with_reducible apply kept_whenD | intro _ _ _ | intro _ _ | intro _ | with_reducible apply kept_ite | simp only [kept_same] | split)

theorem Dev.linkRetrain_kept {a d : Dev} (h : Kept a d) (p : Nat) (cause : Nat) : Kept a (Dev.linkRetrain d p cause) := by
  unfold Dev.linkRetrain
  repeat' (first | with_reducible assumption | with_reducible apply Dev.s_kept | with_reducible apply Dev.phyRetrain_kept)

theorem Dev.startReplay_kept {a d : Dev} (h : Kept a d) (p : Nat) : Kept a (Dev.startReplay d p) := by
  unfold Dev.startReplay
  try dsimp only
  repeat' (first | with_reducible assumption | with_reducible apply Dev.sb_kept | with_reducible apply Dev.setLnk_kept | with_reducible apply Dev.cnt_kept | with_reducible apply Dev.linkRetrain_kept | with_reducible apply kept_ite | simp only [kept_same] | split)

theorem Dev.freeTo_kept {a d : Dev} (h : Kept a d) (p : Nat) (a_ : Nat) : Kept a (Dev.freeTo d p a_) := by
  unfold Dev.freeTo
  try dsimp only
  repeat' (first | with_reducible assumption | with_reducible apply Dev.s_kept | with_reducible apply Dev.sb_kept | with_reducible apply Dev.tryFull_kept | with_reducible apply Dev.setLnk_kept | with_reducible apply kept_foldl | with_reducible apply kept_foldl_fst | with_reducible apply kept_foldl_snd | with_reducible apply kept_whenD | intro _ _ _ | intro _ _ | intro _ | with_reducible apply kept_ite | simp only [kept_same] | split)

theorem Dev.takeAck_kept {a d : Dev} (h : Kept a d) (p : Nat) (f : Flit) : Kept a (Dev.takeAck d p f) := by
  unfold Dev.takeAck
  try dsimp only
  repeat' (first | with_reducible assumption | with_reducible apply Dev.raise_kept | with_reducible apply Dev.cnt_kept | with_reducible apply Dev.startReplay_kept | with_reducible apply Dev.freeTo_kept | with_reducible apply kept_ite | split)

theorem Dev.takeCredits_kept {a d : Dev} (h : Kept a d) (p : Nat) (f : Flit) : Kept a (Dev.takeCredits d p f) := by
  unfold Dev.takeCredits
  try dsimp only
  repeat' (first | with_reducible assumption | with_reducible apply Dev.s_kept | with_reducible apply Dev.setLnk_kept | simp only [kept_same])

theorem Dev.takeHeader_kept {a d : Dev} (h : Kept a d) (p : Nat) (f : Flit) : Kept a (Dev.takeHeader d p f) := by
  unfold Dev.takeHeader
  repeat' (first | with_reducible assumption | with_reducible apply Dev.setLnk_kept | with_reducible apply Dev.takeAck_kept | with_reducible apply Dev.takeCredits_kept | simp only [kept_same])

theorem Dev.enterNak_kept {a d : Dev} (h : Kept a d) (p : Nat) : Kept a (Dev.enterNak d p) := by
  unfold Dev.enterNak
  repeat' (first | with_reducible assumption | with_reducible apply Dev.sb_kept | with_reducible apply Dev.setLnk_kept | with_reducible apply kept_ite | simp only [kept_same] | split)

theorem Dev.acceptSeq_kept {a d : Dev} (h : Kept a d) (p : Nat) : Kept a (Dev.acceptSeq d p) := by
  unfold Dev.acceptSeq
  try dsimp only
  repeat' (first | with_reducible assumption | with_reducible apply Dev.s_kept | with_reducible apply Dev.sb_kept | with_reducible apply Dev.setLnk_kept | with_reducible apply kept_ite | simp only [kept_same] | split)

theorem Dev.abortLine_kept {a d : Dev} (h : Kept a d) (p : Nat) (v : Nat) : Kept a (Dev.abortLine d p v) := by
  unfold Dev.abortLine
  try dsimp only
  repeat' (first | with_reducible assumption | with_reducible apply Dev.lostPosted_kept | with_reducible apply Dev.setLnk_kept | with_reducible apply kept_whenD | intro _ _ _ | intro _ _ | intro _ | simp only [kept_same])

theorem Dev.setLine_kept {a d : Dev} (h : Kept a d) (p : Nat) (v : Nat) (x : Option RxOpen) : Kept a (Dev.setLine d p v x) := by
  unfold Dev.setLine
  try dsimp only
  repeat' (first | with_reducible assumption | with_reducible apply Dev.setLnk_kept | simp only [kept_same] | split)

theorem Dev.framing_kept {a d : Dev} (h : Kept a d) (p : Nat) : Kept a (Dev.framing d p) := by
  unfold Dev.framing
  repeat' (first | with_reducible assumption | with_reducible apply Dev.raise_kept | with_reducible apply Dev.cnt_kept)

theorem Dev.place_kept {a d : Dev} (h : Kept a d) (p : Nat) (f : Flit) (n : Nat) : Kept a (Dev.place d p f n) := by
  unfold Dev.place
  try dsimp only
  repeat' (first | with_reducible assumption | with_reducible apply Dev.touch_kept | with_reducible apply Dev.stoMove_kept | with_reducible apply Dev.setLnk_kept | with_reducible apply Dev.cnt_kept | with_reducible apply kept_whenD | intro _ _ _ | intro _ _ | intro _ | with_reducible apply kept_ite | simp only [kept_same] | split)

theorem Dev.dropFlit_kept {a d : Dev} (h : Kept a d) (p : Nat) (f : Flit) : Kept a (Dev.dropFlit d p f) := by
  unfold Dev.dropFlit
  try dsimp only
  repeat' (first | with_reducible assumption | with_reducible apply Dev.grantOne_kept | with_reducible apply Dev.setLine_kept | with_reducible apply kept_ite | split)

theorem Dev.strayFlit_kept {a d : Dev} (h : Kept a d) (p : Nat) (f : Flit) : Kept a (Dev.strayFlit d p f) := by
  unfold Dev.strayFlit
  try dsimp only
  repeat' (first | with_reducible assumption | with_reducible apply Dev.grantOne_kept | with_reducible apply Dev.setLine_kept)

theorem Dev.frameData_kept {a d : Dev} (h : Kept a d) (p : Nat) (f : Flit) : Kept a (Dev.frameData d p f) := by
  unfold Dev.frameData
  try dsimp only
  repeat' (first | with_reducible assumption | with_reducible apply Dev.abortLine_kept | with_reducible apply Dev.setLine_kept | with_reducible apply Dev.framing_kept | with_reducible apply Dev.place_kept | with_reducible apply Dev.dropFlit_kept | with_reducible apply Dev.strayFlit_kept | with_reducible apply kept_ite | split)

theorem Dev.malformedData_kept {a d : Dev} (h : Kept a d) (p : Nat) (f : Flit) : Kept a (Dev.malformedData d p f) := by
  unfold Dev.malformedData
  try dsimp only
  repeat' (first | with_reducible assumption | with_reducible apply Dev.raise_kept | with_reducible apply Dev.lostPosted_kept | with_reducible apply Dev.cnt_kept | with_reducible apply Dev.abortLine_kept | with_reducible apply Dev.framing_kept | with_reducible apply Dev.dropFlit_kept | with_reducible apply Dev.strayFlit_kept | with_reducible apply kept_whenD | intro _ _ _ | intro _ _ | intro _ | with_reducible apply kept_ite | split)

theorem Dev.useCredit_kept {a d : Dev} (h : Kept a d) (p : Nat) (f : Flit) : Kept a (Dev.useCredit d p f) := by
  unfold Dev.useCredit
  try dsimp only
  repeat' (first | with_reducible assumption | with_reducible apply Dev.setLnk_kept | with_reducible apply kept_ite | simp only [kept_same] | split)

theorem Dev.overrun_kept {a d : Dev} (h : Kept a d) (p : Nat) : Kept a (Dev.overrun d p) := by
  unfold Dev.overrun
  repeat' (first | with_reducible assumption | with_reducible apply Dev.sb_kept | with_reducible apply Dev.raise_kept | with_reducible apply Dev.linkRetrain_kept)

theorem Dev.sequenced_kept {a d : Dev} (h : Kept a d) (p : Nat) (f : Flit) (take : Dev → Dev) (hf : ∀ d, Kept a d → Kept a (take d)) : Kept a (Dev.sequenced d p f take) := by
  unfold Dev.sequenced
  try dsimp only
  repeat' (first | with_reducible assumption | with_reducible apply Dev.cnt_kept | with_reducible apply Dev.enterNak_kept | with_reducible apply hf | with_reducible apply kept_ite | split)

theorem Dev.dataIn_kept {a d : Dev} (h : Kept a d) (p : Nat) (f : Flit) : Kept a (Dev.dataIn d p f) := by
  unfold Dev.dataIn
  try dsimp only
  repeat' (first | with_reducible assumption | with_reducible apply Dev.takeHeader_kept | with_reducible apply Dev.acceptSeq_kept | with_reducible apply Dev.frameData_kept | with_reducible apply Dev.malformedData_kept | with_reducible apply Dev.useCredit_kept | with_reducible apply Dev.overrun_kept | with_reducible apply Dev.sequenced_kept | intro _ _ _ | intro _ _ | intro _ | with_reducible apply kept_ite | split)

theorem Dev.nullIn_kept {a d : Dev} (h : Kept a d) (p : Nat) (f : Flit) : Kept a (Dev.nullIn d p f) := by
  unfold Dev.nullIn
  try dsimp only
  repeat' (first | with_reducible assumption | with_reducible apply Dev.takeHeader_kept | with_reducible apply Dev.enterNak_kept | with_reducible apply kept_ite | split)

theorem Dev.undefIn_kept {a d : Dev} (h : Kept a d) (p : Nat) (f : Flit) : Kept a (Dev.undefIn d p f) := by
  unfold Dev.undefIn
  try dsimp only
  repeat' (first | with_reducible assumption | with_reducible apply Dev.raise_kept | with_reducible apply Dev.cnt_kept | with_reducible apply Dev.takeHeader_kept | with_reducible apply Dev.acceptSeq_kept | with_reducible apply Dev.sequenced_kept | intro _ _ _ | intro _ _ | intro _ | with_reducible apply kept_ite | split)

theorem Dev.badIn_kept {a d : Dev} (h : Kept a d) (p : Nat) : Kept a (Dev.badIn d p) := by
  unfold Dev.badIn
  repeat' (first | with_reducible assumption | with_reducible apply Dev.cnt_kept | with_reducible apply Dev.enterNak_kept | with_reducible apply kept_ite | split)

theorem Dev.decideSession_kept {a d : Dev} (h : Kept a d) (p : Nat) (x : InitX) : Kept a (Dev.decideSession d p x) := by
  unfold Dev.decideSession
  try dsimp only
  repeat' (first | with_reducible assumption | with_reducible apply Dev.s_kept | with_reducible apply Dev.sb_kept | with_reducible apply Dev.stamp_kept | with_reducible apply Dev.setLnk_kept | with_reducible apply Dev.cnt_kept | with_reducible apply Dev.tryOpen_kept | with_reducible apply Dev.discardSession_kept | with_reducible apply Dev.startReplay_kept | with_reducible apply Dev.freeTo_kept | with_reducible apply kept_ite | simp only [kept_same] | split)

theorem Dev.initTake_kept {a d : Dev} (h : Kept a d) (p : Nat) (f : Flit) (x : InitX) : Kept a (Dev.initTake d p f x) := by
  unfold Dev.initTake
  try dsimp only
  repeat' (first | with_reducible assumption | with_reducible apply Dev.s_kept | with_reducible apply Dev.setLnk_kept | with_reducible apply kept_ite | simp only [kept_same] | split)

theorem Dev.initIn_kept {a d : Dev} (h : Kept a d) (p : Nat) (f : Flit) : Kept a (Dev.initIn d p f) := by
  unfold Dev.initIn
  try dsimp only
  repeat' (first | with_reducible assumption | with_reducible apply Dev.sb_kept | with_reducible apply Dev.setLnk_kept | with_reducible apply Dev.leaveOpen_kept | with_reducible apply Dev.linkUp_kept | with_reducible apply Dev.initTake_kept | with_reducible apply kept_ite | simp only [kept_same] | split)

theorem Dev.emitFlit_kept {a d : Dev} (h : Kept a d) (p : Nat) (f : Flit) : Kept a (Dev.emitFlit d p f) := by
  unfold Dev.emitFlit
  try dsimp only
  repeat' (first | with_reducible assumption | with_reducible apply Dev.emit_kept | with_reducible apply Dev.setLnk_kept | with_reducible apply Dev.lineSend_kept | with_reducible apply Dev.cnt_kept | with_reducible apply kept_whenD | intro _ _ _ | intro _ _ | intro _ | with_reducible apply kept_ite | simp only [kept_same] | split)

theorem Dev.sendNull_kept {a d : Dev} (h : Kept a d) (p : Nat) : Kept a (Dev.sendNull d p) := by
  unfold Dev.sendNull
  repeat' (first | with_reducible assumption | with_reducible apply Dev.emitFlit_kept)

theorem Dev.sendInit_kept {a d : Dev} (h : Kept a d) (p : Nat) (x : InitX) : Kept a (Dev.sendInit d p x) := by
  unfold Dev.sendInit
  try dsimp only
  repeat' (first | with_reducible assumption | with_reducible apply Dev.setLnk_kept | with_reducible apply Dev.decideSession_kept | with_reducible apply Dev.emitFlit_kept | with_reducible apply kept_ite | simp only [kept_same] | split)

theorem Dev.sendReplay_kept {a d : Dev} (h : Kept a d) (p : Nat) (s : Nat) (rest : List Nat) : Kept a (Dev.sendReplay d p s rest) := by
  unfold Dev.sendReplay
  try dsimp only
  repeat' (first | with_reducible assumption | with_reducible apply Dev.sb_kept | with_reducible apply Dev.touch_kept | with_reducible apply Dev.stoMove_kept | with_reducible apply Dev.setLnk_kept | with_reducible apply Dev.emitFlit_kept | with_reducible apply Dev.sendNull_kept | with_reducible apply kept_whenD | intro _ _ _ | intro _ _ | intro _ | simp only [kept_same] | split)

theorem Dev.sendData_kept {a d : Dev} (h : Kept a d) (p : Nat) (v : Nat) : Kept a (Dev.sendData d p v) := by
  unfold Dev.sendData
  try dsimp only
  repeat' (first | with_reducible assumption | with_reducible apply Dev.s_kept | with_reducible apply Dev.touch_kept | with_reducible apply Dev.stoMove_kept | with_reducible apply Dev.setLnk_kept | with_reducible apply Dev.emitFlit_kept | with_reducible apply Dev.sendNull_kept | with_reducible apply kept_whenD | intro _ _ _ | intro _ _ | intro _ | with_reducible apply kept_ite | simp only [kept_same] | split)

theorem Dev.slotOf_kept {a d : Dev} (h : Kept a d) (p : Nat) (spillOk : Bool) : Kept a (Dev.slotOf d p spillOk) := by
  unfold Dev.slotOf
  try dsimp only
  repeat' (first | with_reducible assumption | with_reducible apply Dev.setLnk_kept | with_reducible apply Dev.sendNull_kept | with_reducible apply Dev.sendInit_kept | with_reducible apply Dev.sendReplay_kept | with_reducible apply Dev.sendData_kept | with_reducible apply kept_ite | simp only [kept_same] | split)

theorem Dev.toLink_kept {a d : Dev} (h : Kept a d) (p : Nat) (v : Nat) (bytes : List Byte) (posted : Bool) (scope : Option (Nat × Nat × Nat)) (last : Bool) : Kept a (Dev.toLink d p v bytes posted scope last) := by
  unfold Dev.toLink
  try dsimp only
  repeat' (first | with_reducible assumption | with_reducible apply Dev.setLnk_kept | simp only [kept_same])

theorem Dev.replayTimer_kept {a d : Dev} (h : Kept a d) (p : Nat) : Kept a (Dev.replayTimer d p) := by
  unfold Dev.replayTimer
  repeat' (first | with_reducible assumption | with_reducible apply Dev.startReplay_kept | with_reducible apply kept_ite | split)

theorem Dev.stallTick_kept {a d : Dev} (h : Kept a d) : Kept a (Dev.stallTick d) := by
  unfold Dev.stallTick
  try dsimp only
  repeat' (first | with_reducible assumption | with_reducible apply Dev.bumpBy_kept | with_reducible apply kept_each | with_reducible apply kept_whenD | intro _ _ _ | intro _ _ | intro _)

theorem Dev.initTimer_kept {a d : Dev} (h : Kept a d) (p : Nat) : Kept a (Dev.initTimer d p) := by
  unfold Dev.initTimer
  repeat' (first | with_reducible assumption | with_reducible apply Dev.linkRetrain_kept | with_reducible apply kept_ite | split)

theorem Dev.sendStalled_kept {a d : Dev} (h : Kept a d) (p : Nat) : Kept a (Dev.sendStalled d p) := by
  unfold Dev.sendStalled
  try dsimp only
  repeat' (first | with_reducible assumption | with_reducible apply Dev.raise_kept | intro _ _ _ | intro _ _ | intro _ | with_reducible apply kept_ite | split)

theorem Dev.replayInterval_kept {a d : Dev} (h : Kept a d) (p : Nat) : Kept a (Dev.replayInterval d p) := by
  unfold Dev.replayInterval
  try dsimp only
  repeat' (first | with_reducible assumption | with_reducible apply Dev.raise_kept | with_reducible apply Dev.setLnk_kept | with_reducible apply kept_whenD | intro _ _ _ | intro _ _ | intro _ | simp only [kept_same])

theorem Dev.deliverFlit_kept {a d : Dev} (h : Kept a d) (p : Nat) (v : Nat) : Kept a (Dev.deliverFlit d p v) := by
  unfold Dev.deliverFlit
  try dsimp only
  repeat' (first | with_reducible assumption | with_reducible apply Dev.touch_kept | with_reducible apply Dev.stoMove_kept | with_reducible apply Dev.setLnk_kept | with_reducible apply Dev.grantOne_kept | with_reducible apply kept_whenD | intro _ _ _ | intro _ _ | intro _ | with_reducible apply kept_ite | simp only [kept_same] | split)

theorem Dev.storeLinkReset_kept {a d : Dev} (h : Kept a d) (p : Nat) : Kept a (Dev.storeLinkReset d p) := by
  unfold Dev.storeLinkReset
  try dsimp only
  repeat' (first | with_reducible assumption | with_reducible apply Dev.sb_kept | with_reducible apply Dev.lostPosted_kept | with_reducible apply Dev.setLnk_kept | with_reducible apply Dev.trainStart_kept | with_reducible apply Dev.phyDown_kept | with_reducible apply Dev.discardSession_kept | with_reducible apply kept_foldl | with_reducible apply kept_foldl_fst | with_reducible apply kept_foldl_snd | intro _ _ _ | intro _ _ | intro _ | simp only [kept_same])

theorem Dev.leave_kept {a d : Dev} (h : Kept a d) (e : Nat) (q : QEnt) : Kept a (Dev.leave d e q) := by
  unfold Dev.leave
  try dsimp only
  repeat' (first | with_reducible assumption | with_reducible apply Dev.emit_kept | with_reducible apply Dev.respond_kept | with_reducible apply Dev.toLink_kept | with_reducible apply kept_whenD | intro _ _ _ | intro _ _ | intro _ | with_reducible apply kept_ite | simp only [kept_same] | split)

theorem Dev.drainStrict_kept {a d : Dev} (h : Kept a d) (e : Nat) (q : List QEnt) : Kept a (Dev.drainStrict d e q).1 := by
  induction q generalizing d with
  | nil => exact h
  | cons x t ih =>
    unfold Dev.drainStrict
    split
    · exact ih (Dev.leave_kept h _ _)
    · exact ih h

theorem Dev.groupSend_kept {a d : Dev} (h : Kept a d) (e : Nat) (fuel : Nat) (g : EGroup) : Kept a (Dev.groupSend d e fuel g).1 := by
  induction fuel generalizing d g with
  | zero => exact h
  | succ n ih =>
    unfold Dev.groupSend
    repeat' split
    · exact h
    · exact ih (Dev.leave_kept h _ _) _
    · exact h

theorem Dev.visit_kept {a d : Dev} (h : Kept a d) (e : Nat) : Kept a (Dev.visit d e) := by
  unfold Dev.visit
  try dsimp only
  repeat' (first | with_reducible assumption | with_reducible apply Dev.setEgress_kept | with_reducible apply Dev.drainStrict_kept | with_reducible apply Dev.groupSend_kept | with_reducible apply kept_id | intro _ _ _ | intro _ _ | intro _ | with_reducible apply kept_ite | simp only [kept_same] | split)

theorem Dev.toEscape_kept {a d : Dev} (h : Kept a d) (id : Nat) (vc : Nat) (k : Pkt) : Kept a (Dev.toEscape d id vc k) := by
  unfold Dev.toEscape
  try dsimp only
  repeat' (first | with_reducible assumption | with_reducible apply Dev.bump_kept | with_reducible apply Dev.enqueue_kept | with_reducible apply Dev.noForward_kept | with_reducible apply kept_id | with_reducible apply kept_ite | simp only [kept_same] | split)

theorem Dev.escapeMove_kept {a d : Dev} (h : Kept a d) (p : Nat) (vc : Nat) : Kept a (Dev.escapeMove d p vc) := by
  unfold Dev.escapeMove
  try dsimp only
  repeat' (first | with_reducible assumption | with_reducible apply Dev.setEgress_kept | with_reducible apply Dev.toEscape_kept | with_reducible apply kept_id | intro _ _ _ | intro _ _ | intro _ | with_reducible apply kept_ite | simp only [kept_same] | split)

theorem Dev.refillOne_kept {a d : Dev} (h : Kept a d) (k : Nat) : Kept a (Dev.refillOne d k) := by
  unfold Dev.refillOne
  try dsimp only
  repeat' (first | with_reducible assumption | with_reducible apply Dev.s_kept | with_reducible apply kept_ite | simp only [kept_same] | split)

theorem Dev.countWaits_kept {a d : Dev} (h : Kept a d) : Kept a (Dev.countWaits d) := by
  unfold Dev.countWaits
  try dsimp only
  repeat' (first | with_reducible assumption | with_reducible apply kept_foldl | with_reducible apply kept_foldl_fst | with_reducible apply kept_foldl_snd | intro _ _ _ | intro _ _ | intro _ | simp only [kept_ins])

theorem Dev.refill_kept {a d : Dev} (h : Kept a d) : Kept a (Dev.refill d) := by
  unfold Dev.refill
  repeat' (first | with_reducible assumption | with_reducible apply Dev.pump_kept | with_reducible apply Dev.refillOne_kept | with_reducible apply Dev.countWaits_kept | with_reducible apply kept_each | intro _ _ _ | intro _ _ | intro _)

theorem Dev.capLevel_kept {a d : Dev} (h : Kept a d) (b : Nat) (q : Nat) : Kept a (Dev.capLevel d b q) := by
  unfold Dev.capLevel
  try dsimp only
  repeat' (first | with_reducible assumption | with_reducible apply Dev.s_kept | with_reducible apply kept_ite | split)

theorem Dev.judgeBucket_keeps (d : Dev) (b : Nat) (j : Nat) (c : WCtx) : (Dev.judgeBucket d b j c).Keeps := by
  unfold Dev.judgeBucket
  try dsimp only
  repeat' (first | with_reducible assumption | exact WOut.bad_keeps | exact WOut.none_keeps | exact WOut.unmapped_keeps | with_reducible apply WOut.ok_keeps | with_reducible apply WOut.badEff_keeps | with_reducible apply WOut.group_keeps | with_reducible apply Dev.judgeRow_keeps | with_reducible apply Dev.capLevel_kept | with_reducible apply Dev.wr_kept | intro _ _ _ | intro _ _ | intro _ | (refine WOut.of_ok (Dev.judgeRow_keeps _ _ _ _ _) ‹_› ?_) | split | (subst_vars; first | with_reducible assumption | with_reducible apply Dev.judgeRow_keeps | with_reducible apply Dev.capLevel_kept | with_reducible apply Dev.wr_kept))

end Sys2Proof.Machine
end

