-- ==== Sys2Proof/Laws/KeptStore.lean ====
section
/-! SUPPORT. `Kept` over the Store, straps, blocks, power domains and Ember: one lemma per function. -/
namespace Sys2Proof.Machine

theorem Dev.stopInstance_kept {a d : Dev} (h : Kept a d) (n : Nat) : Kept a (Dev.stopInstance d n) := by
  unfold Dev.stopInstance
  try dsimp only
  repeat' (first | with_reducible assumption | with_reducible apply Dev.isFlop_kept | with_reducible apply Dev.raise_kept | with_reducible apply Dev.log_kept | with_reducible apply Dev.setEv_kept)

theorem Dev.loseHold_kept {a d : Dev} (h : Kept a d) (i : Nat) : Kept a (Dev.loseHold d i) := by
  unfold Dev.loseHold
  try dsimp only
  repeat' (first | with_reducible assumption | with_reducible apply Dev.breakHold_kept | simp only [kept_same] | split)

theorem Dev.quarTag_kept {a d : Dev} (h : Kept a d) (k : Nat) : Kept a (Dev.quarTag d k) := by
  unfold Dev.quarTag
  repeat' (first | with_reducible assumption | with_reducible apply Dev.bump_kept | with_reducible apply kept_ite | simp only [kept_same] | split)

theorem Dev.badRecord_kept {a d : Dev} (h : Kept a d) (slot : Nat) : Kept a (Dev.badRecord d slot) := by
  unfold Dev.badRecord
  try dsimp only
  repeat' (first | with_reducible assumption | intro _ _ _ | intro _ _ | intro _ | with_reducible apply kept_ite | simp only [kept_same] | split)

theorem Dev.ueAct_kept {a d : Dev} (h : Kept a d) (r : Nat) (o : Nat) : Kept a (Dev.ueAct d r o) := by
  unfold Dev.ueAct
  try dsimp only
  repeat' (first | with_reducible assumption | with_reducible apply Dev.logHeader_kept | with_reducible apply Dev.snapMend_kept | with_reducible apply Dev.reform_kept | with_reducible apply Dev.putWdesc_kept | with_reducible apply Dev.storeLinkReset_kept | with_reducible apply Dev.loseHold_kept | with_reducible apply Dev.quarTag_kept | with_reducible apply Dev.badRecord_kept | intro _ _ _ | intro _ _ | intro _ | with_reducible apply kept_ite | simp only [kept_ins] | simp only [kept_same] | split)

theorem Dev.ueRecord_kept {a d : Dev} (h : Kept a d) (r : Nat) (a_ : Nat) (crc : Bool) (used : Bool) : Kept a (Dev.ueRecord d r a_ crc used) := by
  unfold Dev.ueRecord
  try dsimp only
  repeat' (first | with_reducible assumption | with_reducible apply Dev.wr_kept | with_reducible apply kept_ite | split)

theorem Dev.raiseUe_kept {a d : Dev} (h : Kept a d) (r : Nat) (o : Nat) (used : Bool) : Kept a (Dev.raiseUe d r o used) := by
  unfold Dev.raiseUe
  try dsimp only
  repeat' (first | with_reducible assumption | with_reducible apply Dev.raise_kept | with_reducible apply Dev.raiseAt_kept | with_reducible apply kept_ite | split)

theorem Dev.copyFixed_kept {a d : Dev} (h : Kept a d) : Kept a (Dev.copyFixed d) := by
  unfold Dev.copyFixed
  try dsimp only
  repeat' (first | with_reducible assumption | with_reducible apply Dev.bump_kept | with_reducible apply Dev.raise_kept)

theorem Dev.ueMet_kept {a d : Dev} (h : Kept a d) (a_ : Nat) (used : Bool) : Kept a (Dev.ueMet d a_ used) := by
  unfold Dev.ueMet
  try dsimp only
  repeat' (first | with_reducible assumption | with_reducible apply Dev.bump_kept | with_reducible apply Dev.ueAct_kept | with_reducible apply Dev.ueRecord_kept | with_reducible apply Dev.raiseUe_kept | with_reducible apply Dev.copyFixed_kept | with_reducible apply kept_ite | split)

theorem Dev.ueUnit_kept {a d : Dev} (h : Kept a d) (a_ : Nat) : Kept a (Dev.ueUnit d a_) := by
  unfold Dev.ueUnit
  try dsimp only
  repeat' (first | with_reducible assumption | with_reducible apply Dev.ueMet_kept)

theorem Dev.crcHeld_kept {a d : Dev} (h : Kept a d) (a_ : Nat) : Kept a (Dev.crcHeld d a_) := by
  unfold Dev.crcHeld
  try dsimp only
  repeat' (first | with_reducible assumption | with_reducible apply Dev.bump_kept | with_reducible apply Dev.ueAct_kept | with_reducible apply Dev.ueRecord_kept | with_reducible apply Dev.raiseUe_kept | with_reducible apply kept_each | intro _ _ _ | intro _ _ | intro _)

theorem Dev.crcPage_kept {a d : Dev} (h : Kept a d) (a_ : Nat) : Kept a (Dev.crcPage d a_) := by
  unfold Dev.crcPage
  try dsimp only
  repeat' (first | with_reducible assumption | with_reducible apply Dev.bump_kept | with_reducible apply Dev.ueAct_kept | with_reducible apply Dev.ueRecord_kept | with_reducible apply Dev.raiseUe_kept | with_reducible apply kept_each | intro _ _ _ | intro _ _ | intro _ | with_reducible apply kept_ite | split)

theorem Dev.sealCopies_kept {a d : Dev} (h : Kept a d) (aOk : Bool) (bOk : Bool) : Kept a (Dev.sealCopies d aOk bOk) := by
  unfold Dev.sealCopies
  try dsimp only
  repeat' (first | with_reducible assumption | with_reducible apply Dev.bump_kept | with_reducible apply Dev.copyFixed_kept | with_reducible apply kept_ite | simp only [kept_same] | split)

theorem Dev.descCopies_kept {a d : Dev} (h : Kept a d) (n : Nat) (live : Bool) (a_ : List W64) (b : List W64) : Kept a (Dev.descCopies d n live a_ b) := by
  unfold Dev.descCopies
  try dsimp only
  repeat' (first | with_reducible assumption | with_reducible apply Dev.bump_kept | with_reducible apply Dev.stopInstance_kept | with_reducible apply Dev.copyFixed_kept | with_reducible apply kept_ite | simp only [kept_ins] | split)

theorem Dev.dirDiffer_kept {a d : Dev} (h : Kept a d) (a_ : Nat) (aOk : Bool) (bOk : Bool) : Kept a (Dev.dirDiffer d a_ aOk bOk) := by
  unfold Dev.dirDiffer
  try dsimp only
  repeat' (first | with_reducible assumption | with_reducible apply Dev.bumpBy_kept | with_reducible apply Dev.bump_kept | with_reducible apply Dev.raise_kept | with_reducible apply Dev.ueRecord_kept | with_reducible apply Dev.copyFixed_kept | with_reducible apply Dev.crcPage_kept | with_reducible apply kept_ite | split)

theorem Dev.unitRead_kept {a d : Dev} (h : Kept a d) (a_ : Nat) (x : UnitRead) : Kept a (Dev.unitRead d a_ x) := by
  unfold Dev.unitRead
  try dsimp only
  repeat' (first | with_reducible assumption | with_reducible apply Dev.bump_kept | with_reducible apply Dev.raise_kept | with_reducible apply Dev.ueUnit_kept | with_reducible apply Dev.crcPage_kept | with_reducible apply Dev.sealCopies_kept | with_reducible apply Dev.descCopies_kept | with_reducible apply Dev.dirDiffer_kept | with_reducible apply kept_ite | split)

theorem Dev.flitSlot_kept {a d : Dev} (h : Kept a d) (p : Nat) (spillOk : Bool) (readBad : Bool) : Kept a (Dev.flitSlot d p spillOk readBad) := by
  unfold Dev.flitSlot
  try dsimp only
  repeat' (first | with_reducible assumption | with_reducible apply Dev.slotOf_kept | with_reducible apply Dev.ueMet_kept | intro _ _ _ | intro _ _ | intro _ | with_reducible apply kept_ite | split)

theorem Dev.deliverSlot_kept {a d : Dev} (h : Kept a d) (p : Nat) (v : Nat) (readBad : Bool) : Kept a (Dev.deliverSlot d p v readBad) := by
  unfold Dev.deliverSlot
  try dsimp only
  repeat' (first | with_reducible assumption | with_reducible apply Dev.deliverFlit_kept | with_reducible apply Dev.ueMet_kept | with_reducible apply kept_ite | split)

theorem Dev.scrub_kept {a d : Dev} (h : Kept a d) (x : UnitRead) : Kept a (Dev.scrub d x) := by
  unfold Dev.scrub
  try dsimp only
  repeat' (first | with_reducible assumption | with_reducible apply Dev.s_kept | with_reducible apply Dev.bump_kept | with_reducible apply Dev.stoMove_kept | with_reducible apply Dev.unitRead_kept | with_reducible apply kept_ite | simp only [kept_same] | split)

theorem Dev.judgeDbg_keeps (d : Dev) (c : WCtx) : (Dev.judgeDbg d c).Keeps := by
  unfold Dev.judgeDbg
  try dsimp only
  repeat' (first | with_reducible assumption | exact WOut.bad_keeps | exact WOut.none_keeps | exact WOut.unmapped_keeps | with_reducible apply WOut.ok_keeps | with_reducible apply WOut.badEff_keeps | with_reducible apply WOut.group_keeps | with_reducible apply Dev.sb_kept | with_reducible apply Dev.judgeRow_keeps | with_reducible apply Dev.wr_kept | intro _ _ _ | intro _ _ | intro _ | with_reducible apply kept_ite | simp only [kept_same] | (refine WOut.of_ok (Dev.judgeRow_keeps _ _ _ _ _) ‹_› ?_) | split | (subst_vars; first | with_reducible assumption | with_reducible apply Dev.sb_kept | with_reducible apply Dev.judgeRow_keeps | with_reducible apply Dev.wr_kept))

theorem Dev.dbgDone_kept {a d : Dev} (h : Kept a d) (poison : Bool) : Kept a (Dev.dbgDone d poison) := by
  unfold Dev.dbgDone
  try dsimp only
  repeat' (first | with_reducible assumption | with_reducible apply Dev.takeFrees_kept | with_reducible apply Dev.sb_kept | with_reducible apply Dev.stoMove_kept | with_reducible apply Dev.wr_kept | with_reducible apply kept_foldl | with_reducible apply kept_foldl_fst | with_reducible apply kept_foldl_snd | intro _ _ _ | intro _ _ | intro _ | with_reducible apply kept_ite | split)

theorem Dev.channelFail_kept {a d : Dev} (h : Kept a d) : Kept a (Dev.channelFail d) := by
  unfold Dev.channelFail
  repeat' (first | with_reducible assumption | with_reducible apply Dev.raise_kept | with_reducible apply kept_ite | simp only [kept_same] | split)

theorem Dev.latchStraps_kept {a d : Dev} (h : Kept a d) (x : StrapSamples) : Kept a (Dev.latchStraps d x) := by
  unfold Dev.latchStraps
  try dsimp only
  repeat' (first | with_reducible assumption | with_reducible apply Dev.s_kept | with_reducible apply Dev.raiseLvl_kept | with_reducible apply Dev.wr_kept | with_reducible apply kept_foldl | with_reducible apply kept_foldl_fst | with_reducible apply kept_foldl_snd | with_reducible apply kept_whenD | intro _ _ _ | intro _ _ | intro _ | with_reducible apply kept_ite | simp only [kept_same] | split)

theorem Dev.strapsToEmber_kept {a d : Dev} (h : Kept a d) : Kept a (Dev.strapsToEmber d) := by
  unfold Dev.strapsToEmber
  try dsimp only
  repeat' (first | with_reducible assumption | with_reducible apply Dev.unset_kept | with_reducible apply Dev.s_kept | with_reducible apply Dev.sb_kept | with_reducible apply Dev.log_kept | with_reducible apply kept_ite | simp only [kept_same] | split)

theorem Dev.strapRec_kept {a d : Dev} (h : Kept a d) (code : Nat) (old : Nat) (new : Nat) (aux : Nat) : Kept a (Dev.strapRec d code old new aux) := by
  unfold Dev.strapRec
  repeat' (first | with_reducible assumption | with_reducible apply Dev.log_kept)

theorem Dev.strapRecords_kept {a d : Dev} (h : Kept a d) (warm : Bool) : Kept a (Dev.strapRecords d warm) := by
  unfold Dev.strapRecords
  try dsimp only
  repeat' (first | with_reducible assumption | with_reducible apply Dev.strapRec_kept | with_reducible apply kept_each | intro _ _ _ | intro _ _ | intro _ | with_reducible apply kept_ite | split)

theorem Dev.confirmStrap_kept {a d : Dev} (h : Kept a d) (code : Nat) (old : Nat) (new : Nat) (sampled : Nat) : Kept a (Dev.confirmStrap d code old new sampled) := by
  unfold Dev.confirmStrap
  try dsimp only
  repeat' (first | with_reducible assumption | with_reducible apply Dev.bump_kept | with_reducible apply Dev.raise_kept | with_reducible apply Dev.licPulse_kept | with_reducible apply Dev.strapRec_kept | with_reducible apply kept_whenD | intro _ _ _ | intro _ _ | intro _)

theorem Dev.rereadSd_kept {a d : Dev} (h : Kept a d) (x : StrapPass) (p : StrapPass) (i : Nat) : Kept a (Dev.rereadSd d x p i) := by
  unfold Dev.rereadSd
  try dsimp only
  repeat' (first | with_reducible assumption | with_reducible apply Dev.s_kept | with_reducible apply Dev.confirmStrap_kept | with_reducible apply kept_ite | split)

theorem Dev.rereadTe_kept {a d : Dev} (h : Kept a d) (x : StrapPass) (p : StrapPass) : Kept a (Dev.rereadTe d x p) := by
  unfold Dev.rereadTe
  try dsimp only
  repeat' (first | with_reducible assumption | with_reducible apply Dev.sb_kept | with_reducible apply Dev.confirmStrap_kept | with_reducible apply kept_ite | simp only [kept_same] | split)

theorem Dev.setSvNow_kept {a d : Dev} (h : Kept a d) (k : Nat) (n : Nat) : Kept a (Dev.setSvNow d k n) := by
  unfold Dev.setSvNow
  try dsimp only
  repeat' (first | with_reducible assumption | with_reducible apply Dev.s_kept | with_reducible apply kept_ite | split)

theorem Dev.rereadSv_kept {a d : Dev} (h : Kept a d) (x : StrapPass) (p : StrapPass) (k : Nat) : Kept a (Dev.rereadSv d x p k) := by
  unfold Dev.rereadSv
  try dsimp only
  repeat' (first | with_reducible assumption | with_reducible apply Dev.confirmStrap_kept | with_reducible apply Dev.setSvNow_kept | with_reducible apply kept_ite | split)

theorem Dev.measured_kept {a d : Dev} (h : Kept a d) (k : Nat) (r : Nat) : Kept a (Dev.measured d k r) := by
  unfold Dev.measured
  repeat' (first | with_reducible assumption | with_reducible apply Dev.wr_kept)

theorem Dev.driftBits_kept {a d : Dev} (h : Kept a d) : Kept a (Dev.driftBits d) := by
  unfold Dev.driftBits
  try dsimp only
  repeat' (first | with_reducible assumption | with_reducible apply Dev.s_kept | with_reducible apply Dev.sb_kept | intro _ _ _ | intro _ _ | intro _)

theorem Dev.reread_kept {a d : Dev} (h : Kept a d) (x : StrapPass) : Kept a (Dev.reread d x) := by
  unfold Dev.reread
  try dsimp only
  repeat' (first | with_reducible assumption | with_reducible apply Dev.rereadSd_kept | with_reducible apply Dev.rereadTe_kept | with_reducible apply Dev.rereadSv_kept | with_reducible apply Dev.measured_kept | with_reducible apply Dev.driftBits_kept | with_reducible apply kept_each | intro _ _ _ | intro _ _ | intro _ | with_reducible apply kept_ite | simp only [kept_same] | split)

theorem Dev.fabricEnd_kept {a d : Dev} (h : Kept a d) (p : Nat) : Kept a (Dev.fabricEnd d p).1 := by
  unfold Dev.fabricEnd
  try dsimp only
  repeat' (first | with_reducible assumption | with_reducible apply Dev.setEgress_kept | with_reducible apply Dev.lostPosted_kept | with_reducible apply Dev.answer_kept | with_reducible apply kept_each | intro _ _ _ | intro _ _ | intro _)

theorem Dev.portEnd_kept {a d : Dev} (h : Kept a d) (p : Nat) (cause : Nat) : Kept a (Dev.portEnd d p cause).1 := by
  unfold Dev.portEnd
  try dsimp only
  repeat' (first | with_reducible assumption | with_reducible apply Dev.sb_kept | with_reducible apply Dev.setEgress_kept | with_reducible apply Dev.lostPosted_kept | with_reducible apply Dev.setPort_kept | with_reducible apply Dev.phyStop_kept | with_reducible apply Dev.discardSession_kept | with_reducible apply Dev.localEnd_kept | with_reducible apply Dev.fabricEnd_kept | with_reducible apply kept_ite | simp only [kept_same] | split)

theorem Dev.sliceEnd_kept {a d : Dev} (h : Kept a d) (k : Nat) : Kept a (Dev.sliceEnd d k).1 := by
  unfold Dev.sliceEnd
  try dsimp only
  repeat' (first | with_reducible assumption | with_reducible apply Dev.lostPosted_kept | with_reducible apply Dev.answer_kept | with_reducible apply Dev.turnAway_kept | with_reducible apply kept_each | intro _ _ _ | intro _ _ | intro _ | simp only [kept_ins] | simp only [kept_same])

theorem Dev.inboundEnd_kept {a d : Dev} (h : Kept a d) (k : Nat) : Kept a (Dev.inboundEnd d k).1 := by
  unfold Dev.inboundEnd
  try dsimp only
  repeat' (first | with_reducible assumption | with_reducible apply Dev.setEgress_kept | with_reducible apply Dev.lostPosted_kept | with_reducible apply Dev.answer_kept | with_reducible apply Dev.endOps_kept | with_reducible apply kept_each | intro _ _ _ | intro _ _ | intro _ | with_reducible apply kept_ite | simp only [kept_same] | split)

theorem Dev.rateEnd_kept {a d : Dev} (h : Kept a d) : Kept a (Dev.rateEnd d).1 := by
  unfold Dev.rateEnd
  try dsimp only
  repeat' (first | with_reducible assumption | with_reducible apply Dev.lostPosted_kept | with_reducible apply Dev.turnAway_kept | with_reducible apply kept_each | intro _ _ _ | intro _ _ | intro _ | simp only [kept_same])

theorem Dev.netEnd_kept {a d : Dev} (h : Kept a d) : Kept a (Dev.netEnd d) := by
  unfold Dev.netEnd
  repeat' (first | with_reducible assumption | simp only [kept_same])

theorem Dev.workEnd_kept {a d : Dev} (h : Kept a d) (blk : Nat) (cause : Nat) : Kept a (Dev.workEnd d blk cause).1 := by
  unfold Dev.workEnd
  try dsimp only
  repeat' (first | with_reducible assumption | with_reducible apply Dev.licReset_kept | with_reducible apply Dev.portEnd_kept | with_reducible apply Dev.sliceEnd_kept | with_reducible apply Dev.inboundEnd_kept | with_reducible apply Dev.rateEnd_kept | with_reducible apply Dev.netEnd_kept | with_reducible apply kept_foldl | with_reducible apply kept_foldl_fst | with_reducible apply kept_foldl_snd | intro _ _ _ | intro _ _ | intro _ | with_reducible apply kept_ite | split)

theorem Dev.nextGen_kept {a d : Dev} (h : Kept a d) (blk : Nat) : Kept a (Dev.nextGen d blk) := by
  unfold Dev.nextGen
  repeat' (first | with_reducible assumption | simp only [kept_same])

theorem Dev.nextGens_kept {a d : Dev} (h : Kept a d) (blk : Nat) : Kept a (Dev.nextGens d blk) := by
  unfold Dev.nextGens
  repeat' (first | with_reducible assumption | with_reducible apply Dev.nextGen_kept | with_reducible apply kept_foldl | with_reducible apply kept_foldl_fst | with_reducible apply kept_foldl_snd | intro _ _ _ | intro _ _ | intro _)

theorem Dev.unsetB_kept {a d : Dev} (h : Kept a d) (lo : Nat) (hi : Nat) : Kept a (Dev.unsetB d lo hi) := by
  unfold Dev.unsetB
  try dsimp only
  repeat' (first | with_reducible assumption | intro _ _ _ | intro _ _ | intro _ | simp only [kept_same] | with_reducible apply kept_filter)

theorem Dev.portRestore_kept {a d : Dev} (h : Kept a d) (p : Nat) : Kept a (Dev.portRestore d p) := by
  unfold Dev.portRestore
  try dsimp only
  repeat' (first | with_reducible assumption | with_reducible apply Dev.s_kept | with_reducible apply Dev.setPort_kept | with_reducible apply Dev.unsetB_kept | simp only [kept_same])

theorem Dev.netRestore_kept {a d : Dev} (h : Kept a d) : Kept a (Dev.netRestore d) := by
  unfold Dev.netRestore
  try dsimp only
  repeat' (first | with_reducible assumption | with_reducible apply Dev.s_kept | with_reducible apply Dev.unsetB_kept)

theorem Dev.restoreState_kept {a d : Dev} (h : Kept a d) (blk : Nat) : Kept a (Dev.restoreState d blk) := by
  unfold Dev.restoreState
  repeat' (first | with_reducible assumption | with_reducible apply Dev.portRestore_kept | with_reducible apply Dev.netRestore_kept | with_reducible apply kept_each | intro _ _ _ | intro _ _ | intro _ | with_reducible apply kept_ite | split)

theorem Dev.portsTrain_kept {a d : Dev} (h : Kept a d) (blk : Nat) : Kept a (Dev.portsTrain d blk) := by
  unfold Dev.portsTrain
  repeat' (first | with_reducible assumption | with_reducible apply Dev.trainStart_kept | with_reducible apply kept_each | intro _ _ _ | intro _ _ | intro _)

theorem Dev.blockCloses_kept {a d : Dev} (h : Kept a d) (blk : Nat) : Kept a (Dev.blockCloses d blk) := by
  unfold Dev.blockCloses
  try dsimp only
  repeat' (first | with_reducible assumption | with_reducible apply Dev.nbrDown_kept | with_reducible apply kept_each | intro _ _ _ | intro _ _ | intro _ | with_reducible apply kept_ite | split)

theorem Dev.setReset_kept {a d : Dev} (h : Kept a d) (blk : Nat) (r : Option BReset) : Kept a (Dev.setReset d blk r) := by
  unfold Dev.setReset
  try dsimp only
  repeat' (first | with_reducible assumption | intro _ _ _ | intro _ _ | intro _ | simp only [kept_same] | split)

theorem Dev.judgeRepitch_keeps (d : Dev) (c : WCtx) : (Dev.judgeRepitch d c).Keeps := by
  unfold Dev.judgeRepitch
  try dsimp only
  repeat' (first | with_reducible assumption | exact WOut.bad_keeps | exact WOut.none_keeps | exact WOut.unmapped_keeps | with_reducible apply WOut.ok_keeps | with_reducible apply WOut.badEff_keeps | with_reducible apply WOut.group_keeps | with_reducible apply Dev.s_kept | with_reducible apply Dev.sb_kept | with_reducible apply Dev.blockCloses_kept | with_reducible apply Dev.setReset_kept | intro _ _ _ | intro _ _ | intro _ | with_reducible apply kept_ite | split)

theorem Dev.fwtBlockReset_kept {a d : Dev} (h : Kept a d) (blk : Nat) : Kept a (Dev.fwtBlockReset d blk) := by
  unfold Dev.fwtBlockReset
  try dsimp only
  repeat' (first | with_reducible assumption | with_reducible apply Dev.blockCloses_kept | with_reducible apply Dev.setReset_kept | with_reducible apply kept_ite | simp only [kept_same] | split)

theorem Dev.resetBlock_kept {a d : Dev} (h : Kept a d) (blk : Nat) (limit : Bool) : Kept a (Dev.resetBlock d blk limit) := by
  unfold Dev.resetBlock
  try dsimp only
  repeat' (first | with_reducible assumption | with_reducible apply Dev.logEv_kept | with_reducible apply Dev.goneSynth_kept | with_reducible apply Dev.workEnd_kept | with_reducible apply Dev.nextGens_kept | with_reducible apply Dev.restoreState_kept | with_reducible apply Dev.setReset_kept | with_reducible apply kept_ite | simp only [kept_same] | split)

theorem Dev.reopenBlock_kept {a d : Dev} (h : Kept a d) (blk : Nat) : Kept a (Dev.reopenBlock d blk) := by
  unfold Dev.reopenBlock
  try dsimp only
  repeat' (first | with_reducible assumption | with_reducible apply Dev.s_kept | with_reducible apply Dev.sb_kept | with_reducible apply Dev.logEv_kept | with_reducible apply Dev.applyCaptures_kept | with_reducible apply Dev.portsTrain_kept | with_reducible apply Dev.setReset_kept | with_reducible apply Dev.fwtBlockReset_kept | with_reducible apply kept_whenD | intro _ _ _ | intro _ _ | intro _ | with_reducible apply kept_ite | split)

theorem Dev.pdRec_kept {a d : Dev} (h : Kept a d) (k : Nat) (old : Nat) (new : Nat) (cause : Nat) (limit : Bool) (gone : Nat) : Kept a (Dev.pdRec d k old new cause limit gone) := by
  unfold Dev.pdRec
  repeat' (first | with_reducible assumption | with_reducible apply Dev.logEv_kept)

theorem Dev.pdResult_kept {a d : Dev} (h : Kept a d) (r : Nat) (k : Nat) : Kept a (Dev.pdResult d r k) := by
  unfold Dev.pdResult
  repeat' (first | with_reducible assumption | with_reducible apply Dev.s_kept)

theorem Dev.pdPhase_kept {a d : Dev} (h : Kept a d) (ph : Nat) (k : Nat) : Kept a (Dev.pdPhase d ph k) := by
  unfold Dev.pdPhase
  repeat' (first | with_reducible assumption | with_reducible apply Dev.s_kept | with_reducible apply Dev.sb_kept | with_reducible apply Dev.pdResult_kept)

theorem Dev.pdEnds_kept {a d : Dev} (h : Kept a d) (r : Nat) : Kept a (Dev.pdEnds d r) := by
  unfold Dev.pdEnds
  repeat' (first | with_reducible assumption | with_reducible apply Dev.s_kept | with_reducible apply Dev.sb_kept)

theorem Dev.pdClose_kept {a d : Dev} (h : Kept a d) (k : Nat) : Kept a (Dev.pdClose d k) := by
  unfold Dev.pdClose
  try dsimp only
  repeat' (first | with_reducible assumption | with_reducible apply Dev.setPd_kept | with_reducible apply Dev.touch_kept | with_reducible apply Dev.flushLines_kept | with_reducible apply Dev.lsaDue_kept | with_reducible apply Dev.nbrDown_kept | with_reducible apply Dev.pdRec_kept | with_reducible apply Dev.pdPhase_kept | intro _ _ _ | intro _ _ | intro _ | with_reducible apply kept_ite | split)

theorem Dev.pdPowerUp_kept {a d : Dev} (h : Kept a d) (k : Nat) : Kept a (Dev.pdPowerUp d k) := by
  unfold Dev.pdPowerUp
  try dsimp only
  repeat' (first | with_reducible assumption | with_reducible apply Dev.setPd_kept | with_reducible apply Dev.nextGen_kept | with_reducible apply Dev.pdPhase_kept | with_reducible apply kept_ite | split)

theorem Dev.judgePdReq_keeps (d : Dev) (c : WCtx) : (Dev.judgePdReq d c).Keeps := by
  unfold Dev.judgePdReq
  try dsimp only
  repeat' (first | with_reducible assumption | exact WOut.bad_keeps | exact WOut.none_keeps | exact WOut.unmapped_keeps | with_reducible apply WOut.ok_keeps | with_reducible apply WOut.badEff_keeps | with_reducible apply WOut.group_keeps | with_reducible apply Dev.pdResult_kept | with_reducible apply Dev.pdClose_kept | with_reducible apply Dev.pdPowerUp_kept | intro _ _ _ | intro _ _ | intro _ | with_reducible apply kept_ite | split)

theorem Dev.pdDrained_kept {a d : Dev} (h : Kept a d) (limit : Bool) : Kept a (Dev.pdDrained d limit) := by
  unfold Dev.pdDrained
  try dsimp only
  repeat' (first | with_reducible assumption | with_reducible apply Dev.s_kept | with_reducible apply Dev.setPd_kept | with_reducible apply Dev.raise_kept | with_reducible apply Dev.goneSynth_kept | with_reducible apply Dev.workEnd_kept | with_reducible apply Dev.nextGen_kept | with_reducible apply Dev.pdRec_kept | with_reducible apply kept_whenD | intro _ _ _ | intro _ _ | intro _ | with_reducible apply kept_ite | split)

theorem Dev.pdLeaving_kept {a d : Dev} (h : Kept a d) : Kept a (Dev.pdLeaving d) := by
  unfold Dev.pdLeaving
  repeat' (first | with_reducible assumption | with_reducible apply Dev.s_kept | with_reducible apply Dev.setPd_kept | with_reducible apply kept_ite | split)

theorem Dev.setManual_kept {a d : Dev} (h : Kept a d) (k : Nat) (b : Bool) : Kept a (Dev.setManual d k b) := by
  unfold Dev.setManual
  repeat' (first | with_reducible assumption | with_reducible apply Dev.wr_kept)

theorem Dev.spillAuto_kept {a d : Dev} (h : Kept a d) (p : Nat) : Kept a (Dev.spillAuto d p) := by
  unfold Dev.spillAuto
  try dsimp only
  repeat' (first | with_reducible assumption | with_reducible apply Dev.setPd_kept | with_reducible apply Dev.clampDom_kept | with_reducible apply Dev.nextGen_kept | with_reducible apply kept_ite | split)

theorem Dev.pdOffDone_kept {a d : Dev} (h : Kept a d) : Kept a (Dev.pdOffDone d) := by
  unfold Dev.pdOffDone
  try dsimp only
  repeat' (first | with_reducible assumption | with_reducible apply Dev.setPd_kept | with_reducible apply Dev.clampDom_kept | with_reducible apply Dev.pdRec_kept | with_reducible apply Dev.pdEnds_kept | with_reducible apply Dev.setManual_kept | with_reducible apply Dev.spillAuto_kept | with_reducible apply kept_ite | split)

theorem Dev.pdOnDone_kept {a d : Dev} (h : Kept a d) : Kept a (Dev.pdOnDone d) := by
  unfold Dev.pdOnDone
  try dsimp only
  repeat' (first | with_reducible assumption | with_reducible apply Dev.setPd_kept | with_reducible apply Dev.nextGen_kept | with_reducible apply Dev.restoreState_kept | with_reducible apply Dev.portsTrain_kept | with_reducible apply Dev.pdRec_kept | with_reducible apply Dev.pdEnds_kept | with_reducible apply Dev.setManual_kept | with_reducible apply kept_whenD | intro _ _ _ | intro _ _ | intro _ | with_reducible apply kept_ite | split)

theorem Dev.pdTimeout_kept {a d : Dev} (h : Kept a d) : Kept a (Dev.pdTimeout d) := by
  unfold Dev.pdTimeout
  try dsimp only
  repeat' (first | with_reducible assumption | with_reducible apply Dev.takeFree_kept | with_reducible apply Dev.setPd_kept | with_reducible apply Dev.raise_kept | with_reducible apply Dev.pdEnds_kept | with_reducible apply kept_ite | split)

theorem Dev.retainEntry_kept {a d : Dev} (h : Kept a d) (k : Nat) : Kept a (Dev.retainEntry d k) := by
  unfold Dev.retainEntry
  repeat' (first | with_reducible assumption | with_reducible apply Dev.bump_kept | with_reducible apply Dev.setPd_kept | with_reducible apply Dev.clampDom_kept | with_reducible apply kept_ite | split)

theorem Dev.retainWake_kept {a d : Dev} (h : Kept a d) (k : Nat) (crcOk : Bool) : Kept a (Dev.retainWake d k crcOk) := by
  unfold Dev.retainWake
  try dsimp only
  repeat' (first | with_reducible assumption | with_reducible apply Dev.setPd_kept | with_reducible apply Dev.raise_kept | with_reducible apply Dev.restoreState_kept | with_reducible apply kept_ite | split)

theorem Dev.lostRecord_kept {a d : Dev} (h : Kept a d) (k : Nat) : Kept a (Dev.lostRecord d k) := by
  unfold Dev.lostRecord
  try dsimp only
  repeat' (first | with_reducible assumption | with_reducible apply Dev.raise_kept | with_reducible apply Dev.logEv_kept | with_reducible apply kept_ite | simp only [kept_same] | split)

theorem Dev.pwrTrigger_kept {a d : Dev} (h : Kept a d) : Kept a (Dev.pwrTrigger d) := by
  unfold Dev.pwrTrigger
  repeat' (first | with_reducible assumption | with_reducible apply Dev.sb_kept | with_reducible apply Dev.bump_kept | with_reducible apply kept_ite | split)

theorem Dev.toBattery_kept {a d : Dev} (h : Kept a d) : Kept a (Dev.toBattery d) := by
  unfold Dev.toBattery
  try dsimp only
  repeat' (first | with_reducible assumption | with_reducible apply Dev.sb_kept | with_reducible apply Dev.bump_kept | with_reducible apply Dev.wr_kept | with_reducible apply kept_ite | simp only [kept_same] | split)

theorem Dev.toMain_kept {a d : Dev} (h : Kept a d) : Kept a (Dev.toMain d) := by
  unfold Dev.toMain
  try dsimp only
  repeat' (first | with_reducible assumption | with_reducible apply Dev.sb_kept | with_reducible apply Dev.pwrTrigger_kept | with_reducible apply Dev.wr_kept | with_reducible apply kept_whenD | intro _ _ _ | intro _ _ | intro _ | simp only [kept_same])

theorem Dev.switchToBat_kept {a d : Dev} (h : Kept a d) : Kept a (Dev.switchToBat d) := by
  unfold Dev.switchToBat
  repeat' (first | with_reducible assumption | with_reducible apply Dev.toBattery_kept | with_reducible apply kept_ite | simp only [kept_same] | split)

theorem Dev.returnToMain_kept {a d : Dev} (h : Kept a d) : Kept a (Dev.returnToMain d) := by
  unfold Dev.returnToMain
  repeat' (first | with_reducible assumption | with_reducible apply Dev.toMain_kept | with_reducible apply kept_ite | simp only [kept_same] | split)

theorem Dev.railAbsent_kept {a d : Dev} (h : Kept a d) (r : Rail) : Kept a (Dev.railAbsent d r) := by
  unfold Dev.railAbsent
  try dsimp only
  repeat' (first | with_reducible assumption | with_reducible apply Dev.toBattery_kept | with_reducible apply Dev.toMain_kept | with_reducible apply kept_ite | simp only [kept_same] | split)

theorem Dev.freshStart_kept {a d : Dev} (h : Kept a d) (r : Rail) : Kept a (Dev.freshStart d r) := by
  unfold Dev.freshStart
  try dsimp only
  repeat' (first | with_reducible assumption | with_reducible apply Dev.sb_kept | intro _ _ _ | intro _ _ | intro _ | with_reducible apply kept_ite | simp only [kept_ins] | simp only [kept_same] | with_reducible apply kept_filter | split)

theorem Dev.substBits_kept {a d : Dev} (h : Kept a d) : Kept a (Dev.substBits d) := by
  unfold Dev.substBits
  repeat' (first | with_reducible assumption | with_reducible apply Dev.sb_kept)

theorem Dev.crystalLost_kept {a d : Dev} (h : Kept a d) : Kept a (Dev.crystalLost d) := by
  unfold Dev.crystalLost
  try dsimp only
  repeat' (first | with_reducible assumption | with_reducible apply Dev.raiseLvl_kept | with_reducible apply Dev.substBits_kept | with_reducible apply kept_whenD | intro _ _ _ | intro _ _ | intro _ | with_reducible apply kept_ite | simp only [kept_same] | split)

theorem Dev.crystalGood_kept {a d : Dev} (h : Kept a d) : Kept a (Dev.crystalGood d) := by
  unfold Dev.crystalGood
  repeat' (first | with_reducible assumption | simp only [kept_same])

theorem Dev.crystalBack_kept {a d : Dev} (h : Kept a d) : Kept a (Dev.crystalBack d) := by
  unfold Dev.crystalBack
  repeat' (first | with_reducible assumption | with_reducible apply Dev.clearSrc_kept | with_reducible apply Dev.substBits_kept | with_reducible apply kept_ite | simp only [kept_same] | split)

theorem Dev.oscStop_kept {a d : Dev} (h : Kept a d) : Kept a (Dev.oscStop d) := by
  unfold Dev.oscStop
  repeat' (first | with_reducible assumption | with_reducible apply Dev.sb_kept | with_reducible apply kept_ite | simp only [kept_same] | split)

theorem Dev.switchRec_kept {a d : Dev} (h : Kept a d) : Kept a (Dev.switchRec d) := by
  unfold Dev.switchRec
  repeat' (first | with_reducible assumption | with_reducible apply Dev.logEv_kept | simp only [kept_same])

theorem Dev.switchSummary_kept {a d : Dev} (h : Kept a d) : Kept a (Dev.switchSummary d) := by
  unfold Dev.switchSummary
  repeat' (first | with_reducible assumption | with_reducible apply Dev.switchRec_kept | with_reducible apply kept_ite | split)

theorem Dev.setCal_kept {a d : Dev} (h : Kept a d) (c : Cal) : Kept a (Dev.setCal d c) := by
  unfold Dev.setCal
  repeat' (first | with_reducible assumption | with_reducible apply Dev.wr_kept)

theorem Dev.wallTick_kept {a d : Dev} (h : Kept a d) : Kept a (Dev.wallTick d) := by
  unfold Dev.wallTick
  repeat' (first | with_reducible assumption | with_reducible apply Dev.s_kept | with_reducible apply Dev.setCal_kept | with_reducible apply kept_ite | split)

theorem Dev.dstRec_kept {a d : Dev} (h : Kept a d) (flags : Nat) (old : W64) (new : W64) : Kept a (Dev.dstRec d flags old new) := by
  unfold Dev.dstRec
  try dsimp only
  repeat' (first | with_reducible assumption | with_reducible apply Dev.log_kept | with_reducible apply kept_ite | split)

theorem Dev.dstApply_kept {a d : Dev} (h : Kept a d) (add : Bool) (old : W64) : Kept a (Dev.dstApply d add old) := by
  unfold Dev.dstApply
  try dsimp only
  repeat' (first | with_reducible assumption | with_reducible apply Dev.s_kept | with_reducible apply Dev.sb_kept | with_reducible apply Dev.setCal_kept | with_reducible apply Dev.dstRec_kept | with_reducible apply kept_ite | split)

theorem Dev.wallBoundary_kept {a d : Dev} (h : Kept a d) : Kept a (Dev.wallBoundary d) := by
  unfold Dev.wallBoundary
  try dsimp only
  repeat' (first | with_reducible assumption | with_reducible apply Dev.crystalBack_kept | with_reducible apply Dev.wallTick_kept | with_reducible apply Dev.dstApply_kept | with_reducible apply kept_whenD | intro _ _ _ | intro _ _ | intro _ | with_reducible apply kept_ite | split)

theorem Dev.tallyBoundary_kept {a d : Dev} (h : Kept a d) : Kept a (Dev.tallyBoundary d) := by
  unfold Dev.tallyBoundary
  repeat' (first | with_reducible assumption | with_reducible apply Dev.crystalBack_kept | simp only [kept_same])

theorem Dev.secondBoundary_kept {a d : Dev} (h : Kept a d) (c : Clock) : Kept a (Dev.secondBoundary d c) := by
  unfold Dev.secondBoundary
  try dsimp only
  repeat' (first | with_reducible assumption | with_reducible apply Dev.wallBoundary_kept | with_reducible apply Dev.tallyBoundary_kept | with_reducible apply kept_ite | simp only [kept_same] | split)

theorem Dev.windowRoll_kept {a d : Dev} (h : Kept a d) : Kept a (Dev.windowRoll d) := by
  unfold Dev.windowRoll
  repeat' (first | with_reducible assumption | simp only [kept_same])

theorem Dev.windowEnd_kept {a d : Dev} (h : Kept a d) (offset : Nat) : Kept a (Dev.windowEnd d offset) := by
  unfold Dev.windowEnd
  try dsimp only
  repeat' (first | with_reducible assumption | with_reducible apply Dev.s_kept | with_reducible apply Dev.sb_kept | with_reducible apply Dev.windowRoll_kept | with_reducible apply kept_whenD | intro _ _ _ | intro _ _ | intro _)

theorem Dev.windowFull_kept {a d : Dev} (h : Kept a d) : Kept a (Dev.windowFull d) := by
  unfold Dev.windowFull
  try dsimp only
  repeat' (first | with_reducible assumption | with_reducible apply Dev.takeFree_kept | with_reducible apply Dev.windowEnd_kept)

theorem Dev.rawCycle_kept {a d : Dev} (h : Kept a d) : Kept a (Dev.rawCycle d) := by
  unfold Dev.rawCycle
  try dsimp only
  repeat' (first | with_reducible assumption | with_reducible apply Dev.wallBoundary_kept | with_reducible apply Dev.tallyBoundary_kept | with_reducible apply Dev.windowFull_kept | with_reducible apply kept_whenD | intro _ _ _ | intro _ _ | intro _ | with_reducible apply kept_ite | simp only [kept_same] | split)

theorem Dev.emberTick_kept {a d : Dev} (h : Kept a d) : Kept a (Dev.emberTick d) := by
  unfold Dev.emberTick
  try dsimp only
  repeat' (first | with_reducible assumption | with_reducible apply Dev.rawCycle_kept | with_reducible apply kept_ite | simp only [kept_same] | split)

theorem Dev.trimWindow_kept {a d : Dev} (h : Kept a d) (offset : Nat) : Kept a (Dev.trimWindow d offset) := by
  unfold Dev.trimWindow
  repeat' (first | with_reducible assumption | with_reducible apply Dev.windowEnd_kept | with_reducible apply kept_ite | split)

theorem Dev.judgeTrim_keeps (d : Dev) (c : WCtx) : (Dev.judgeTrim d c).Keeps := by
  unfold Dev.judgeTrim
  try dsimp only
  repeat' (first | with_reducible assumption | exact WOut.bad_keeps | exact WOut.none_keeps | exact WOut.unmapped_keeps | with_reducible apply WOut.ok_keeps | with_reducible apply WOut.badEff_keeps | with_reducible apply WOut.group_keeps | with_reducible apply Dev.judgeTable_keeps | intro _ _ _ | intro _ _ | intro _ | with_reducible apply kept_ite | (refine WOut.of_ok (Dev.judgeTable_keeps _ _) ‹_› ?_) | split | (subst_vars; first | with_reducible assumption | with_reducible apply Dev.judgeTable_keeps))

theorem Dev.endFreeze_kept {a d : Dev} (h : Kept a d) (r : Nat) : Kept a (Dev.endFreeze d r) := by
  unfold Dev.endFreeze
  repeat' (first | with_reducible assumption | simp only [kept_same])

theorem Dev.wallApply_kept {a d : Dev} (h : Kept a d) (boundary : Bool) : Kept a (Dev.wallApply d boundary) := by
  unfold Dev.wallApply
  try dsimp only
  repeat' (first | with_reducible assumption | with_reducible apply Dev.sb_kept | with_reducible apply Dev.log_kept | with_reducible apply Dev.secondBoundary_kept | with_reducible apply Dev.wr_kept | with_reducible apply kept_whenD | intro _ _ _ | intro _ _ | intro _ | with_reducible apply kept_ite | simp only [kept_same] | split)

theorem Dev.judgeWall_keeps (d : Dev) (reg : WallReg) (be : BitVec 8) (c : WCtx) : (Dev.judgeWall d reg be c).Keeps := by
  unfold Dev.judgeWall
  try dsimp only
  repeat' (first | with_reducible assumption | exact WOut.bad_keeps | exact WOut.none_keeps | exact WOut.unmapped_keeps | with_reducible apply WOut.ok_keeps | with_reducible apply WOut.badEff_keeps | with_reducible apply WOut.group_keeps | with_reducible apply Dev.holdRefuse_kept | with_reducible apply Dev.judgeRow_keeps | with_reducible apply Dev.wallApply_kept | with_reducible apply Dev.wr_kept | intro _ _ _ | intro _ _ | intro _ | with_reducible apply kept_ite | simp only [kept_same] | (refine WOut.of_ok (Dev.judgeRow_keeps _ _ _ _ _) ‹_› ?_) | split | (subst_vars; first | with_reducible assumption | with_reducible apply Dev.holdRefuse_kept | with_reducible apply Dev.judgeRow_keeps | with_reducible apply Dev.wallApply_kept | with_reducible apply Dev.wr_kept))

theorem Dev.judgeWctl_keeps (d : Dev) (c : WCtx) : (Dev.judgeWctl d c).Keeps := by
  unfold Dev.judgeWctl
  try dsimp only
  repeat' (first | with_reducible assumption | exact WOut.bad_keeps | exact WOut.none_keeps | exact WOut.unmapped_keeps | with_reducible apply WOut.ok_keeps | with_reducible apply WOut.badEff_keeps | with_reducible apply WOut.group_keeps | with_reducible apply Dev.sb_kept | with_reducible apply Dev.judgeTable_keeps | with_reducible apply Dev.wr_kept | intro _ _ _ | intro _ _ | intro _ | with_reducible apply kept_ite | simp only [kept_same] | (refine WOut.of_ok (Dev.judgeTable_keeps _ _) ‹_› ?_) | split | (subst_vars; first | with_reducible assumption | with_reducible apply Dev.sb_kept | with_reducible apply Dev.judgeTable_keeps | with_reducible apply Dev.wr_kept))

theorem Dev.judgeDst_keeps (d : Dev) (c : WCtx) : (Dev.judgeDst d c).Keeps := by
  unfold Dev.judgeDst
  try dsimp only
  repeat' (first | with_reducible assumption | exact WOut.bad_keeps | exact WOut.none_keeps | exact WOut.unmapped_keeps | with_reducible apply WOut.ok_keeps | with_reducible apply WOut.badEff_keeps | with_reducible apply WOut.group_keeps | with_reducible apply Dev.s_kept | with_reducible apply Dev.sb_kept | with_reducible apply Dev.holdRefuse_kept | with_reducible apply Dev.dstApply_kept | with_reducible apply kept_id | intro _ _ _ | intro _ _ | intro _ | with_reducible apply kept_ite | split)

theorem Dev.capture8_kept {a d : Dev} (h : Kept a d) (r : Nat) (byLo : Bool) : Kept a (Dev.capture8 d r byLo) := by
  unfold Dev.capture8
  repeat' (first | with_reducible assumption | simp only [kept_same])

theorem Dev.frozen_kept {a d : Dev} (h : Kept a d) (r : Nat) (byLo : Bool) : Kept a (Dev.frozen d r byLo) := by
  unfold Dev.frozen
  repeat' (first | with_reducible assumption | with_reducible apply Dev.capture8_kept | with_reducible apply kept_ite | split)

theorem Dev.timeRead_kept {a d : Dev} (h : Kept a d) (r : Nat) (i : Nat) : Kept a (Dev.timeRead d r i).1 := by
  unfold Dev.timeRead
  try dsimp only
  repeat' (first | with_reducible assumption | with_reducible apply Dev.endFreeze_kept | with_reducible apply Dev.frozen_kept | with_reducible apply kept_ite | split)

theorem Dev.freezeLapses_kept {a d : Dev} (h : Kept a d) (r : Nat) : Kept a (Dev.freezeLapses d r) := by
  unfold Dev.freezeLapses
  repeat' (first | with_reducible assumption | with_reducible apply Dev.sb_kept | with_reducible apply Dev.endFreeze_kept | with_reducible apply kept_ite | split)

theorem Dev.holdBroken_kept {a d : Dev} (h : Kept a d) : Kept a (Dev.holdBroken d) := by
  unfold Dev.holdBroken
  repeat' (first | with_reducible assumption | with_reducible apply Dev.setBkp_kept | with_reducible apply Dev.setBkpW_kept | with_reducible apply kept_ite | split)

theorem Dev.judgeWake_keeps (d : Dev) (c : WCtx) : (Dev.judgeWake d c).Keeps := by
  unfold Dev.judgeWake
  try dsimp only
  repeat' (first | with_reducible assumption | exact WOut.bad_keeps | exact WOut.none_keeps | exact WOut.unmapped_keeps | with_reducible apply WOut.ok_keeps | with_reducible apply WOut.badEff_keeps | with_reducible apply WOut.group_keeps | with_reducible apply Dev.judgeTable_keeps | intro _ _ _ | intro _ _ | intro _ | with_reducible apply kept_ite | (refine WOut.of_ok (Dev.judgeTable_keeps _ _) ‹_› ?_) | split | (subst_vars; first | with_reducible assumption | with_reducible apply Dev.judgeTable_keeps))

theorem Dev.wakeExpires_kept {a d : Dev} (h : Kept a d) : Kept a (Dev.wakeExpires d) := by
  unfold Dev.wakeExpires
  try dsimp only
  repeat' (first | with_reducible assumption | with_reducible apply Dev.sb_kept | with_reducible apply Dev.bump_kept | with_reducible apply Dev.licPulse_kept | with_reducible apply Dev.pwrTrigger_kept | with_reducible apply kept_whenD | intro _ _ _ | intro _ _ | intro _ | with_reducible apply kept_ite | split)

theorem Dev.pulseEnds_kept {a d : Dev} (h : Kept a d) : Kept a (Dev.pulseEnds d) := by
  unfold Dev.pulseEnds
  repeat' (first | with_reducible assumption | with_reducible apply Dev.sb_kept)

end Sys2Proof.Machine
end

