-- ==== Sys2Proof/Laws/KeptPitch.lean ====
section
/-! SUPPORT. `Kept` over the pitch, resumption and the twin engine: one lemma per function. -/
namespace Sys2Proof.Machine

theorem Dev.toStep_kept {a d : Dev} (h : Kept a d) (n : Nat) : Kept a (Dev.toStep d n) := by
  unfold Dev.toStep
  repeat' (first | with_reducible assumption | with_reducible apply Dev.s_kept)

theorem Dev.abandonWork_kept {a d : Dev} (h : Kept a d) : Kept a (Dev.abandonWork d) := by
  unfold Dev.abandonWork
  try dsimp only
  repeat' (first | with_reducible assumption | with_reducible apply Dev.s_kept | with_reducible apply Dev.sb_kept | with_reducible apply Dev.logEv_kept | with_reducible apply Dev.workEnd_kept | with_reducible apply Dev.pdEnds_kept | with_reducible apply kept_each | intro _ _ _ | intro _ _ | intro _ | with_reducible apply kept_ite | simp only [kept_same] | split)

theorem Dev.embPitch_kept {a d : Dev} (h : Kept a d) : Kept a (Dev.embPitch d) := by
  unfold Dev.embPitch
  try dsimp only
  repeat' (first | with_reducible assumption | with_reducible apply Dev.s_kept | with_reducible apply Dev.sb_kept | with_reducible apply Dev.substBits_kept | with_reducible apply Dev.wr_kept | simp only [kept_same])

theorem Dev.pitchClear_kept {a d : Dev} (h : Kept a d) : Kept a (Dev.pitchClear d) := by
  exact ⟨h.serial, h.now, h.free, h.out, fun x => SMap.filter_wf _ (h.regs x), h.mem⟩

theorem Dev.embFound_kept {a d : Dev} (h : Kept a d) : Kept a (Dev.embFound d) := by
  unfold Dev.embFound
  try dsimp only
  repeat' (first | with_reducible assumption | with_reducible apply Dev.raise_kept | with_reducible apply Dev.missRec_kept | with_reducible apply Dev.logEv_kept | with_reducible apply Dev.switchRec_kept | with_reducible apply kept_each | with_reducible apply kept_whenD | intro _ _ _ | intro _ _ | intro _ | simp only [kept_same])

theorem Dev.lostClocks_kept {a d : Dev} (h : Kept a d) : Kept a (Dev.lostClocks d) := by
  unfold Dev.lostClocks
  try dsimp only
  repeat' (first | with_reducible assumption | with_reducible apply Dev.raise_kept | with_reducible apply Dev.raiseLvl_kept | with_reducible apply kept_whenD | intro _ _ _ | intro _ _ | intro _)

theorem Dev.pitchStart_kept {a d : Dev} (h : Kept a d) (trigger : Nat) (resetSeal : Bool) : Kept a (Dev.pitchStart d trigger resetSeal) := by
  unfold Dev.pitchStart
  try dsimp only
  repeat' (first | with_reducible assumption | with_reducible apply Dev.s_kept | with_reducible apply Dev.sb_kept | with_reducible apply Dev.setBkp_kept | with_reducible apply Dev.setBkpW_kept | with_reducible apply Dev.stamp_kept | with_reducible apply Dev.raise_kept | with_reducible apply Dev.toStep_kept | with_reducible apply Dev.abandonWork_kept | with_reducible apply Dev.embPitch_kept | with_reducible apply Dev.pitchClear_kept | with_reducible apply Dev.embFound_kept | with_reducible apply Dev.lostClocks_kept | with_reducible apply Dev.wr_kept | with_reducible apply kept_whenD | intro _ _ _ | intro _ _ | intro _ | simp only [kept_same])

theorem Dev.pitchSwitched_kept {a d : Dev} (h : Kept a d) : Kept a (Dev.pitchSwitched d) := by
  unfold Dev.pitchSwitched
  try dsimp only
  repeat' (first | with_reducible assumption | with_reducible apply Dev.pdRec_kept | with_reducible apply kept_each | intro _ _ _ | intro _ _ | intro _ | with_reducible apply kept_ite | simp only [kept_same] | split)

theorem Dev.pitchDomains_kept {a d : Dev} (h : Kept a d) : Kept a (Dev.pitchDomains d) := by
  unfold Dev.pitchDomains
  try dsimp only
  repeat' (first | with_reducible assumption | with_reducible apply Dev.setPd_kept | with_reducible apply Dev.pitchSwitched_kept | with_reducible apply kept_each | with_reducible apply kept_whenD | intro _ _ _ | intro _ _ | intro _ | with_reducible apply kept_ite | split)

theorem Dev.profileLatched_kept {a d : Dev} (h : Kept a d) : Kept a (Dev.profileLatched d) := by
  unfold Dev.profileLatched
  try dsimp only
  repeat' (first | with_reducible assumption | with_reducible apply Dev.s_kept | with_reducible apply kept_ite | split)

theorem Dev.twinBegins_kept {a d : Dev} (h : Kept a d) : Kept a (Dev.twinBegins d) := by
  unfold Dev.twinBegins
  try dsimp only
  repeat' (first | with_reducible assumption | with_reducible apply Dev.s_kept | with_reducible apply kept_ite | simp only [kept_same] | split)

theorem Dev.strapsDone_kept {a d : Dev} (h : Kept a d) (x : StrapSamples) : Kept a (Dev.strapsDone d x) := by
  unfold Dev.strapsDone
  repeat' (first | with_reducible assumption | with_reducible apply Dev.stamp_kept | with_reducible apply Dev.latchStraps_kept | with_reducible apply Dev.strapsToEmber_kept | with_reducible apply Dev.toStep_kept | with_reducible apply Dev.pitchDomains_kept | with_reducible apply Dev.profileLatched_kept | with_reducible apply Dev.twinBegins_kept | with_reducible apply kept_ite | split)

theorem Dev.goLimited_kept {a d : Dev} (h : Kept a d) : Kept a (Dev.goLimited d) := by
  unfold Dev.goLimited
  try dsimp only
  repeat' (first | with_reducible assumption | with_reducible apply Dev.sb_kept | with_reducible apply Dev.setBkp_kept | with_reducible apply kept_ite | split)

theorem Dev.pllLocked_kept {a d : Dev} (h : Kept a d) (ohms : Nat) : Kept a (Dev.pllLocked d ohms) := by
  unfold Dev.pllLocked
  try dsimp only
  repeat' (first | with_reducible assumption | with_reducible apply Dev.stamp_kept | with_reducible apply Dev.trainStart_kept | with_reducible apply Dev.calPitch_kept | with_reducible apply Dev.toStep_kept | with_reducible apply Dev.goLimited_kept | with_reducible apply kept_each | intro _ _ _ | intro _ _ | intro _ | with_reducible apply kept_ite | split)

theorem Dev.storeFails_kept {a d : Dev} (h : Kept a d) : Kept a (Dev.storeFails d) := by
  unfold Dev.storeFails
  try dsimp only
  repeat' (first | with_reducible assumption | with_reducible apply Dev.s_kept | with_reducible apply Dev.raise_kept | with_reducible apply Dev.toIdle_kept | with_reducible apply Dev.goLimited_kept | with_reducible apply kept_each | intro _ _ _ | intro _ _ | intro _ | with_reducible apply kept_ite | split)

theorem Dev.goCold_kept {a d : Dev} (h : Kept a d) (reason : Nat) : Kept a (Dev.goCold d reason) := by
  unfold Dev.goCold
  try dsimp only
  repeat' (first | with_reducible assumption | with_reducible apply Dev.s_kept | with_reducible apply Dev.sb_kept | with_reducible apply Dev.setBkp_kept | with_reducible apply Dev.raise_kept | with_reducible apply kept_whenD | intro _ _ _ | intro _ _ | intro _)

theorem Dev.readSeals_kept {a d : Dev} (h : Kept a d) (badA : Bool) (badB : Bool) : Kept a (Dev.readSeals d badA badB) := by
  unfold Dev.readSeals
  try dsimp only
  repeat' (first | with_reducible assumption | with_reducible apply Dev.sealCopies_kept | simp only [kept_same])

theorem Dev.showSeal_kept {a d : Dev} (h : Kept a d) : Kept a (Dev.showSeal d) := by
  unfold Dev.showSeal
  try dsimp only
  repeat' (first | with_reducible assumption | with_reducible apply Dev.wr_kept | split)

theorem Dev.storeUp_kept {a d : Dev} (h : Kept a d) (badA : Bool) (badB : Bool) : Kept a (Dev.storeUp d badA badB) := by
  unfold Dev.storeUp
  try dsimp only
  repeat' (first | with_reducible assumption | with_reducible apply Dev.s_kept | with_reducible apply Dev.sb_kept | with_reducible apply Dev.stamp_kept | with_reducible apply Dev.toStep_kept | with_reducible apply Dev.goCold_kept | with_reducible apply Dev.readSeals_kept | with_reducible apply Dev.showSeal_kept | with_reducible apply kept_ite | simp only [kept_ins] | simp only [kept_same] | split)

theorem Dev.clearTables_kept {a d : Dev} (h : Kept a d) : Kept a (Dev.clearTables d) := by
  exact ⟨h.serial, h.now, h.free, h.out, h.regs, fun _ => rfl⟩

theorem Dev.ringStart_kept {a d : Dev} (h : Kept a d) (keep : Bool) : Kept a (Dev.ringStart d keep) := by
  unfold Dev.ringStart
  try dsimp only
  repeat' (first | with_reducible assumption | with_reducible apply Dev.wr_kept | with_reducible apply kept_ite | simp only [kept_same] | split)

theorem Dev.startLog_kept {a d : Dev} (h : Kept a d) : Kept a (Dev.startLog d) := by
  unfold Dev.startLog
  try dsimp only
  repeat' (first | with_reducible assumption | with_reducible apply Dev.sb_kept | with_reducible apply Dev.stamp_kept | with_reducible apply Dev.stageRec_kept | with_reducible apply Dev.missRec_kept | with_reducible apply Dev.missedRec_kept | with_reducible apply Dev.log_kept | with_reducible apply Dev.tryOpen_kept | with_reducible apply Dev.strapRecords_kept | with_reducible apply Dev.toStep_kept | with_reducible apply kept_each | intro _ _ _ | intro _ _ | intro _ | with_reducible apply kept_ite | simp only [kept_same] | split)

theorem Dev.coldDone_kept {a d : Dev} (h : Kept a d) (pagesOk : Bool) : Kept a (Dev.coldDone d pagesOk) := by
  unfold Dev.coldDone
  try dsimp only
  repeat' (first | with_reducible assumption | with_reducible apply Dev.stamp_kept | with_reducible apply Dev.raise_kept | with_reducible apply Dev.logHeader_kept | with_reducible apply Dev.clearTables_kept | with_reducible apply Dev.ringStart_kept | with_reducible apply Dev.startLog_kept | with_reducible apply kept_whenD | intro _ _ _ | intro _ _ | intro _ | with_reducible apply kept_ite | simp only [kept_same] | split)

theorem Dev.suspendAll_kept {a d : Dev} (h : Kept a d) : Kept a (Dev.suspendAll d) := by
  unfold Dev.suspendAll
  try dsimp only
  repeat' (first | with_reducible assumption | with_reducible apply Dev.is_kept | with_reducible apply kept_each | intro _ _ _ | intro _ _ | intro _)

theorem Dev.ratesNow_kept {a d : Dev} (h : Kept a d) : Kept a (Dev.ratesNow d) := by
  unfold Dev.ratesNow
  try dsimp only
  repeat' (first | with_reducible assumption | with_reducible apply kept_foldl | with_reducible apply kept_foldl_fst | with_reducible apply kept_foldl_snd | intro _ _ _ | intro _ _ | intro _ | with_reducible apply kept_ite | simp only [kept_same] | split)

theorem Dev.imageBack_kept {a d : Dev} (h : Kept a d) : Kept a (Dev.imageBack d) := by
  unfold Dev.imageBack
  try dsimp only
  repeat' (first | with_reducible assumption | with_reducible apply Dev.sb_kept | with_reducible apply Dev.ratesNow_kept | with_reducible apply Dev.wr_kept | with_reducible apply kept_each | intro _ _ _ | intro _ _ | intro _ | with_reducible apply kept_ite | simp only [kept_same] | split)

theorem Dev.twinWarm_kept {a d : Dev} (h : Kept a d) (s : Seal) : Kept a (Dev.twinWarm d s) := by
  unfold Dev.twinWarm
  try dsimp only
  repeat' (first | with_reducible assumption | with_reducible apply Dev.unset_kept | with_reducible apply Dev.sb_kept | with_reducible apply kept_ite | simp only [kept_same] | split)

theorem Dev.holdsWarm_kept {a d : Dev} (h : Kept a d) : Kept a (Dev.holdsWarm d) := by
  unfold Dev.holdsWarm
  try dsimp only
  repeat' (first | with_reducible assumption | with_reducible apply Dev.breakHold_kept | with_reducible apply kept_each | intro _ _ _ | intro _ _ | intro _ | simp only [kept_same])

theorem Dev.warmMeets_kept {a d : Dev} (h : Kept a d) (r : WarmReads) : Kept a (Dev.warmMeets d r) := by
  unfold Dev.warmMeets
  try dsimp only
  repeat' (first | with_reducible assumption | with_reducible apply Dev.raise_kept | with_reducible apply Dev.ueMet_kept | with_reducible apply Dev.crcHeld_kept | with_reducible apply Dev.descCopies_kept | with_reducible apply kept_each | with_reducible apply kept_whenD | intro _ _ _ | intro _ _ | intro _ | with_reducible apply kept_ite | split)

theorem Dev.warmDone_kept {a d : Dev} (h : Kept a d) (r : WarmReads) : Kept a (Dev.warmDone d r) := by
  unfold Dev.warmDone
  try dsimp only
  repeat' (first | with_reducible assumption | with_reducible apply Dev.setBkp_kept | with_reducible apply Dev.stamp_kept | with_reducible apply Dev.logHeader_kept | with_reducible apply Dev.goCold_kept | with_reducible apply Dev.ringStart_kept | with_reducible apply Dev.startLog_kept | with_reducible apply Dev.suspendAll_kept | with_reducible apply Dev.imageBack_kept | with_reducible apply Dev.twinWarm_kept | with_reducible apply Dev.holdsWarm_kept | with_reducible apply Dev.warmMeets_kept | with_reducible apply kept_ite | split)

theorem Dev.configReady_kept {a d : Dev} (h : Kept a d) : Kept a (Dev.configReady d) := by
  unfold Dev.configReady
  try dsimp only
  repeat' (first | with_reducible assumption | with_reducible apply Dev.sb_kept | with_reducible apply Dev.stamp_kept | with_reducible apply Dev.toStep_kept | with_reducible apply kept_whenD | intro _ _ _ | intro _ _ | intro _ | with_reducible apply kept_ite | simp only [kept_same] | split)

theorem Dev.pitchDone_kept {a d : Dev} (h : Kept a d) (late : Bool) : Kept a (Dev.pitchDone d late) := by
  unfold Dev.pitchDone
  try dsimp only
  repeat' (first | with_reducible assumption | with_reducible apply Dev.s_kept | with_reducible apply Dev.sb_kept | with_reducible apply Dev.stamp_kept | with_reducible apply Dev.licPulse_kept | with_reducible apply Dev.tryOpen_kept | with_reducible apply Dev.toStep_kept | with_reducible apply kept_each | intro _ _ _ | intro _ _ | intro _ | with_reducible apply kept_ite | split)

theorem Dev.pitchHook_kept {a d : Dev} (h : Kept a d) : Kept a (Dev.pitchHook d) := by
  unfold Dev.pitchHook
  repeat' (first | with_reducible assumption | with_reducible apply Dev.sb_kept | with_reducible apply Dev.stamp_kept | with_reducible apply Dev.pitchDone_kept | with_reducible apply kept_ite | split)

theorem Dev.joinLate_kept {a d : Dev} (h : Kept a d) : Kept a (Dev.joinLate d) := by
  unfold Dev.joinLate
  repeat' (first | with_reducible assumption | with_reducible apply Dev.raise_kept | with_reducible apply Dev.pitchDone_kept | with_reducible apply kept_ite | split)

theorem Dev.judgeToken_keeps (_d : Dev) (token : W64) (c : WCtx) : (Dev.judgeToken _d token c).Keeps := by
  unfold Dev.judgeToken
  try dsimp only
  repeat' (first | with_reducible assumption | exact WOut.bad_keeps | exact WOut.none_keeps | exact WOut.unmapped_keeps | with_reducible apply WOut.ok_keeps | with_reducible apply WOut.badEff_keeps | with_reducible apply WOut.group_keeps | with_reducible apply Dev.sb_kept | intro _ _ _ | intro _ _ | intro _ | with_reducible apply kept_ite | simp only [kept_same] | split)

theorem Dev.endsSuspension_kept {a d : Dev} (h : Kept a d) (state : Nat) (cause : Nat) : Kept a (Dev.endsSuspension d state cause) := by
  unfold Dev.endsSuspension
  repeat' (first | with_reducible assumption | with_reducible apply Dev.s_kept | simp only [kept_same])

theorem Dev.judgeResume_keeps (d : Dev) (c : WCtx) : (Dev.judgeResume d c).Keeps := by
  unfold Dev.judgeResume
  try dsimp only
  repeat' (first | with_reducible assumption | exact WOut.bad_keeps | exact WOut.none_keeps | exact WOut.unmapped_keeps | with_reducible apply WOut.ok_keeps | with_reducible apply WOut.badEff_keeps | with_reducible apply WOut.group_keeps | with_reducible apply Dev.endsSuspension_kept | intro _ _ _ | intro _ _ | intro _ | with_reducible apply kept_ite | split)

theorem Dev.judgeDiscard_keeps (d : Dev) (c : WCtx) : (Dev.judgeDiscard d c).Keeps := by
  unfold Dev.judgeDiscard
  try dsimp only
  repeat' (first | with_reducible assumption | exact WOut.bad_keeps | exact WOut.none_keeps | exact WOut.unmapped_keeps | with_reducible apply WOut.ok_keeps | with_reducible apply WOut.badEff_keeps | with_reducible apply WOut.group_keeps | with_reducible apply Dev.endsSuspension_kept | with_reducible apply kept_id | intro _ _ _ | intro _ _ | intro _ | with_reducible apply kept_ite | split)

theorem Dev.step14_kept {a d : Dev} (h : Kept a d) (state : Nat) (resumed : Nat) : Kept a (Dev.step14 d state resumed) := by
  unfold Dev.step14
  try dsimp only
  repeat' (first | with_reducible assumption | with_reducible apply Dev.s_kept | with_reducible apply Dev.sb_kept | with_reducible apply Dev.licPulse_kept | with_reducible apply Dev.logEv_kept)

theorem Dev.resumeDone_kept {a d : Dev} (h : Kept a d) : Kept a (Dev.resumeDone d) := by
  unfold Dev.resumeDone
  try dsimp only
  repeat' (first | with_reducible assumption | with_reducible apply Dev.s_kept | with_reducible apply Dev.sb_kept | with_reducible apply Dev.is_kept | with_reducible apply Dev.step14_kept | with_reducible apply kept_each | intro _ _ _ | intro _ _ | intro _ | with_reducible apply kept_ite | split)

theorem Dev.tagsInit_kept {a d : Dev} (h : Kept a d) : Kept a (Dev.tagsInit d) := by
  unfold Dev.tagsInit
  try dsimp only
  repeat' (first | with_reducible assumption | with_reducible apply Dev.respond_kept | with_reducible apply Dev.endOps_kept | with_reducible apply Dev.freeLocalTag_kept | with_reducible apply Dev.endTags_kept | with_reducible apply Dev.deliver_kept | with_reducible apply Dev.goneSynth_kept | with_reducible apply kept_each | intro _ _ _ | intro _ _ | intro _ | split)

theorem Dev.discardDone_kept {a d : Dev} (h : Kept a d) : Kept a (Dev.discardDone d) := by
  unfold Dev.discardDone
  try dsimp only
  repeat' (first | with_reducible assumption | with_reducible apply Dev.sb_kept | with_reducible apply Dev.raise_kept | with_reducible apply Dev.clearTables_kept | with_reducible apply Dev.ratesNow_kept | with_reducible apply Dev.step14_kept | with_reducible apply Dev.tagsInit_kept | with_reducible apply Dev.wr_kept | intro _ _ _ | intro _ _ | intro _ | with_reducible apply kept_ite | simp only [kept_same] | with_reducible apply kept_filter | split)

theorem Dev.shadowSend_kept {a d : Dev} (h : Kept a d) (b : List Byte) : Kept a (Dev.shadowSend d b) := by
  unfold Dev.shadowSend
  repeat' (first | with_reducible assumption | with_reducible apply Dev.enqueue_kept)

theorem Dev.shadowTake_kept {a d : Dev} (h : Kept a d) (b : List Byte) : Kept a (Dev.shadowTake d b) := by
  unfold Dev.shadowTake
  repeat' (first | with_reducible assumption | with_reducible apply Dev.consumeRaw_kept)

theorem Dev.shadowUndef_kept {a d : Dev} (h : Kept a d) : Kept a (Dev.shadowUndef d) := by
  unfold Dev.shadowUndef
  repeat' (first | with_reducible assumption | with_reducible apply Dev.bump_kept | with_reducible apply Dev.raise_kept)

theorem Dev.twinHeard_kept {a d : Dev} (h : Kept a d) : Kept a (Dev.twinHeard d) := by
  unfold Dev.twinHeard
  try dsimp only
  repeat' (first | with_reducible assumption | with_reducible apply Dev.takeFree_kept | with_reducible apply Dev.sb_kept | with_reducible apply Dev.setRole_kept | with_reducible apply kept_ite | simp only [kept_same] | split)

theorem Dev.shadowUnits_kept {a d : Dev} (h : Kept a d) (old : Dev) : Kept a (Dev.shadowUnits d old) := by
  unfold Dev.shadowUnits
  try dsimp only
  repeat' (first | with_reducible assumption | with_reducible apply kept_ite | simp only [kept_same] | split)

theorem Dev.closeEpoch_kept {a d : Dev} (h : Kept a d) : Kept a (Dev.closeEpoch d) := by
  unfold Dev.closeEpoch
  try dsimp only
  repeat' (first | with_reducible assumption | with_reducible apply Dev.raise_kept | with_reducible apply Dev.reform_kept | with_reducible apply Dev.shadowSend_kept | with_reducible apply Dev.wr_kept | with_reducible apply kept_each | with_reducible apply kept_whenD | intro _ _ _ | intro _ _ | intro _ | with_reducible apply kept_ite | simp only [kept_same] | split)

theorem Dev.epochFull_kept {a d : Dev} (h : Kept a d) : Kept a (Dev.epochFull d) := by
  unfold Dev.epochFull
  try dsimp only
  repeat' (first | with_reducible assumption | with_reducible apply Dev.closeEpoch_kept | with_reducible apply kept_ite | split)

theorem Dev.openEpoch0_kept {a d : Dev} (h : Kept a d) : Kept a (Dev.openEpoch0 d) := by
  unfold Dev.openEpoch0
  repeat' (first | with_reducible assumption | with_reducible apply kept_ite | simp only [kept_same] | split)

theorem Dev.shadowAck_kept {a d : Dev} (h : Kept a d) (version : BitVec 8) (epoch : W64) (rejected : Bool) : Kept a (Dev.shadowAck d version epoch rejected) := by
  unfold Dev.shadowAck
  try dsimp only
  repeat' (first | with_reducible assumption | with_reducible apply Dev.sb_kept | with_reducible apply Dev.bump_kept | with_reducible apply Dev.logEv_kept | with_reducible apply Dev.reform_kept | with_reducible apply Dev.shadowTake_kept | with_reducible apply Dev.shadowUndef_kept | with_reducible apply Dev.twinHeard_kept | with_reducible apply Dev.wr_kept | intro _ _ _ | intro _ _ | intro _ | with_reducible apply kept_ite | simp only [kept_same] | split)

theorem Dev.epochBad_kept {a d : Dev} (h : Kept a d) (epoch : W64) : Kept a (Dev.epochBad d epoch) := by
  unfold Dev.epochBad
  repeat' (first | with_reducible assumption | with_reducible apply Dev.bump_kept | with_reducible apply Dev.raise_kept | with_reducible apply Dev.reform_kept | with_reducible apply Dev.shadowSend_kept)

theorem Dev.shadowDelta_kept {a d : Dev} (h : Kept a d) (version : BitVec 8) (epoch : W64) (es : List DeltaEnt) : Kept a (Dev.shadowDelta d version epoch es) := by
  unfold Dev.shadowDelta
  try dsimp only
  repeat' (first | with_reducible assumption | with_reducible apply Dev.stoMove_kept | with_reducible apply Dev.shadowTake_kept | with_reducible apply Dev.shadowUndef_kept | with_reducible apply Dev.twinHeard_kept | with_reducible apply Dev.epochBad_kept | with_reducible apply kept_ite | simp only [kept_same] | split)

theorem Dev.applyDesc_kept {a d : Dev} (h : Kept a d) (o : Nat) (ws : List W64) : Kept a (Dev.applyDesc d o ws) := by
  unfold Dev.applyDesc
  try dsimp only
  repeat' (first | with_reducible assumption | with_reducible apply kept_ite | simp only [kept_ins] | split)

theorem Dev.applyUnit_kept {a d : Dev} (h : Kept a d) (a_ : Nat) (ws : List W64) : Kept a (Dev.applyUnit d a_ ws) := by
  unfold Dev.applyUnit
  try dsimp only
  repeat' (first | with_reducible assumption | with_reducible apply Dev.memStore_kept | with_reducible apply Dev.applyDesc_kept | with_reducible apply kept_foldl | with_reducible apply kept_foldl_fst | with_reducible apply kept_foldl_snd | intro _ _ _ | intro _ _ | intro _ | with_reducible apply kept_ite | simp only [kept_ins] | simp only [kept_same] | split)

theorem Dev.applyRecord_kept {a d : Dev} (h : Kept a d) (seq : Nat) (ws : List W64) : Kept a (Dev.applyRecord d seq ws) := by
  unfold Dev.applyRecord
  try dsimp only
  repeat' (first | with_reducible assumption | with_reducible apply Dev.wr_kept | with_reducible apply kept_whenD | intro _ _ _ | intro _ _ | intro _ | with_reducible apply kept_ite | simp only [kept_same] | split)

theorem Dev.applyEpoch_kept {a d : Dev} (h : Kept a d) (e : Epoch) : Kept a (Dev.applyEpoch d e) := by
  unfold Dev.applyEpoch
  try dsimp only
  repeat' (first | with_reducible assumption | with_reducible apply Dev.sb_kept | with_reducible apply Dev.bump_kept | with_reducible apply Dev.applyUnit_kept | with_reducible apply Dev.applyRecord_kept | with_reducible apply Dev.wr_kept | with_reducible apply kept_each | intro _ _ _ | intro _ _ | intro _ | with_reducible apply kept_ite | simp only [kept_same] | split)

theorem Dev.shadowCommit_kept {a d : Dev} (h : Kept a d) (c : TwinCommit) : Kept a (Dev.shadowCommit d c) := by
  unfold Dev.shadowCommit
  try dsimp only
  repeat' (first | with_reducible assumption | with_reducible apply Dev.shadowSend_kept | with_reducible apply Dev.shadowTake_kept | with_reducible apply Dev.shadowUndef_kept | with_reducible apply Dev.twinHeard_kept | with_reducible apply Dev.epochBad_kept | with_reducible apply Dev.applyEpoch_kept | with_reducible apply kept_ite | simp only [kept_same] | split)

theorem Dev.twinAsk_kept {a d : Dev} (h : Kept a d) (op : Nat) (w : Addr) : Kept a (Dev.twinAsk d op w) := by
  unfold Dev.twinAsk
  try dsimp only
  repeat' (first | with_reducible assumption | with_reducible apply Dev.submit_kept | with_reducible apply kept_ite | simp only [kept_same] | split)

theorem Dev.askHold_kept {a d : Dev} (h : Kept a d) : Kept a (Dev.askHold d) := by
  unfold Dev.askHold
  try dsimp only
  repeat' (first | with_reducible assumption | with_reducible apply Dev.twinAsk_kept | with_reducible apply kept_ite | split)

theorem Dev.twinRenew_kept {a d : Dev} (h : Kept a d) : Kept a (Dev.twinRenew d) := by
  unfold Dev.twinRenew
  try dsimp only
  repeat' (first | with_reducible assumption | with_reducible apply Dev.twinAsk_kept | with_reducible apply Dev.askHold_kept | with_reducible apply kept_ite | split)

theorem Dev.leaseHeld_kept {a d : Dev} (h : Kept a d) : Kept a (Dev.leaseHeld d) := by
  unfold Dev.leaseHeld
  try dsimp only
  repeat' (first | with_reducible assumption | with_reducible apply Dev.sb_kept | simp only [kept_same])

theorem Dev.endTenants_kept {a d : Dev} (h : Kept a d) : Kept a (Dev.endTenants d) := by
  unfold Dev.endTenants
  try dsimp only
  repeat' (first | with_reducible assumption | with_reducible apply Dev.lostPosted_kept | with_reducible apply Dev.respond_kept | with_reducible apply Dev.refuse_kept | with_reducible apply Dev.endOps_kept | with_reducible apply Dev.freeLocalTag_kept | with_reducible apply Dev.pump_kept | with_reducible apply Dev.deliver_kept | with_reducible apply Dev.pumpLocal_kept | with_reducible apply kept_each | intro _ _ _ | intro _ _ | intro _ | simp only [kept_same])

theorem Dev.orphaned_kept {a d : Dev} (h : Kept a d) : Kept a (Dev.orphaned d) := by
  unfold Dev.orphaned
  try dsimp only
  repeat' (first | with_reducible assumption | with_reducible apply Dev.sb_kept | with_reducible apply Dev.raise_kept | with_reducible apply Dev.setRole_kept | with_reducible apply Dev.endTenants_kept | with_reducible apply kept_ite | split)

theorem Dev.takeOver_kept {a d : Dev} (h : Kept a d) (code : Nat) (org : Origin) : Kept a (Dev.takeOver d code org) := by
  unfold Dev.takeOver
  try dsimp only
  repeat' (first | with_reducible assumption | with_reducible apply Dev.sb_kept | with_reducible apply Dev.bump_kept | with_reducible apply Dev.is_kept | with_reducible apply Dev.raise_kept | with_reducible apply Dev.setRole_kept | with_reducible apply kept_each | intro _ _ _ | intro _ _ | intro _ | simp only [kept_same])

theorem Dev.demote_kept {a d : Dev} (h : Kept a d) (org : Origin) : Kept a (Dev.demote d org) := by
  unfold Dev.demote
  try dsimp only
  repeat' (first | with_reducible assumption | with_reducible apply Dev.sb_kept | with_reducible apply Dev.raise_kept | with_reducible apply Dev.setRole_kept | with_reducible apply Dev.reform_kept | simp only [kept_same])

theorem Dev.becomeActive_kept {a d : Dev} (h : Kept a d) : Kept a (Dev.becomeActive d) := by
  unfold Dev.becomeActive
  repeat' (first | with_reducible assumption | with_reducible apply Dev.setRole_kept | simp only [kept_same])

theorem Dev.activeLost_kept {a d : Dev} (h : Kept a d) : Kept a (Dev.activeLost d) := by
  unfold Dev.activeLost
  try dsimp only
  repeat' (first | with_reducible assumption | with_reducible apply Dev.sb_kept | with_reducible apply Dev.raise_kept | with_reducible apply Dev.setRole_kept | with_reducible apply Dev.askHold_kept | with_reducible apply kept_ite | split)

theorem Dev.hacqDone_kept {a d : Dev} (h : Kept a d) (detail : Nat) : Kept a (Dev.hacqDone d detail) := by
  unfold Dev.hacqDone
  try dsimp only
  repeat' (first | with_reducible assumption | with_reducible apply Dev.takeFree_kept | with_reducible apply Dev.setRole_kept | with_reducible apply Dev.leaseHeld_kept | with_reducible apply Dev.takeOver_kept | with_reducible apply Dev.becomeActive_kept | with_reducible apply kept_ite | split)

theorem Dev.twinAnswer_kept {a d : Dev} (h : Kept a d) (a_ : Nat × Nat × Nat × Nat) : Kept a (Dev.twinAnswer d a_) := by
  unfold Dev.twinAnswer
  try dsimp only
  repeat' (first | with_reducible assumption | with_reducible apply Dev.sb_kept | with_reducible apply Dev.raise_kept | with_reducible apply Dev.askHold_kept | with_reducible apply Dev.leaseHeld_kept | with_reducible apply Dev.demote_kept | with_reducible apply Dev.hacqDone_kept | with_reducible apply kept_ite | split)

theorem Dev.twinAnswers_kept {a d : Dev} (h : Kept a d) : Kept a (Dev.twinAnswers d) := by
  unfold Dev.twinAnswers
  repeat' (first | with_reducible assumption | with_reducible apply Dev.twinAnswer_kept | with_reducible apply kept_each | intro _ _ _ | intro _ _ | intro _ | with_reducible apply kept_ite | simp only [kept_same] | split)

theorem Dev.sendTwinHello_kept {a d : Dev} (h : Kept a d) : Kept a (Dev.sendTwinHello d) := by
  unfold Dev.sendTwinHello
  repeat' (first | with_reducible assumption | with_reducible apply Dev.shadowSend_kept)

theorem Dev.twinHelloTime_kept {a d : Dev} (h : Kept a d) : Kept a (Dev.twinHelloTime d) := by
  unfold Dev.twinHelloTime
  repeat' (first | with_reducible assumption | with_reducible apply Dev.sendTwinHello_kept | with_reducible apply kept_ite | split)

theorem Dev.twinNoCredit_kept {a d : Dev} (h : Kept a d) : Kept a (Dev.twinNoCredit d) := by
  unfold Dev.twinNoCredit
  repeat' (first | with_reducible assumption | with_reducible apply Dev.raise_kept | with_reducible apply kept_ite | split)

theorem Dev.peerAtActive_kept {a d : Dev} (h : Kept a d) (h_ : TwinHello) : Kept a (Dev.peerAtActive d h_) := by
  unfold Dev.peerAtActive
  repeat' (first | with_reducible assumption | with_reducible apply Dev.openEpoch0_kept | with_reducible apply kept_ite | split)

theorem Dev.beStandby_kept {a d : Dev} (h : Kept a d) (h_ : TwinHello) : Kept a (Dev.beStandby d h_) := by
  unfold Dev.beStandby
  try dsimp only
  repeat' (first | with_reducible assumption | with_reducible apply Dev.setRole_kept | intro _ _ _ | intro _ _ | intro _ | with_reducible apply kept_ite | simp only [kept_same] | split)

theorem Dev.rankPair_kept {a d : Dev} (h : Kept a d) (h_ : TwinHello) : Kept a (Dev.rankPair d h_) := by
  unfold Dev.rankPair
  try dsimp only
  repeat' (first | with_reducible assumption | with_reducible apply Dev.askHold_kept | with_reducible apply Dev.becomeActive_kept | with_reducible apply kept_ite | simp only [kept_same] | split)

theorem Dev.twinHello_kept {a d : Dev} (h : Kept a d) (h_ : TwinHello) : Kept a (Dev.twinHello d h_) := by
  unfold Dev.twinHello
  try dsimp only
  repeat' (first | with_reducible assumption | with_reducible apply Dev.raise_kept | with_reducible apply Dev.shadowTake_kept | with_reducible apply Dev.shadowUndef_kept | with_reducible apply Dev.twinHeard_kept | with_reducible apply Dev.demote_kept | with_reducible apply Dev.peerAtActive_kept | with_reducible apply Dev.beStandby_kept | with_reducible apply Dev.rankPair_kept | with_reducible apply kept_ite | simp only [kept_same] | split)

theorem Dev.twinFresh_kept {a d : Dev} (h : Kept a d) : Kept a (Dev.twinFresh d) := by
  unfold Dev.twinFresh
  repeat' (first | with_reducible assumption | with_reducible apply Dev.reform_kept | with_reducible apply kept_ite | split)

theorem Dev.judgeWitness_keeps (d : Dev) (c : WCtx) : (Dev.judgeWitness d c).Keeps := by
  unfold Dev.judgeWitness
  try dsimp only
  repeat' (first | with_reducible assumption | exact WOut.bad_keeps | exact WOut.none_keeps | exact WOut.unmapped_keeps | with_reducible apply WOut.ok_keeps | with_reducible apply WOut.badEff_keeps | with_reducible apply WOut.group_keeps | with_reducible apply Dev.sb_kept | with_reducible apply Dev.judgeTable_keeps | with_reducible apply Dev.twinAsk_kept | with_reducible apply Dev.askHold_kept | with_reducible apply Dev.wr_kept | intro _ _ _ | intro _ _ | intro _ | with_reducible apply kept_ite | simp only [kept_same] | (refine WOut.of_ok (Dev.judgeTable_keeps _ _) ‹_› ?_) | split | (subst_vars; first | with_reducible assumption | with_reducible apply Dev.sb_kept | with_reducible apply Dev.judgeTable_keeps | with_reducible apply Dev.twinAsk_kept | with_reducible apply Dev.askHold_kept | with_reducible apply Dev.wr_kept))

theorem Dev.twinDo_kept {a d : Dev} (h : Kept a d) (op : Nat) : Kept a (Dev.twinDo d op) := by
  unfold Dev.twinDo
  try dsimp only
  repeat' (first | with_reducible assumption | with_reducible apply Dev.s_kept | with_reducible apply Dev.sb_kept | with_reducible apply Dev.reform_kept | with_reducible apply Dev.takeOver_kept | intro _ _ _ | intro _ _ | intro _ | with_reducible apply kept_ite | split)

theorem Dev.judgeTwinCmd_keeps (d : Dev) (c : WCtx) : (Dev.judgeTwinCmd d c).Keeps := by
  unfold Dev.judgeTwinCmd
  try dsimp only
  repeat' (first | with_reducible assumption | exact WOut.bad_keeps | exact WOut.none_keeps | exact WOut.unmapped_keeps | with_reducible apply WOut.ok_keeps | with_reducible apply WOut.badEff_keeps | with_reducible apply WOut.group_keeps | with_reducible apply Dev.s_kept | with_reducible apply Dev.twinDo_kept | intro _ _ _ | intro _ _ | intro _ | with_reducible apply kept_ite | split)

theorem Dev.judgeTwinCfg_keeps (d : Dev) (c : WCtx) : (Dev.judgeTwinCfg d c).Keeps := by
  unfold Dev.judgeTwinCfg
  try dsimp only
  repeat' (first | with_reducible assumption | exact WOut.bad_keeps | exact WOut.none_keeps | exact WOut.unmapped_keeps | with_reducible apply WOut.ok_keeps | with_reducible apply WOut.badEff_keeps | with_reducible apply WOut.group_keeps | with_reducible apply Dev.judgeTable_keeps | intro _ _ _ | intro _ _ | intro _ | with_reducible apply kept_ite | (refine WOut.of_ok (Dev.judgeTable_keeps _ _) ‹_› ?_) | split | (subst_vars; first | with_reducible assumption | with_reducible apply Dev.judgeTable_keeps))

theorem Dev.twinSnap_kept {a d : Dev} (h : Kept a d) : Kept a (Dev.twinSnap d) := by
  unfold Dev.twinSnap
  try dsimp only
  repeat' (first | with_reducible assumption | with_reducible apply Dev.s_kept | with_reducible apply Dev.wr_kept | with_reducible apply kept_foldl | with_reducible apply kept_foldl_fst | with_reducible apply kept_foldl_snd | intro _ _ _ | intro _ _ | intro _ | split)

theorem Dev.judgeTwinRd_keeps (d : Dev) (c : WCtx) : (Dev.judgeTwinRd d c).Keeps := by
  unfold Dev.judgeTwinRd
  try dsimp only
  repeat' (first | with_reducible assumption | exact WOut.bad_keeps | exact WOut.none_keeps | exact WOut.unmapped_keeps | with_reducible apply WOut.ok_keeps | with_reducible apply WOut.badEff_keeps | with_reducible apply WOut.group_keeps | with_reducible apply Dev.judgeTable_keeps | with_reducible apply Dev.twinSnap_kept | with_reducible apply Dev.wr_kept | intro _ _ _ | intro _ _ | intro _ | (refine WOut.of_ok (Dev.judgeTable_keeps _ _) ‹_› ?_) | split | (subst_vars; first | with_reducible assumption | with_reducible apply Dev.judgeTable_keeps | with_reducible apply Dev.twinSnap_kept | with_reducible apply Dev.wr_kept))

theorem Dev.twinAdvance_kept {a d : Dev} (h : Kept a d) : Kept a (Dev.twinAdvance d) := by
  unfold Dev.twinAdvance
  repeat' (first | with_reducible assumption | with_reducible apply Dev.twinSnap_kept | with_reducible apply Dev.wr_kept)

end Sys2Proof.Machine
end

