-- ==== Sys2Proof/Laws/KeptFirewatch.lean ====
section
/-! SUPPORT. `Kept` over Firewatch, Bivouac, pins and the change log: one lemma per function. -/
namespace Sys2Proof.Machine

theorem Dev.setRaw_kept {a d : Dev} (h : Kept a d) (n : Nat) (b : Bool) : Kept a (Dev.setRaw d n b) := by
  unfold Dev.setRaw
  try dsimp only
  repeat' (first | with_reducible assumption | intro _ _ _ | intro _ _ | intro _ | simp only [kept_same])

theorem Dev.setVec_kept {a d : Dev} (h : Kept a d) (off : Nat) (i : Nat) (b : Bool) : Kept a (Dev.setVec d off i b) := by
  unfold Dev.setVec
  repeat' (first | with_reducible assumption | with_reducible apply Dev.wr_kept)

theorem Dev.fwtRec_kept {a d : Dev} (h : Kept a d) (kind : Nat) (old : Nat) (new : Nat) (src : Nat) (extra : Nat) : Kept a (Dev.fwtRec d kind old new src extra) := by
  unfold Dev.fwtRec
  try dsimp only
  repeat' (first | with_reducible assumption | with_reducible apply Dev.log_kept | simp only [kept_same])

theorem Dev.setHist_kept {a d : Dev} (h : Kept a d) (w : List W64) : Kept a (Dev.setHist d w) := by
  unfold Dev.setHist
  try dsimp only
  repeat' (first | with_reducible assumption | with_reducible apply Dev.wr_kept | with_reducible apply kept_foldl | with_reducible apply kept_foldl_fst | with_reducible apply kept_foldl_snd | intro _ _ _ | intro _ _ | intro _)

theorem Dev.histNote_kept {a d : Dev} (h : Kept a d) : Kept a (Dev.histNote d) := by
  unfold Dev.histNote
  try dsimp only
  repeat' (first | with_reducible assumption | with_reducible apply Dev.setHist_kept)

theorem Dev.histReact_kept {a d : Dev} (h : Kept a d) (bits : Nat) : Kept a (Dev.histReact d bits) := by
  unfold Dev.histReact
  repeat' (first | with_reducible assumption | with_reducible apply Dev.setHist_kept)

theorem Dev.histNew_kept {a d : Dev} (h : Kept a d) : Kept a (Dev.histNew d) := by
  unfold Dev.histNew
  try dsimp only
  repeat' (first | with_reducible assumption | with_reducible apply Dev.s_kept | with_reducible apply Dev.bump_kept | with_reducible apply Dev.setHist_kept | with_reducible apply kept_ite | split)

theorem Dev.histState_kept {a d : Dev} (h : Kept a d) (st : Nat) : Kept a (Dev.histState d st) := by
  unfold Dev.histState
  repeat' (first | with_reducible assumption | with_reducible apply Dev.setHist_kept)

theorem Dev.endEvent_kept {a d : Dev} (h : Kept a d) (st : Nat) : Kept a (Dev.endEvent d st) := by
  unfold Dev.endEvent
  try dsimp only
  repeat' (first | with_reducible assumption | with_reducible apply Dev.s_kept | with_reducible apply Dev.sb_kept | with_reducible apply Dev.fwtRec_kept | with_reducible apply Dev.histState_kept | simp only [kept_same])

theorem Dev.storePark_kept {a d : Dev} (h : Kept a d) : Kept a (Dev.storePark d) := by
  unfold Dev.storePark
  repeat' (first | with_reducible assumption | with_reducible apply kept_ite | simp only [kept_same] | split)

theorem Dev.chipReset_kept {a d : Dev} (h : Kept a d) : Kept a (Dev.chipReset d) := by
  unfold Dev.chipReset
  repeat' (first | with_reducible assumption | with_reducible apply Dev.pitchStart_kept | with_reducible apply Dev.storePark_kept | with_reducible apply kept_ite | split)

theorem Dev.portsIdle_kept {a d : Dev} (h : Kept a d) : Kept a (Dev.portsIdle d) := by
  unfold Dev.portsIdle
  try dsimp only
  repeat' (first | with_reducible assumption | with_reducible apply Dev.phyStop_kept | with_reducible apply kept_each | intro _ _ _ | intro _ _ | intro _)

theorem Dev.enterFence_kept {a d : Dev} (h : Kept a d) : Kept a (Dev.enterFence d) := by
  unfold Dev.enterFence
  try dsimp only
  repeat' (first | with_reducible assumption | with_reducible apply Dev.sb_kept | with_reducible apply Dev.portsIdle_kept | simp only [kept_same])

theorem Dev.chipReaction_kept {a d : Dev} (h : Kept a d) : Kept a (Dev.chipReaction d) := by
  unfold Dev.chipReaction
  repeat' (first | with_reducible assumption | with_reducible apply Dev.s_kept | with_reducible apply Dev.fwtRec_kept | with_reducible apply Dev.histReact_kept | with_reducible apply Dev.endEvent_kept | with_reducible apply Dev.chipReset_kept | with_reducible apply Dev.enterFence_kept | with_reducible apply kept_ite | split)

theorem Dev.graveLatch_kept {a d : Dev} (h : Kept a d) (real : Bool) : Kept a (Dev.graveLatch d real) := by
  unfold Dev.graveLatch
  try dsimp only
  repeat' (first | with_reducible assumption | with_reducible apply Dev.setBkp_kept | with_reducible apply Dev.histReact_kept | with_reducible apply kept_whenD | intro _ _ _ | intro _ _ | intro _ | with_reducible apply kept_ite | simp only [kept_same] | split)

theorem Dev.hostReaction_kept {a d : Dev} (h : Kept a d) (src : Nat) : Kept a (Dev.hostReaction d src) := by
  unfold Dev.hostReaction
  try dsimp only
  repeat' (first | with_reducible assumption | with_reducible apply Dev.s_kept | with_reducible apply Dev.sb_kept | with_reducible apply Dev.fireVec_kept | with_reducible apply Dev.aerCor_kept | with_reducible apply Dev.aerUnc_kept | with_reducible apply kept_ite | split)

theorem Dev.react_kept {a d : Dev} (h : Kept a d) (bits : Nat) (src : Nat) (blk : Nat) (trap : Nat) (chip : Bool) : Kept a (Dev.react d bits src blk trap chip) := by
  unfold Dev.react
  try dsimp only
  repeat' (first | with_reducible assumption | with_reducible apply Dev.licPulse_kept | with_reducible apply Dev.licTrap_kept | with_reducible apply Dev.fwtBlockReset_kept | with_reducible apply Dev.histReact_kept | with_reducible apply Dev.chipReaction_kept | with_reducible apply Dev.hostReaction_kept | with_reducible apply kept_whenD | intro _ _ _ | intro _ _ | intro _ | with_reducible apply kept_ite | simp only [kept_same] | split)

theorem Dev.openEvent_kept {a d : Dev} (h : Kept a d) (q : RaiseQ) (c : Nat) : Kept a (Dev.openEvent d q c) := by
  unfold Dev.openEvent
  try dsimp only
  repeat' (first | with_reducible assumption | with_reducible apply Dev.s_kept | with_reducible apply Dev.sb_kept | with_reducible apply Dev.fwtRec_kept | with_reducible apply Dev.histNew_kept | with_reducible apply Dev.wr_kept | with_reducible apply kept_id | with_reducible apply kept_ite | simp only [kept_same] | split)

theorem Dev.mergeEvent_kept {a d : Dev} (h : Kept a d) (q : RaiseQ) (c : Nat) : Kept a (Dev.mergeEvent d q c) := by
  unfold Dev.mergeEvent
  try dsimp only
  repeat' (first | with_reducible assumption | with_reducible apply Dev.s_kept | with_reducible apply Dev.bump_kept | with_reducible apply Dev.histNote_kept | with_reducible apply kept_ite | split)

theorem Dev.raised_kept {a d : Dev} (h : Kept a d) (q : RaiseQ) : Kept a (Dev.raised d q) := by
  unfold Dev.raised
  try dsimp only
  repeat' (first | with_reducible assumption | with_reducible apply Dev.bump_kept | with_reducible apply Dev.setVec_kept | with_reducible apply Dev.fwtRec_kept | with_reducible apply Dev.graveLatch_kept | with_reducible apply Dev.react_kept | with_reducible apply Dev.openEvent_kept | with_reducible apply Dev.mergeEvent_kept | with_reducible apply kept_whenD | intro _ _ _ | intro _ _ | intro _ | with_reducible apply kept_ite | simp only [kept_same] | split)

theorem Dev.takeRaise_kept {a d : Dev} (h : Kept a d) (q : RaiseQ) : Kept a (Dev.takeRaise d q) := by
  unfold Dev.takeRaise
  try dsimp only
  repeat' (first | with_reducible assumption | with_reducible apply Dev.setRaw_kept | with_reducible apply Dev.raised_kept | with_reducible apply kept_whenD | intro _ _ _ | intro _ _ | intro _ | with_reducible apply kept_ite | split)

theorem Dev.fwtRun_kept {a d : Dev} (h : Kept a d) (fuel : Nat) : Kept a (Dev.fwtRun d fuel) := by
  induction fuel generalizing d with
  | zero => exact h
  | succ f ih =>
    unfold Dev.fwtRun
    split
    · exact h
    · exact ih (kept_each _ _ (fun _ x hd => Dev.takeRaise_kept hd x) (kept_same.2 h))

theorem Dev.stepNote_kept {a d : Dev} (h : Kept a d) (old : Nat) (new : Nat) : Kept a (Dev.stepNote d old new) := by
  unfold Dev.stepNote
  try dsimp only
  repeat' (first | with_reducible assumption | with_reducible apply Dev.fwtRec_kept | with_reducible apply Dev.setHist_kept | with_reducible apply Dev.histNote_kept)

theorem Dev.escalate_kept {a d : Dev} (h : Kept a d) : Kept a (Dev.escalate d) := by
  unfold Dev.escalate
  try dsimp only
  repeat' (first | with_reducible assumption | with_reducible apply Dev.s_kept | with_reducible apply Dev.chipReaction_kept | with_reducible apply Dev.react_kept | with_reducible apply Dev.stepNote_kept | with_reducible apply kept_ite | split)

theorem Dev.graveReset_kept {a d : Dev} (h : Kept a d) : Kept a (Dev.graveReset d) := by
  unfold Dev.graveReset
  try dsimp only
  repeat' (first | with_reducible assumption | with_reducible apply Dev.fwtRec_kept | with_reducible apply Dev.endEvent_kept | with_reducible apply Dev.chipReset_kept | with_reducible apply kept_whenD | intro _ _ _ | intro _ _ | intro _ | with_reducible apply kept_ite | simp only [kept_same] | split)

theorem Dev.judgeAck_keeps (d : Dev) (c : WCtx) : (Dev.judgeAck d c).Keeps := by
  unfold Dev.judgeAck
  try dsimp only
  repeat' (first | with_reducible assumption | exact WOut.bad_keeps | exact WOut.none_keeps | exact WOut.unmapped_keeps | with_reducible apply WOut.ok_keeps | with_reducible apply WOut.badEff_keeps | with_reducible apply WOut.group_keeps | with_reducible apply Dev.s_kept | with_reducible apply Dev.endEvent_kept | intro _ _ _ | intro _ _ | intro _ | with_reducible apply kept_ite | split)

theorem Dev.errReleased_kept {a d : Dev} (h : Kept a d) : Kept a (Dev.errReleased d) := by
  unfold Dev.errReleased
  repeat' (first | with_reducible assumption | with_reducible apply kept_ite | simp only [kept_same] | split)

theorem Dev.judgeSrcCfg_keeps (d : Dev) (n : Nat) (c : WCtx) : (Dev.judgeSrcCfg d n c).Keeps := by
  unfold Dev.judgeSrcCfg
  try dsimp only
  repeat' (first | with_reducible assumption | exact WOut.bad_keeps | exact WOut.none_keeps | exact WOut.unmapped_keeps | with_reducible apply WOut.ok_keeps | with_reducible apply WOut.badEff_keeps | with_reducible apply WOut.group_keeps | with_reducible apply Dev.wr_kept | intro _ _ _ | intro _ _ | intro _ | with_reducible apply kept_ite | simp only [kept_same] | split)

theorem Dev.judgeTimer_keeps (d : Dev) (c : WCtx) : (Dev.judgeTimer d c).Keeps := by
  unfold Dev.judgeTimer
  try dsimp only
  repeat' (first | with_reducible assumption | exact WOut.bad_keeps | exact WOut.none_keeps | exact WOut.unmapped_keeps | with_reducible apply WOut.ok_keeps | with_reducible apply WOut.badEff_keeps | with_reducible apply WOut.group_keeps | with_reducible apply Dev.s_kept | with_reducible apply Dev.judgeTable_keeps | with_reducible apply Dev.wr_kept | intro _ _ _ | intro _ _ | intro _ | with_reducible apply kept_ite | (refine WOut.of_ok (Dev.judgeTable_keeps _ _) ‹_› ?_) | split | (subst_vars; first | with_reducible assumption | with_reducible apply Dev.s_kept | with_reducible apply Dev.judgeTable_keeps | with_reducible apply Dev.wr_kept))

theorem Dev.judgeForce_keeps (d : Dev) (w : Nat) (set : Bool) (c : WCtx) : (Dev.judgeForce d w set c).Keeps := by
  unfold Dev.judgeForce
  try dsimp only
  repeat' (first | with_reducible assumption | exact WOut.bad_keeps | exact WOut.none_keeps | exact WOut.unmapped_keeps | with_reducible apply WOut.ok_keeps | with_reducible apply WOut.badEff_keeps | with_reducible apply WOut.group_keeps | with_reducible apply Dev.log_kept | with_reducible apply Dev.holdRefuse_kept | with_reducible apply Dev.wr_kept | intro _ _ _ | intro _ _ | intro _ | with_reducible apply kept_ite | simp only [kept_same] | split)

theorem Dev.guyRec_kept {a d : Dev} (h : Kept a d) (n : Nat) (broken : Bool) : Kept a (Dev.guyRec d n broken) := by
  unfold Dev.guyRec
  repeat' (first | with_reducible assumption | with_reducible apply Dev.logEv_kept)

theorem Dev.guyBroken_kept {a d : Dev} (h : Kept a d) (n : Nat) : Kept a (Dev.guyBroken d n) := by
  unfold Dev.guyBroken
  try dsimp only
  repeat' (first | with_reducible assumption | with_reducible apply Dev.raise_kept | with_reducible apply Dev.setVec_kept | with_reducible apply Dev.guyRec_kept | with_reducible apply kept_ite | simp only [kept_same] | split)

theorem Dev.guyMended_kept {a d : Dev} (h : Kept a d) (n : Nat) (asserted : Bool) : Kept a (Dev.guyMended d n asserted) := by
  unfold Dev.guyMended
  try dsimp only
  repeat' (first | with_reducible assumption | with_reducible apply Dev.raiseLvl_kept | with_reducible apply Dev.setRaw_kept | with_reducible apply Dev.setVec_kept | with_reducible apply Dev.guyRec_kept | with_reducible apply kept_ite | split)

theorem Dev.wearOne_kept {a d : Dev} (h : Kept a d) (k : Nat) (x : Nat) : Kept a (Dev.wearOne d k x) := by
  unfold Dev.wearOne
  try dsimp only
  repeat' (first | with_reducible assumption | with_reducible apply Dev.s_kept | with_reducible apply Dev.sb_kept | with_reducible apply Dev.raiseLvl_kept | with_reducible apply Dev.setRaw_kept | with_reducible apply kept_ite | split)

theorem Dev.wearAll_kept {a d : Dev} (h : Kept a d) (xs : List Nat) : Kept a (Dev.wearAll d xs) := by
  unfold Dev.wearAll
  try dsimp only
  repeat' (first | with_reducible assumption | with_reducible apply Dev.wearOne_kept | with_reducible apply kept_foldl | with_reducible apply kept_foldl_fst | with_reducible apply kept_foldl_snd | intro _ _ _ | intro _ _ | intro _ | with_reducible apply kept_ite | split)

theorem Dev.bvcStart_kept {a d : Dev} (h : Kept a d) (trigger : Nat) : Kept a (Dev.bvcStart d trigger) := by
  unfold Dev.bvcStart
  try dsimp only
  repeat' (first | with_reducible assumption | with_reducible apply Dev.sb_kept | with_reducible apply Dev.raise_kept | with_reducible apply Dev.licPulse_kept | with_reducible apply Dev.logEv_kept | with_reducible apply Dev.flushLines_kept | with_reducible apply Dev.dlAbort_kept | with_reducible apply Dev.abandonWork_kept | with_reducible apply Dev.closeEpoch_kept | intro _ _ _ | intro _ _ | intro _ | simp only [kept_same])

theorem Dev.parkEnd_kept {a d : Dev} (h : Kept a d) : Kept a (Dev.parkEnd d).1 := by
  unfold Dev.parkEnd
  try dsimp only
  repeat' (first | with_reducible assumption | with_reducible apply Dev.lostPosted_kept | with_reducible apply Dev.refuse_kept | with_reducible apply Dev.localReply_kept | with_reducible apply kept_each | intro _ _ _ | intro _ _ | intro _ | with_reducible apply kept_ite | simp only [kept_same] | split)

theorem Dev.allEnd_kept {a d : Dev} (h : Kept a d) : Kept a (Dev.allEnd d).1 := by
  unfold Dev.allEnd
  try dsimp only
  repeat' (first | with_reducible assumption | with_reducible apply Dev.endTags_kept | with_reducible apply Dev.hostPathLost_kept | with_reducible apply Dev.workEnd_kept | with_reducible apply Dev.parkEnd_kept | with_reducible apply kept_foldl | with_reducible apply kept_foldl_fst | with_reducible apply kept_foldl_snd | intro _ _ _ | intro _ _ | intro _ | with_reducible apply kept_ite | split)

theorem Dev.bvcOff_kept {a d : Dev} (h : Kept a d) (lo : Nat) (hi : Nat) : Kept a (Dev.bvcOff d lo hi) := by
  unfold Dev.bvcOff
  try dsimp only
  repeat' (first | with_reducible assumption | with_reducible apply Dev.setPd_kept | with_reducible apply Dev.clampDom_kept | with_reducible apply kept_each | intro _ _ _ | intro _ _ | intro _)

theorem Dev.bvcClose_kept {a d : Dev} (h : Kept a d) : Kept a (Dev.bvcClose d) := by
  unfold Dev.bvcClose
  try dsimp only
  repeat' (first | with_reducible assumption | with_reducible apply Dev.raise_kept | with_reducible apply Dev.logEv_kept | with_reducible apply Dev.goneSynth_kept | with_reducible apply Dev.portsIdle_kept | with_reducible apply Dev.fwtRun_kept | with_reducible apply Dev.allEnd_kept | with_reducible apply Dev.bvcOff_kept | with_reducible apply kept_whenD | intro _ _ _ | intro _ _ | intro _ | simp only [kept_same])

theorem Dev.writeBack_kept {a d : Dev} (h : Kept a d) : Kept a (Dev.writeBack d) := by
  unfold Dev.writeBack
  try dsimp only
  repeat' (first | with_reducible assumption | with_reducible apply Dev.logHeader_kept | with_reducible apply Dev.ringWrite_kept | with_reducible apply Dev.flushAll_kept | with_reducible apply Dev.logEv_kept | with_reducible apply Dev.snapWrite_kept | with_reducible apply kept_each | intro _ _ _ | intro _ _ | intro _ | simp only [kept_same])

theorem Dev.writeSeal_kept {a d : Dev} (h : Kept a d) : Kept a (Dev.writeSeal d) := by
  unfold Dev.writeSeal
  try dsimp only
  repeat' (first | with_reducible assumption | with_reducible apply Dev.setBkp_kept | with_reducible apply Dev.setBkpW_kept | with_reducible apply Dev.stoMove_kept | simp only [kept_same])

theorem Dev.holdEntry_kept {a d : Dev} (h : Kept a d) : Kept a (Dev.holdEntry d) := by
  unfold Dev.holdEntry
  try dsimp only
  repeat' (first | with_reducible assumption | with_reducible apply Dev.setBkp_kept | with_reducible apply Dev.bvcOff_kept | simp only [kept_ins] | simp only [kept_same])

theorem Dev.bvcMeets_kept {a d : Dev} (h : Kept a d) (bad : List BadUnit) : Kept a (Dev.bvcMeets d bad) := by
  unfold Dev.bvcMeets
  try dsimp only
  repeat' (first | with_reducible assumption | with_reducible apply Dev.ueUnit_kept | with_reducible apply Dev.crcPage_kept | with_reducible apply Dev.fwtRun_kept | with_reducible apply kept_each | intro _ _ _ | intro _ _ | intro _ | with_reducible apply kept_ite | split)

theorem Dev.bvcFinish_kept {a d : Dev} (h : Kept a d) (bad : List BadUnit) : Kept a (Dev.bvcFinish d bad) := by
  unfold Dev.bvcFinish
  try dsimp only
  repeat' (first | with_reducible assumption | with_reducible apply Dev.setBkp_kept | with_reducible apply Dev.flushAll_kept | with_reducible apply Dev.pitchStart_kept | with_reducible apply Dev.bvcClose_kept | with_reducible apply Dev.writeBack_kept | with_reducible apply Dev.writeSeal_kept | with_reducible apply Dev.holdEntry_kept | with_reducible apply Dev.bvcMeets_kept | with_reducible apply kept_whenD | intro _ _ _ | intro _ _ | intro _ | with_reducible apply kept_ite | simp only [kept_same] | split)

theorem Dev.bvcDrained_kept {a d : Dev} (h : Kept a d) (budget : Bool) (bad : List BadUnit) : Kept a (Dev.bvcDrained d budget bad) := by
  unfold Dev.bvcDrained
  repeat' (first | with_reducible assumption | with_reducible apply Dev.bvcFinish_kept | with_reducible apply kept_ite | split)

theorem Dev.pitchCut_kept {a d : Dev} (h : Kept a d) : Kept a (Dev.pitchCut d) := by
  unfold Dev.pitchCut
  try dsimp only
  repeat' (first | with_reducible assumption | with_reducible apply Dev.setBkp_kept | with_reducible apply Dev.portsIdle_kept | with_reducible apply Dev.bvcOff_kept | simp only [kept_ins] | simp only [kept_same])

theorem Dev.bvcLimited_kept {a d : Dev} (h : Kept a d) : Kept a (Dev.bvcLimited d) := by
  unfold Dev.bvcLimited
  try dsimp only
  repeat' (first | with_reducible assumption | with_reducible apply Dev.raise_kept | with_reducible apply Dev.licPulse_kept | with_reducible apply Dev.bvcOff_kept | simp only [kept_same])

theorem Dev.bvcTrigger_kept {a d : Dev} (h : Kept a d) (trigger : Nat) : Kept a (Dev.bvcTrigger d trigger) := by
  unfold Dev.bvcTrigger
  try dsimp only
  repeat' (first | with_reducible assumption | with_reducible apply Dev.fwtRun_kept | with_reducible apply Dev.bvcStart_kept | with_reducible apply Dev.bvcFinish_kept | with_reducible apply Dev.pitchCut_kept | with_reducible apply Dev.bvcLimited_kept | with_reducible apply kept_ite | split)

theorem Dev.returnNoLoss_kept {a d : Dev} (h : Kept a d) : Kept a (Dev.returnNoLoss d) := by
  unfold Dev.returnNoLoss
  repeat' (first | with_reducible assumption | with_reducible apply Dev.raise_kept | with_reducible apply Dev.pitchStart_kept | with_reducible apply kept_ite | split)

theorem Dev.bvcNoReff_kept {a d : Dev} (h : Kept a d) : Kept a (Dev.bvcNoReff d) := by
  unfold Dev.bvcNoReff
  try dsimp only
  repeat' (first | with_reducible assumption | with_reducible apply Dev.setBkp_kept | with_reducible apply Dev.bvcFinish_kept | with_reducible apply kept_whenD | intro _ _ _ | intro _ _ | intro _ | with_reducible apply kept_ite | simp only [kept_same] | split)

theorem Dev.railsGood_kept {a d : Dev} (h : Kept a d) : Kept a (Dev.railsGood d) := by
  unfold Dev.railsGood
  try dsimp only
  repeat' (first | with_reducible assumption | with_reducible apply Dev.freshStart_kept | with_reducible apply Dev.pitchStart_kept | with_reducible apply kept_ite | simp only [kept_ins] | simp only [kept_same] | split)

theorem Dev.powerLost_kept {a d : Dev} (h : Kept a d) : Kept a (Dev.powerLost d) := by
  unfold Dev.powerLost
  try dsimp only
  repeat' (first | with_reducible assumption | with_reducible apply Dev.substBits_kept | with_reducible apply Dev.pitchClear_kept | with_reducible apply kept_ite | simp only [kept_ins] | simp only [kept_same] | split)

theorem Dev.hostPortReset_kept {a d : Dev} (h : Kept a d) : Kept a (Dev.hostPortReset d) := by
  unfold Dev.hostPortReset
  try dsimp only
  repeat' (first | with_reducible assumption | with_reducible apply Dev.s_kept | with_reducible apply Dev.sb_kept | with_reducible apply Dev.hostPathLost_kept | simp only [kept_same])

theorem Dev.perstLow_kept {a d : Dev} (h : Kept a d) : Kept a (Dev.perstLow d) := by
  unfold Dev.perstLow
  try dsimp only
  repeat' (first | with_reducible assumption | with_reducible apply Dev.sb_kept | with_reducible apply Dev.pitchStart_kept | with_reducible apply Dev.storePark_kept | with_reducible apply Dev.bvcStart_kept | with_reducible apply Dev.hostPortReset_kept | with_reducible apply kept_ite | simp only [kept_ins] | simp only [kept_same] | split)

theorem Dev.perstHigh_kept {a d : Dev} (h : Kept a d) : Kept a (Dev.perstHigh d) := by
  unfold Dev.perstHigh
  repeat' (first | with_reducible assumption | simp only [kept_ins] | simp only [kept_same])

theorem Dev.railRead_kept {a d : Dev} (h : Kept a d) (k : Nat) (mv : Nat) : Kept a (Dev.railRead d k mv) := by
  unfold Dev.railRead
  repeat' (first | with_reducible assumption | with_reducible apply Dev.s_kept | with_reducible apply Dev.sb_kept)

theorem Dev.railsRead_kept {a d : Dev} (h : Kept a d) (mv : List Nat) : Kept a (Dev.railsRead d mv) := by
  unfold Dev.railsRead
  try dsimp only
  repeat' (first | with_reducible assumption | with_reducible apply Dev.srcCond_kept | with_reducible apply Dev.railRead_kept | with_reducible apply kept_each | intro _ _ _ | intro _ _ | intro _ | with_reducible apply kept_ite | split)

theorem Dev.vbatRead_kept {a d : Dev} (h : Kept a d) (mv : Nat) : Kept a (Dev.vbatRead d mv) := by
  unfold Dev.vbatRead
  try dsimp only
  repeat' (first | with_reducible assumption | with_reducible apply Dev.s_kept | with_reducible apply Dev.sb_kept | with_reducible apply Dev.srcCond_kept | with_reducible apply kept_ite | simp only [kept_same] | split)

theorem Dev.tempStore_kept {a d : Dev} (h : Kept a d) (temps : List Int) : Kept a (Dev.tempStore d temps) := by
  unfold Dev.tempStore
  try dsimp only
  repeat' (first | with_reducible assumption | with_reducible apply Dev.s_kept | with_reducible apply Dev.sb_kept | with_reducible apply Dev.raise_kept | with_reducible apply kept_each | intro _ _ _ | intro _ _ | intro _)

theorem Dev.tempSrc_kept {a d : Dev} (h : Kept a d) (n : Nat) (on : Int) (off : Int) (x : Int) : Kept a (Dev.tempSrc d n on off x) := by
  unfold Dev.tempSrc
  repeat' (first | with_reducible assumption | with_reducible apply Dev.raiseLvl_kept | with_reducible apply Dev.clearSrc_kept | with_reducible apply kept_ite | split)

theorem Dev.tempsRead_kept {a d : Dev} (h : Kept a d) (temps : List Int) : Kept a (Dev.tempsRead d temps) := by
  unfold Dev.tempsRead
  try dsimp only
  repeat' (first | with_reducible assumption | with_reducible apply Dev.s_kept | with_reducible apply Dev.sb_kept | with_reducible apply Dev.raiseLvl_kept | with_reducible apply Dev.clearSrc_kept | with_reducible apply Dev.tempStore_kept | with_reducible apply Dev.tempSrc_kept | with_reducible apply kept_ite | split)

theorem Dev.linkDown208_kept {a d : Dev} (h : Kept a d) : Kept a (Dev.linkDown208 d) := by
  unfold Dev.linkDown208
  try dsimp only
  repeat' (first | with_reducible assumption | with_reducible apply Dev.raise_kept | with_reducible apply Dev.linkLost_kept | with_reducible apply Dev.hstCounters_kept | with_reducible apply kept_whenD | intro _ _ _ | intro _ _ | intro _)

theorem Dev.refclkGone_kept {a d : Dev} (h : Kept a d) : Kept a (Dev.refclkGone d) := by
  unfold Dev.refclkGone
  try dsimp only
  repeat' (first | with_reducible assumption | with_reducible apply Dev.raiseLvl_kept | with_reducible apply Dev.linkDown208_kept | with_reducible apply kept_whenD | intro _ _ _ | intro _ _ | intro _ | with_reducible apply kept_ite | simp only [kept_ins] | simp only [kept_same] | split)

theorem Dev.refclkBack_kept {a d : Dev} (h : Kept a d) : Kept a (Dev.refclkBack d) := by
  unfold Dev.refclkBack
  try dsimp only
  repeat' (first | with_reducible assumption | with_reducible apply Dev.clearSrc_kept | with_reducible apply kept_whenD | intro _ _ _ | intro _ _ | intro _ | simp only [kept_ins] | simp only [kept_same])

theorem Dev.reffGone_kept {a d : Dev} (h : Kept a d) : Kept a (Dev.reffGone d) := by
  unfold Dev.reffGone
  try dsimp only
  repeat' (first | with_reducible assumption | with_reducible apply Dev.raiseLvl_kept | with_reducible apply Dev.substBits_kept | with_reducible apply Dev.storePark_kept | with_reducible apply Dev.bvcNoReff_kept | with_reducible apply kept_ite | simp only [kept_ins] | simp only [kept_same] | split)

theorem Dev.reffBack_kept {a d : Dev} (h : Kept a d) : Kept a (Dev.reffBack d) := by
  unfold Dev.reffBack
  try dsimp only
  repeat' (first | with_reducible assumption | with_reducible apply Dev.clearSrc_kept | with_reducible apply Dev.substBits_kept | with_reducible apply kept_whenD | intro _ _ _ | intro _ _ | intro _ | simp only [kept_ins] | simp only [kept_same])

theorem Dev.pwrGlitch_kept {a d : Dev} (h : Kept a d) : Kept a (Dev.pwrGlitch d) := by
  unfold Dev.pwrGlitch
  repeat' (first | with_reducible assumption | with_reducible apply Dev.raise_kept | with_reducible apply kept_ite | split)

theorem Dev.hostLinkUp_kept {a d : Dev} (h : Kept a d) (speed : Nat) (width : Nat) (flit : Bool) : Kept a (Dev.hostLinkUp d speed width flit) := by
  unfold Dev.hostLinkUp
  repeat' (first | with_reducible assumption | with_reducible apply Dev.hostUp_kept | with_reducible apply kept_ite | split)

theorem Dev.l1Entry_kept {a d : Dev} (h : Kept a d) (sub : L1Sub) : Kept a (Dev.l1Entry d sub) := by
  unfold Dev.l1Entry
  try dsimp only
  repeat' (first | with_reducible assumption | with_reducible apply Dev.s_kept | with_reducible apply Dev.bump_kept | with_reducible apply Dev.setPd_kept | with_reducible apply Dev.clampDom_kept | with_reducible apply kept_each | intro _ _ _ | intro _ _ | intro _ | with_reducible apply kept_ite | simp only [kept_same] | split)

theorem Dev.l1Leave_kept {a d : Dev} (h : Kept a d) : Kept a (Dev.l1Leave d) := by
  unfold Dev.l1Leave
  try dsimp only
  repeat' (first | with_reducible assumption | with_reducible apply Dev.s_kept | with_reducible apply Dev.setPd_kept | with_reducible apply kept_each | with_reducible apply kept_whenD | intro _ _ _ | intro _ _ | intro _ | with_reducible apply kept_ite | simp only [kept_same] | split)

theorem Dev.hotReset_kept {a d : Dev} (h : Kept a d) : Kept a (Dev.hotReset d) := by
  unfold Dev.hotReset
  repeat' (first | with_reducible assumption | with_reducible apply Dev.linkLost_kept | with_reducible apply Dev.hstCounters_kept | with_reducible apply kept_ite | split)

theorem Dev.dlDown_kept {a d : Dev} (h : Kept a d) : Kept a (Dev.dlDown d) := by
  unfold Dev.dlDown
  repeat' (first | with_reducible assumption | with_reducible apply Dev.linkDown208_kept | with_reducible apply kept_ite | split)

theorem Dev.release_kept {a d : Dev} (h : Kept a d) (n : Nat) : Kept a (Dev.release d n) := by
  induction n generalizing d with
  | zero => exact h
  | succ k ih => exact ih (Dev.logDropTail_kept h)

theorem Dev.ackTo_kept {a d : Dev} (h : Kept a d) (a_ : W64) : Kept a (Dev.ackTo d a_) := by
  unfold Dev.ackTo
  try dsimp only
  repeat' (first | with_reducible assumption | with_reducible apply Dev.clgLevels_kept | with_reducible apply Dev.logHeader_kept | with_reducible apply Dev.missedRec_kept | with_reducible apply Dev.release_kept | with_reducible apply kept_ite | split)

theorem Dev.judgeClgAck_keeps (d : Dev) (c : WCtx) : (Dev.judgeClgAck d c).Keeps := by
  unfold Dev.judgeClgAck
  try dsimp only
  repeat' (first | with_reducible assumption | exact WOut.bad_keeps | exact WOut.none_keeps | exact WOut.unmapped_keeps | with_reducible apply WOut.ok_keeps | with_reducible apply WOut.badEff_keeps | with_reducible apply WOut.group_keeps | with_reducible apply Dev.ackTo_kept | intro _ _ _ | intro _ _ | intro _ | with_reducible apply kept_ite | split)

theorem Dev.judgeRdSeq_keeps (d : Dev) (c : WCtx) : (Dev.judgeRdSeq d c).Keeps := by
  unfold Dev.judgeRdSeq
  try dsimp only
  repeat' (first | with_reducible assumption | exact WOut.bad_keeps | exact WOut.none_keeps | exact WOut.unmapped_keeps | with_reducible apply WOut.ok_keeps | with_reducible apply WOut.badEff_keeps | with_reducible apply WOut.group_keeps | with_reducible apply Dev.sb_kept | with_reducible apply Dev.judgeTable_keeps | with_reducible apply Dev.wr_kept | intro _ _ _ | intro _ _ | intro _ | (refine WOut.of_ok (Dev.judgeTable_keeps _ _) ‹_› ?_) | split | (subst_vars; first | with_reducible assumption | with_reducible apply Dev.sb_kept | with_reducible apply Dev.judgeTable_keeps | with_reducible apply Dev.wr_kept))

theorem Dev.rdAdvance_kept {a d : Dev} (h : Kept a d) : Kept a (Dev.rdAdvance d) := by
  unfold Dev.rdAdvance
  repeat' (first | with_reducible assumption | with_reducible apply Dev.sb_kept | with_reducible apply Dev.wr_kept)

theorem Dev.snapTaken_kept {a d : Dev} (h : Kept a d) (bad : Bool) : Kept a (Dev.snapTaken d bad) := by
  unfold Dev.snapTaken
  try dsimp only
  repeat' (first | with_reducible assumption | with_reducible apply Dev.s_kept | with_reducible apply Dev.sb_kept | with_reducible apply Dev.stoMove_kept | with_reducible apply Dev.raise_kept | with_reducible apply Dev.ueUnit_kept | with_reducible apply Dev.wr_kept | with_reducible apply kept_foldl | with_reducible apply kept_foldl_fst | with_reducible apply kept_foldl_snd | with_reducible apply kept_whenD | intro _ _ _ | intro _ _ | intro _ | with_reducible apply kept_ite | split)

theorem Dev.judgePushCtl_keeps (d : Dev) (c : WCtx) : (Dev.judgePushCtl d c).Keeps := by
  unfold Dev.judgePushCtl
  try dsimp only
  repeat' (first | with_reducible assumption | exact WOut.bad_keeps | exact WOut.none_keeps | exact WOut.unmapped_keeps | with_reducible apply WOut.ok_keeps | with_reducible apply WOut.badEff_keeps | with_reducible apply WOut.group_keeps | with_reducible apply Dev.judgeTable_keeps | intro _ _ _ | intro _ _ | intro _ | with_reducible apply kept_ite | (refine WOut.of_ok (Dev.judgeTable_keeps _ _) ‹_› ?_) | split | (subst_vars; first | with_reducible assumption | with_reducible apply Dev.judgeTable_keeps))

theorem Dev.pushSkip_kept {a d : Dev} (h : Kept a d) : Kept a (Dev.pushSkip d) := by
  unfold Dev.pushSkip
  try dsimp only
  repeat' (first | with_reducible assumption | with_reducible apply Dev.bumpBy_kept | with_reducible apply Dev.raise_kept | with_reducible apply Dev.attention_kept | with_reducible apply Dev.wr_kept | with_reducible apply kept_ite | split)

theorem Dev.pushOne_kept {a d : Dev} (h : Kept a d) : Kept a (Dev.pushOne d) := by
  unfold Dev.pushOne
  try dsimp only
  repeat' (first | with_reducible assumption | with_reducible apply Dev.stoMove_kept | with_reducible apply Dev.toHost_kept | with_reducible apply Dev.wr_kept | split)

theorem Dev.pushBatch_kept {a d : Dev} (h : Kept a d) : Kept a (Dev.pushBatch d) := by
  unfold Dev.pushBatch
  try dsimp only
  repeat' (first | with_reducible assumption | with_reducible apply Dev.toHost_kept | with_reducible apply Dev.pushSkip_kept | with_reducible apply Dev.pushOne_kept | with_reducible apply kept_each | intro _ _ _ | intro _ _ | intro _ | with_reducible apply kept_ite | split)

theorem Dev.judgePushCons_keeps (d : Dev) (c : WCtx) : (Dev.judgePushCons d c).Keeps := by
  unfold Dev.judgePushCons
  try dsimp only
  repeat' (first | with_reducible assumption | exact WOut.bad_keeps | exact WOut.none_keeps | exact WOut.unmapped_keeps | with_reducible apply WOut.ok_keeps | with_reducible apply WOut.badEff_keeps | with_reducible apply WOut.group_keeps | with_reducible apply Dev.log_kept | with_reducible apply Dev.judgeTable_keeps | with_reducible apply Dev.ackTo_kept | with_reducible apply Dev.wr_kept | intro _ _ _ | intro _ _ | intro _ | with_reducible apply kept_ite | simp only [kept_same] | (refine WOut.of_ok (Dev.judgeTable_keeps _ _) ‹_› ?_) | split | (subst_vars; first | with_reducible assumption | with_reducible apply Dev.log_kept | with_reducible apply Dev.judgeTable_keeps | with_reducible apply Dev.ackTo_kept | with_reducible apply Dev.wr_kept))

end Sys2Proof.Machine
end

