-- ==== Sys2Proof/Laws/KeptAccess.lean ====
section
/-! SUPPORT. `Kept` over accesses to control space, what commands share, the tick: one lemma per function. -/
namespace Sys2Proof.Machine

theorem Dev.readEff_kept {a d : Dev} (h : Kept a d) (reader : Nat) (core : Option Nat) (off : Nat) (wide : Bool) : Kept a (Dev.readEff d reader core off wide).1 := by
  unfold Dev.readEff
  try dsimp only
  repeat' (first | with_reducible assumption | with_reducible apply Dev.claim_kept | with_reducible apply Dev.timeRead_kept | with_reducible apply Dev.twinAdvance_kept | with_reducible apply Dev.rdAdvance_kept | with_reducible apply kept_ite | split)

theorem Dev.judgeLic_keeps (d : Dev) (c : WCtx) : (Dev.judgeLic d c).Keeps := by
  unfold Dev.judgeLic
  try dsimp only
  repeat' (first | with_reducible assumption | exact WOut.bad_keeps | exact WOut.none_keeps | exact WOut.unmapped_keeps | with_reducible apply WOut.ok_keeps | with_reducible apply WOut.badEff_keeps | with_reducible apply WOut.group_keeps | with_reducible apply Dev.judgeTable_keeps | with_reducible apply Dev.licEoi_kept | with_reducible apply Dev.judgePendClr_keeps | with_reducible apply Dev.judgePendSet_keeps | with_reducible apply Dev.judgeMask_keeps | with_reducible apply judgeSignal_keeps | with_reducible apply Dev.judgeSrc_keeps | with_reducible apply Dev.judgeBind_keeps | with_reducible apply judgeEoi_keeps | intro _ _ _ | intro _ _ | intro _ | with_reducible apply kept_ite | (refine WOut.of_ok (Dev.judgeTable_keeps _ _) ‹_› ?_) | split | (subst_vars; first | with_reducible assumption | with_reducible apply Dev.judgeTable_keeps | with_reducible apply Dev.licEoi_kept | with_reducible apply Dev.judgePendClr_keeps | with_reducible apply Dev.judgePendSet_keeps | with_reducible apply Dev.judgeMask_keeps | with_reducible apply judgeSignal_keeps | with_reducible apply Dev.judgeSrc_keeps | with_reducible apply Dev.judgeBind_keeps | with_reducible apply judgeEoi_keeps))

theorem Dev.judgeFwt_keeps (d : Dev) (c : WCtx) : (Dev.judgeFwt d c).Keeps := by
  unfold Dev.judgeFwt
  try dsimp only
  repeat' (first | with_reducible assumption | exact WOut.bad_keeps | exact WOut.none_keeps | exact WOut.unmapped_keeps | with_reducible apply WOut.ok_keeps | with_reducible apply WOut.badEff_keeps | with_reducible apply WOut.group_keeps | with_reducible apply Dev.judgeTable_keeps | with_reducible apply Dev.judgeAck_keeps | with_reducible apply Dev.judgeSrcCfg_keeps | with_reducible apply Dev.judgeTimer_keeps | with_reducible apply Dev.judgeForce_keeps | intro _ _ _ | intro _ _ | intro _ | with_reducible apply kept_ite | (refine WOut.of_ok (Dev.judgeTable_keeps _ _) ‹_› ?_) | split | (subst_vars; first | with_reducible assumption | with_reducible apply Dev.judgeTable_keeps | with_reducible apply Dev.judgeAck_keeps | with_reducible apply Dev.judgeSrcCfg_keeps | with_reducible apply Dev.judgeTimer_keeps | with_reducible apply Dev.judgeForce_keeps))

theorem Dev.judgePit_keeps (d : Dev) (c : WCtx) : (Dev.judgePit d c).Keeps := by
  unfold Dev.judgePit
  repeat' (first | with_reducible assumption | exact WOut.bad_keeps | exact WOut.none_keeps | exact WOut.unmapped_keeps | with_reducible apply WOut.ok_keeps | with_reducible apply WOut.badEff_keeps | with_reducible apply WOut.group_keeps | with_reducible apply Dev.judgeTable_keeps | with_reducible apply Dev.judgeRepitch_keeps | with_reducible apply Dev.judgePdReq_keeps | with_reducible apply Dev.judgeResume_keeps | with_reducible apply Dev.judgeDiscard_keeps | with_reducible apply Dev.judgeWitness_keeps | with_reducible apply Dev.judgeTwinCmd_keeps | with_reducible apply Dev.judgeTwinCfg_keeps | with_reducible apply Dev.judgeTwinRd_keeps | intro _ _ _ | intro _ _ | intro _ | with_reducible apply kept_ite | (refine WOut.of_ok (Dev.judgeTable_keeps _ _) ‹_› ?_) | split | (subst_vars; first | with_reducible assumption | with_reducible apply Dev.judgeTable_keeps | with_reducible apply Dev.judgeRepitch_keeps | with_reducible apply Dev.judgePdReq_keeps | with_reducible apply Dev.judgeResume_keeps | with_reducible apply Dev.judgeDiscard_keeps | with_reducible apply Dev.judgeWitness_keeps | with_reducible apply Dev.judgeTwinCmd_keeps | with_reducible apply Dev.judgeTwinCfg_keeps | with_reducible apply Dev.judgeTwinRd_keeps))

theorem Dev.judgeEmb_keeps (d : Dev) (c : WCtx) : (Dev.judgeEmb d c).Keeps := by
  unfold Dev.judgeEmb
  try dsimp only
  repeat' (first | with_reducible assumption | exact WOut.bad_keeps | exact WOut.none_keeps | exact WOut.unmapped_keeps | with_reducible apply WOut.ok_keeps | with_reducible apply WOut.badEff_keeps | with_reducible apply WOut.group_keeps | with_reducible apply Dev.judgeTable_keeps | with_reducible apply Dev.judgeTrim_keeps | with_reducible apply Dev.judgeWall_keeps | with_reducible apply Dev.judgeWctl_keeps | with_reducible apply Dev.judgeDst_keeps | with_reducible apply Dev.judgeWake_keeps | intro _ _ _ | intro _ _ | intro _ | with_reducible apply kept_ite | (refine WOut.of_ok (Dev.judgeTable_keeps _ _) ‹_› ?_) | split | (subst_vars; first | with_reducible assumption | with_reducible apply Dev.judgeTable_keeps | with_reducible apply Dev.judgeTrim_keeps | with_reducible apply Dev.judgeWall_keeps | with_reducible apply Dev.judgeWctl_keeps | with_reducible apply Dev.judgeDst_keeps | with_reducible apply Dev.judgeWake_keeps))

theorem Dev.judgeClg_keeps (d : Dev) (c : WCtx) : (Dev.judgeClg d c).Keeps := by
  unfold Dev.judgeClg
  repeat' (first | with_reducible assumption | exact WOut.bad_keeps | exact WOut.none_keeps | exact WOut.unmapped_keeps | with_reducible apply WOut.ok_keeps | with_reducible apply WOut.badEff_keeps | with_reducible apply WOut.group_keeps | with_reducible apply Dev.judgeTable_keeps | with_reducible apply Dev.judgeClgAck_keeps | with_reducible apply Dev.judgeRdSeq_keeps | with_reducible apply Dev.judgePushCtl_keeps | with_reducible apply Dev.judgePushCons_keeps | intro _ _ _ | intro _ _ | intro _ | with_reducible apply kept_ite | (refine WOut.of_ok (Dev.judgeTable_keeps _ _) ‹_› ?_) | split | (subst_vars; first | with_reducible assumption | with_reducible apply Dev.judgeTable_keeps | with_reducible apply Dev.judgeClgAck_keeps | with_reducible apply Dev.judgeRdSeq_keeps | with_reducible apply Dev.judgePushCtl_keeps | with_reducible apply Dev.judgePushCons_keeps))

theorem Dev.judgeCost_keeps (d : Dev) (c : WCtx) : (Dev.judgeCost d c).Keeps := by
  unfold Dev.judgeCost
  try dsimp only
  repeat' (first | with_reducible assumption | exact WOut.bad_keeps | exact WOut.none_keeps | exact WOut.unmapped_keeps | with_reducible apply WOut.ok_keeps | with_reducible apply WOut.badEff_keeps | with_reducible apply WOut.group_keeps | with_reducible apply Dev.judgeTable_keeps | with_reducible apply Dev.lsaDue_kept | with_reducible apply Dev.wr_kept | with_reducible apply kept_whenD | intro _ _ _ | intro _ _ | intro _ | (refine WOut.of_ok (Dev.judgeTable_keeps _ _) ‹_› ?_) | split | (subst_vars; first | with_reducible assumption | with_reducible apply Dev.judgeTable_keeps | with_reducible apply Dev.lsaDue_kept | with_reducible apply Dev.wr_kept))

theorem judgeSlot_keeps (n : Nat) (s : Nat) (old : W64) (c : WCtx) : (judgeSlot n s old c).Keeps := by
  unfold judgeSlot
  try dsimp only
  repeat' (first | with_reducible assumption | exact WOut.bad_keeps | exact WOut.none_keeps | exact WOut.unmapped_keeps | with_reducible apply WOut.ok_keeps | with_reducible apply WOut.badEff_keeps | with_reducible apply WOut.group_keeps | with_reducible apply Dev.slotWrite_kept | intro _ _ _ | intro _ _ | intro _ | with_reducible apply kept_ite | split)

theorem judgeRing_keeps (n : Nat) (inbox : Bool) (c : WCtx) : (judgeRing n inbox c).Keeps := by
  unfold judgeRing
  try dsimp only
  repeat' (first | with_reducible assumption | exact WOut.bad_keeps | exact WOut.none_keeps | exact WOut.unmapped_keeps | with_reducible apply WOut.ok_keeps | with_reducible apply WOut.badEff_keeps | with_reducible apply WOut.group_keeps | with_reducible apply Dev.ringInbox_kept | with_reducible apply Dev.ringOutbox_kept | intro _ _ _ | intro _ _ | intro _ | with_reducible apply kept_ite | split)

theorem Dev.judgeMbxClear_keeps (d : Dev) (n : Nat) (b : Nat) (sh : Nat) (c : WCtx) : (Dev.judgeMbxClear d n b sh c).Keeps := by
  unfold Dev.judgeMbxClear
  try dsimp only
  repeat' (first | with_reducible assumption | exact WOut.bad_keeps | exact WOut.none_keeps | exact WOut.unmapped_keeps | with_reducible apply WOut.ok_keeps | with_reducible apply WOut.badEff_keeps | with_reducible apply WOut.group_keeps | with_reducible apply Dev.isFlop_kept | intro _ _ _ | intro _ _ | intro _ | simp only [kept_ins] | split)

theorem Dev.judgeMsgCons_keeps (d : Dev) (n : Nat) (c : WCtx) : (Dev.judgeMsgCons d n c).Keeps := by
  unfold Dev.judgeMsgCons
  try dsimp only
  repeat' (first | with_reducible assumption | exact WOut.bad_keeps | exact WOut.none_keeps | exact WOut.unmapped_keeps | with_reducible apply WOut.ok_keeps | with_reducible apply WOut.badEff_keeps | with_reducible apply WOut.group_keeps | with_reducible apply Dev.isFlop_kept | intro _ _ _ | intro _ _ | intro _ | with_reducible apply kept_ite | split)

theorem Dev.judgeInst_keeps (d : Dev) (n : Nat) (c : WCtx) : (Dev.judgeInst d n c).Keeps := by
  unfold Dev.judgeInst
  try dsimp only
  repeat' (first | with_reducible assumption | exact WOut.bad_keeps | exact WOut.none_keeps | exact WOut.unmapped_keeps | with_reducible apply WOut.ok_keeps | with_reducible apply WOut.badEff_keeps | with_reducible apply WOut.group_keeps | with_reducible apply Dev.judgeTable_keeps | with_reducible apply judgeSlot_keeps | with_reducible apply judgeRing_keeps | with_reducible apply Dev.judgeMbxClear_keeps | with_reducible apply Dev.judgeMsgCons_keeps | intro _ _ _ | intro _ _ | intro _ | with_reducible apply kept_ite | (refine WOut.of_ok (Dev.judgeTable_keeps _ _) ‹_› ?_) | split | (subst_vars; first | with_reducible assumption | with_reducible apply Dev.judgeTable_keeps | with_reducible apply judgeSlot_keeps | with_reducible apply judgeRing_keeps | with_reducible apply Dev.judgeMbxClear_keeps | with_reducible apply Dev.judgeMsgCons_keeps))

theorem Dev.judgeIns_keeps (d : Dev) (c : WCtx) : (Dev.judgeIns d c).Keeps := by
  unfold Dev.judgeIns
  repeat' (first | with_reducible assumption | exact WOut.bad_keeps | exact WOut.none_keeps | exact WOut.unmapped_keeps | with_reducible apply WOut.ok_keeps | with_reducible apply WOut.badEff_keeps | with_reducible apply WOut.group_keeps | with_reducible apply Dev.judgeTable_keeps | with_reducible apply Dev.judgeInsCmd_keeps | with_reducible apply Dev.judgeDlCmd_keeps | with_reducible apply Dev.judgeBucket_keeps | with_reducible apply Dev.judgeInst_keeps | intro _ _ _ | intro _ _ | intro _ | with_reducible apply kept_ite | (refine WOut.of_ok (Dev.judgeTable_keeps _ _) ‹_› ?_) | split | (subst_vars; first | with_reducible assumption | with_reducible apply Dev.judgeTable_keeps | with_reducible apply Dev.judgeInsCmd_keeps | with_reducible apply Dev.judgeDlCmd_keeps | with_reducible apply Dev.judgeBucket_keeps | with_reducible apply Dev.judgeInst_keeps))

theorem Dev.judgeOf_keeps (d : Dev) (pty : Party) (c : WCtx) : (Dev.judgeOf d pty c).Keeps := by
  unfold Dev.judgeOf
  dsimp only
  by_cases h0 : resHalf c.off = true
  · rw [if_pos h0]; exact WOut.none_keeps
  rw [if_neg h0]
  refine keeps_ite (Dev.judgePit_keeps _ _) (keeps_ite (Dev.judgeEmb_keeps _ _) (keeps_ite (Dev.judgeClg_keeps _ _) (keeps_ite (Dev.judgeFwt_keeps _ _) (keeps_ite (Dev.judgeLic_keeps _ _) (keeps_ite (Dev.judgeDbg_keeps _ _) (keeps_ite (keeps_ite (Dev.judgePhyCfg_keeps _ _ _) (keeps_ite (Dev.judgeEye_keeps _ _ _) (Dev.judgeTable_keeps _ _))) (keeps_ite (Dev.judgeCost_keeps _ _) (keeps_ite (Dev.judgePfVectors_keeps _ _) (keeps_ite (Dev.judgeWinCmd_keeps _ _) (keeps_ite (Dev.judgeIns_keeps _ _) (Dev.judgeTable_keeps _ _)))))))))))

theorem Dev.oneWrite_kept {a d : Dev} (h : Kept a d) (pty : Party) (off : Nat) (wide : Bool) (be : Nat) (data : W64) : Kept a (Dev.oneWrite d pty off wide be data).1 := by
  unfold Dev.oneWrite
  try dsimp only
  repeat' (first | with_reducible assumption | exact WOut.bad_keeps | exact WOut.none_keeps | exact WOut.unmapped_keeps | with_reducible apply WOut.ok_keeps | with_reducible apply Dev.regCmdS_kept | with_reducible apply Dev.endFreeze_kept | with_reducible apply Dev.judgeToken_keeps | with_reducible apply Dev.judgeOf_keeps | with_reducible apply kept_whenD | intro _ _ _ | intro _ _ | intro _ | with_reducible apply kept_ite | split)

theorem Dev.pfWrite_kept {a d : Dev} (h : Kept a d) (pty : Party) (off : Nat) (size8 : Bool) (be : Nat) (data : W64) : Kept a (Dev.pfWrite d pty off size8 be data).1 := by
  unfold Dev.pfWrite
  try dsimp only
  repeat' (first | with_reducible assumption | with_reducible apply Dev.oneWrite_kept | with_reducible apply kept_foldl | with_reducible apply kept_foldl_fst | with_reducible apply kept_foldl_snd | intro _ _ _ | intro _ _ | intro _ | with_reducible apply kept_ite | split)

theorem Dev.judgeVf_keeps (d : Dev) (n : Nat) (c : WCtx) : (Dev.judgeVf d n c).Keeps := by
  unfold Dev.judgeVf
  repeat' (first | with_reducible assumption | exact WOut.bad_keeps | exact WOut.none_keeps | exact WOut.unmapped_keeps | with_reducible apply WOut.ok_keeps | with_reducible apply WOut.badEff_keeps | with_reducible apply WOut.group_keeps | with_reducible apply judgeSlot_keeps | with_reducible apply judgeRing_keeps | with_reducible apply Dev.judgeMbxClear_keeps | with_reducible apply Dev.judgeMsgCons_keeps | intro _ _ _ | intro _ _ | intro _ | with_reducible apply kept_ite | split)

theorem Dev.vfOne_kept {a d : Dev} (h : Kept a d) (n : Nat) (off : Nat) (wide : Bool) (be : Nat) (data : W64) : Kept a (Dev.vfOne d n off wide be data) := by
  unfold Dev.vfOne
  try dsimp only
  repeat' (first | with_reducible assumption | exact WOut.bad_keeps | exact WOut.none_keeps | exact WOut.unmapped_keeps | with_reducible apply WOut.ok_keeps | with_reducible apply Dev.aerUr_kept | with_reducible apply Dev.commitS_kept | with_reducible apply Dev.hold_kept | with_reducible apply Dev.judgeVf_keeps | intro _ _ _ | intro _ _ | intro _ | with_reducible apply kept_ite | split)

theorem Dev.vfWrite_kept {a d : Dev} (h : Kept a d) (n : Nat) (off : Nat) (size8 : Bool) (be : Nat) (data : W64) : Kept a (Dev.vfWrite d n off size8 be data) := by
  unfold Dev.vfWrite
  try dsimp only
  repeat' (first | with_reducible assumption | with_reducible apply Dev.vfOne_kept | with_reducible apply kept_each | intro _ _ _ | intro _ _ | intro _ | with_reducible apply kept_ite | split)

theorem Dev.memEnabled_kept {a d : Dev} (h : Kept a d) (a_ : Nat) (bs : List Byte) (be : List Bool) : Kept a (Dev.memEnabled d a_ bs be) := by
  unfold Dev.memEnabled
  try dsimp only
  repeat' (first | with_reducible assumption | with_reducible apply Dev.memWr_kept | with_reducible apply Dev.stoMove_kept | with_reducible apply Dev.memStore_kept | with_reducible apply kept_id | with_reducible apply kept_foldl | with_reducible apply kept_foldl_fst | with_reducible apply kept_foldl_snd | intro _ _ _ | intro _ _ | intro _ | with_reducible apply kept_ite | simp only [kept_same] | split)

theorem Dev.commons_kept {a d : Dev} (h : Kept a d) (pty : Party) (off : Nat) (write : Bool) (length : Nat) (bytes : List Byte) (be : List Bool) : Kept a (Dev.commons d pty off write length bytes be) := by
  unfold Dev.commons
  try dsimp only
  repeat' (first | with_reducible assumption | exact WOut.bad_keeps | exact WOut.none_keeps | exact WOut.unmapped_keeps | with_reducible apply WOut.ok_keeps | with_reducible apply Dev.emit_kept | with_reducible apply Dev.stoMove_kept | with_reducible apply Dev.aerUr_kept | with_reducible apply Dev.commitS_kept | with_reducible apply Dev.hold_kept | with_reducible apply Dev.memEnabled_kept | intro _ _ _ | intro _ _ | intro _ | with_reducible apply kept_ite | split)

theorem Dev.barWrite_kept {a d : Dev} (h : Kept a d) (pty : Party) (off : Nat) (size8 : Bool) (be : Nat) (data : W64) : Kept a (Dev.barWrite d pty off size8 be data) := by
  unfold Dev.barWrite
  try dsimp only
  repeat' (first | with_reducible assumption | exact WOut.bad_keeps | exact WOut.none_keeps | exact WOut.unmapped_keeps | with_reducible apply WOut.ok_keeps | with_reducible apply Dev.aerUr_kept | with_reducible apply Dev.commitS_kept | with_reducible apply Dev.pfWrite_kept | with_reducible apply Dev.vfWrite_kept | with_reducible apply Dev.commons_kept | intro _ _ _ | intro _ _ | intro _ | with_reducible apply kept_ite | split)

theorem Dev.hostRead_kept {a d : Dev} (h : Kept a d) (off : Nat) (wide : Bool) : Kept a (Dev.hostRead d off wide) := by
  unfold Dev.hostRead
  try dsimp only
  repeat' (first | with_reducible assumption | with_reducible apply Dev.emit_kept | with_reducible apply Dev.aerUr_kept | with_reducible apply Dev.readEff_kept | with_reducible apply kept_ite | split)

theorem Dev.cresp_kept {a d : Dev} (h : Kept a d) (p : LPort) (m : CtlMsg) (status : Nat) (data : W64) : Kept a (Dev.cresp d p m status data) := by
  unfold Dev.cresp
  repeat' (first | with_reducible assumption | with_reducible apply Dev.enqueue_kept)

theorem Dev.crespFree_kept {a d : Dev} (h : Kept a d) (p : LPort) (m : CtlMsg) (status : Nat) : Kept a (Dev.crespFree d p m status) := by
  unfold Dev.crespFree
  try dsimp only
  repeat' (first | with_reducible assumption | with_reducible apply Dev.takeFree_kept | with_reducible apply Dev.cresp_kept)

theorem Dev.localPeek_kept {a d : Dev} (h : Kept a d) (p : LPort) (core : Option Nat) (off : Nat) (wide : Bool) : Kept a (Dev.localPeek d p core off wide).1 := by
  unfold Dev.localPeek
  try dsimp only
  repeat' (first | with_reducible assumption | with_reducible apply Dev.claim_kept | with_reducible apply Dev.readEff_kept | with_reducible apply kept_ite | split)

theorem Dev.ctlRead_kept {a d : Dev} (h : Kept a d) (p : LPort) (core : Option Nat) (off : Nat) (n : Nat) : Kept a (Dev.ctlRead d p core off n).1 := by
  unfold Dev.ctlRead
  try dsimp only
  repeat' (first | with_reducible assumption | with_reducible apply Dev.localPeek_kept | with_reducible apply kept_foldl | with_reducible apply kept_foldl_fst | with_reducible apply kept_foldl_snd | intro _ _ _ | intro _ _ | intro _ | with_reducible apply kept_ite | split)

theorem Dev.badCtl_kept {a d : Dev} (h : Kept a d) (p : LPort) : Kept a (Dev.badCtl d p) := by
  unfold Dev.badCtl
  repeat' (first | with_reducible assumption | with_reducible apply Dev.bump_kept | with_reducible apply Dev.raise_kept)

theorem Dev.ctlDo_kept {a d : Dev} (h : Kept a d) (p : LPort) (m : CtlMsg) : Kept a (Dev.ctlDo d p m) := by
  unfold Dev.ctlDo
  try dsimp only
  repeat' (first | with_reducible assumption | with_reducible apply Dev.hold_kept | with_reducible apply Dev.raiseMsg_kept | with_reducible apply Dev.pfWrite_kept | with_reducible apply Dev.cresp_kept | with_reducible apply Dev.crespFree_kept | with_reducible apply Dev.ctlRead_kept | with_reducible apply Dev.badCtl_kept | with_reducible apply kept_ite | split)

theorem Dev.ctlRefused_kept {a d : Dev} (h : Kept a d) (p : LPort) (m : CtlMsg) : Kept a (Dev.ctlRefused d p m) := by
  unfold Dev.ctlRefused
  repeat' (first | with_reducible assumption | with_reducible apply Dev.lostPosted_kept | with_reducible apply Dev.crespFree_kept | with_reducible apply Dev.badCtl_kept | with_reducible apply kept_ite | split)

theorem Dev.ctlMsg_kept {a d : Dev} (h : Kept a d) (p : LPort) (m : CtlMsg) : Kept a (Dev.ctlMsg d p m) := by
  unfold Dev.ctlMsg
  try dsimp only
  repeat' (first | with_reducible assumption | with_reducible apply Dev.hold_kept | with_reducible apply Dev.consumeRaw_kept | with_reducible apply Dev.ctlDo_kept | with_reducible apply Dev.ctlRefused_kept | with_reducible apply kept_ite | split)

theorem Dev.readBy_kept {a d : Dev} (h : Kept a d) (pty : Party) (off : Nat) : Kept a (Dev.readBy d pty off) := by
  unfold Dev.readBy
  try dsimp only
  repeat' (first | with_reducible assumption | with_reducible apply Dev.hold_kept | with_reducible apply Dev.hostRead_kept | with_reducible apply Dev.localPeek_kept | intro _ _ _ | intro _ _ | intro _ | with_reducible apply kept_ite | split)

theorem Dev.claimRead_kept {a d : Dev} (h : Kept a d) (pty : Party) (c : Fin 16) : Kept a (Dev.claimRead d pty c) := by
  unfold Dev.claimRead
  try dsimp only
  repeat' (first | with_reducible assumption | with_reducible apply Dev.hold_kept | with_reducible apply Dev.claim_kept | with_reducible apply Dev.hostRead_kept | with_reducible apply kept_ite | split)

theorem Dev.heldDo_kept {a d : Dev} (h : Kept a d) (h_ : Held) : Kept a (Dev.heldDo d h_) := by
  unfold Dev.heldDo
  try dsimp only
  repeat' (first | with_reducible assumption | with_reducible apply Dev.claim_kept | with_reducible apply Dev.oneWrite_kept | with_reducible apply Dev.vfOne_kept | with_reducible apply Dev.commons_kept | with_reducible apply Dev.ctlMsg_kept | with_reducible apply Dev.readBy_kept | with_reducible apply Dev.claimRead_kept | split)

theorem Dev.heldRun_kept {a d : Dev} (h : Kept a d) : Kept a (Dev.heldRun d) := by
  unfold Dev.heldRun
  try dsimp only
  repeat' (first | with_reducible assumption | with_reducible apply Dev.hold_kept | with_reducible apply Dev.heldDo_kept | with_reducible apply kept_each | intro _ _ _ | intro _ _ | intro _ | with_reducible apply kept_ite | simp only [kept_same] | split)

theorem Dev.settle_kept {a d : Dev} (h : Kept a d) (old : Dev) : Kept a (Dev.settle d old) := by
  unfold Dev.settle
  try dsimp only
  repeat' (first | with_reducible assumption | with_reducible apply Dev.pumpFences_kept | with_reducible apply Dev.gcLines_kept | with_reducible apply Dev.stallRun_kept | with_reducible apply Dev.licChoose_kept | with_reducible apply Dev.pitchHook_kept | with_reducible apply Dev.shadowUnits_kept | with_reducible apply Dev.epochFull_kept | with_reducible apply Dev.twinAnswers_kept | with_reducible apply Dev.fwtRun_kept | with_reducible apply Dev.heldRun_kept)

theorem Dev.controlWrite_kept {a d : Dev} (h : Kept a d) (a_ : Access) : Kept a (Dev.controlWrite d a_) := by
  unfold Dev.controlWrite
  try dsimp only
  repeat' (first | with_reducible assumption | with_reducible apply Dev.hostPoison_kept | with_reducible apply Dev.msixWrite_kept | with_reducible apply Dev.cfgWrite_kept | with_reducible apply Dev.barWrite_kept | with_reducible apply kept_ite | split)

theorem Dev.admission_kept {a d : Dev} (h : Kept a d) (r : AdmRes) : Kept a (Dev.admission d r) := by
  unfold Dev.admission
  try dsimp only
  repeat' (first | with_reducible assumption | with_reducible apply Dev.pumpHost_kept | with_reducible apply Dev.pump_kept | with_reducible apply Dev.pumpLocal_kept | split)

theorem Dev.freeSrcLane_kept {a d : Dev} (h : Kept a d) (lane : Nat) : Kept a (Dev.freeSrcLane d lane) := by
  unfold Dev.freeSrcLane
  repeat' (first | with_reducible assumption | simp only [kept_same])

theorem Dev.freeStream_kept {a d : Dev} (h : Kept a d) (key : Nat) : Kept a (Dev.freeStream d key) := by
  unfold Dev.freeStream
  repeat' (first | with_reducible assumption | simp only [kept_same])

theorem Dev.tagExpired_kept {a d : Dev} (h : Kept a d) (t : Nat) : Kept a (Dev.tagExpired d t) := by
  unfold Dev.tagExpired
  try dsimp only
  repeat' (first | with_reducible assumption | with_reducible apply Dev.bump_kept | with_reducible apply Dev.raise_kept | with_reducible apply Dev.endTag_kept | with_reducible apply Dev.pump_kept | split)

theorem Dev.lineTimeout_kept {a d : Dev} (h : Kept a d) (fn : Nat) (off : Nat) : Kept a (Dev.lineTimeout d fn off) := by
  unfold Dev.lineTimeout
  try dsimp only
  repeat' (first | with_reducible assumption | with_reducible apply Dev.flushTo_kept | intro _ _ _ | intro _ _ | intro _ | split)

theorem Dev.slotCmd_kept {a d : Dev} (h : Kept a d) (pty : Party) (n : InstNo) (slot : Nat) (data : W64) : Kept a (Dev.slotCmd d pty n slot data) := by
  unfold Dev.slotCmd
  try dsimp only
  repeat' (first | with_reducible assumption | with_reducible apply Dev.pfWrite_kept | with_reducible apply Dev.vfWrite_kept | with_reducible apply kept_ite | split)

theorem Dev.consCmd_kept {a d : Dev} (h : Kept a d) (pty : Party) (n : InstNo) (be : Nat) (cons : W32) : Kept a (Dev.consCmd d pty n be cons) := by
  unfold Dev.consCmd
  try dsimp only
  repeat' (first | with_reducible assumption | with_reducible apply Dev.pfWrite_kept | with_reducible apply Dev.vfWrite_kept | with_reducible apply kept_ite | split)

theorem Dev.sourceAsserts_kept {a d : Dev} (h : Kept a d) (n : Nat) (level : Bool) (port : Nat) : Kept a (Dev.sourceAsserts d n level port) := by
  unfold Dev.sourceAsserts
  repeat' (first | with_reducible assumption | simp only [kept_same])

theorem Dev.quietEnds_kept {a d : Dev} (h : Kept a d) : Kept a (Dev.quietEnds d) := by
  unfold Dev.quietEnds
  repeat' (first | with_reducible assumption | simp only [kept_same])

theorem Dev.initCmd_kept {a d : Dev} (h : Kept a d) (p : Nat) (f : Flit) : Kept a (Dev.initCmd d p f) := by
  unfold Dev.initCmd
  try dsimp only
  repeat' (first | with_reducible assumption | with_reducible apply Dev.initIn_kept | with_reducible apply Dev.twinFresh_kept | with_reducible apply kept_whenD | intro _ _ _ | intro _ _ | intro _)

theorem Dev.eventTick_kept {a d : Dev} (h : Kept a d) : Kept a (Dev.eventTick d) := by
  unfold Dev.eventTick
  repeat' (first | with_reducible assumption | with_reducible apply Dev.s_kept | with_reducible apply kept_ite | split)

theorem Dev.tick_kept {a d : Dev} (h : Kept a d) : Kept a (Dev.tick d) := by
  exact Dev.stallTick_kept (Dev.calTick_kept (Dev.pdLeaving_kept (Dev.eventTick_kept (Dev.emberTick_kept ⟨h.serial, Nat.le_trans h.now (Nat.le_succ _), h.free, h.out, h.regs, h.mem⟩))))

end Sys2Proof.Machine
end

