-- ==== Sys2Proof/Laws/State.lean ====
section
/-! SUPPORT. The fields of the device after the named updates: one lemma per field per update, true by unfolding. -/
namespace Sys2Proof.Machine

variable (d : Dev) (off n : Nat) (v : W64) (f : Fld) (b : Bool) (o : Out)

@[simp] theorem Dev.wr_regs : (d.wr off v).regs = d.regs.ins off v := rfl
@[simp] theorem Dev.wr_emb : (d.wr off v).emb = d.emb := rfl
@[simp] theorem Dev.wr_pins : (d.wr off v).pins = d.pins := rfl
@[simp] theorem Dev.wr_pit : (d.wr off v).pit = d.pit := rfl
@[simp] theorem Dev.wr_pd : (d.wr off v).pd = d.pd := rfl
@[simp] theorem Dev.wr_sto : (d.wr off v).sto = d.sto := rfl
@[simp] theorem Dev.wr_ports : (d.wr off v).ports = d.ports := rfl
@[simp] theorem Dev.wr_net : (d.wr off v).net = d.net := rfl
@[simp] theorem Dev.wr_trn : (d.wr off v).trn = d.trn := rfl
@[simp] theorem Dev.wr_hst : (d.wr off v).hst = d.hst := rfl
@[simp] theorem Dev.wr_win : (d.wr off v).win = d.win := rfl
@[simp] theorem Dev.wr_ins : (d.wr off v).ins = d.ins := rfl
@[simp] theorem Dev.wr_iso : (d.wr off v).iso = d.iso := rfl
@[simp] theorem Dev.wr_lic : (d.wr off v).lic = d.lic := rfl
@[simp] theorem Dev.wr_fwt : (d.wr off v).fwt = d.fwt := rfl
@[simp] theorem Dev.wr_clg : (d.wr off v).clg = d.clg := rfl
@[simp] theorem Dev.wr_bvc : (d.wr off v).bvc = d.bvc := rfl
@[simp] theorem Dev.wr_twin : (d.wr off v).twin = d.twin := rfl
@[simp] theorem Dev.wr_held : (d.wr off v).held = d.held := rfl
@[simp] theorem Dev.wr_out : (d.wr off v).out = d.out := rfl
@[simp] theorem Dev.wr_free : (d.wr off v).free = d.free := rfl
@[simp] theorem Dev.wr_now : (d.wr off v).now = d.now := rfl
@[simp] theorem Dev.wr_serial : (d.wr off v).serial = d.serial := rfl
@[simp] theorem Dev.wr_codes : (d.wr off v).codes = d.codes := rfl

@[simp] theorem Dev.unset_regs : (d.unset off).regs = d.regs.del off := rfl
@[simp] theorem Dev.unset_emb : (d.unset off).emb = d.emb := rfl
@[simp] theorem Dev.unset_pins : (d.unset off).pins = d.pins := rfl
@[simp] theorem Dev.unset_pit : (d.unset off).pit = d.pit := rfl
@[simp] theorem Dev.unset_pd : (d.unset off).pd = d.pd := rfl
@[simp] theorem Dev.unset_sto : (d.unset off).sto = d.sto := rfl
@[simp] theorem Dev.unset_ports : (d.unset off).ports = d.ports := rfl
@[simp] theorem Dev.unset_net : (d.unset off).net = d.net := rfl
@[simp] theorem Dev.unset_trn : (d.unset off).trn = d.trn := rfl
@[simp] theorem Dev.unset_hst : (d.unset off).hst = d.hst := rfl
@[simp] theorem Dev.unset_win : (d.unset off).win = d.win := rfl
@[simp] theorem Dev.unset_ins : (d.unset off).ins = d.ins := rfl
@[simp] theorem Dev.unset_iso : (d.unset off).iso = d.iso := rfl
@[simp] theorem Dev.unset_lic : (d.unset off).lic = d.lic := rfl
@[simp] theorem Dev.unset_fwt : (d.unset off).fwt = d.fwt := rfl
@[simp] theorem Dev.unset_clg : (d.unset off).clg = d.clg := rfl
@[simp] theorem Dev.unset_bvc : (d.unset off).bvc = d.bvc := rfl
@[simp] theorem Dev.unset_twin : (d.unset off).twin = d.twin := rfl
@[simp] theorem Dev.unset_held : (d.unset off).held = d.held := rfl
@[simp] theorem Dev.unset_out : (d.unset off).out = d.out := rfl
@[simp] theorem Dev.unset_free : (d.unset off).free = d.free := rfl
@[simp] theorem Dev.unset_now : (d.unset off).now = d.now := rfl
@[simp] theorem Dev.unset_serial : (d.unset off).serial = d.serial := rfl
@[simp] theorem Dev.unset_codes : (d.unset off).codes = d.codes := rfl

@[simp] theorem Dev.s_emb : (d.s f n).emb = d.emb := rfl
@[simp] theorem Dev.s_pins : (d.s f n).pins = d.pins := rfl
@[simp] theorem Dev.s_pit : (d.s f n).pit = d.pit := rfl
@[simp] theorem Dev.s_pd : (d.s f n).pd = d.pd := rfl
@[simp] theorem Dev.s_sto : (d.s f n).sto = d.sto := rfl
@[simp] theorem Dev.s_ports : (d.s f n).ports = d.ports := rfl
@[simp] theorem Dev.s_net : (d.s f n).net = d.net := rfl
@[simp] theorem Dev.s_trn : (d.s f n).trn = d.trn := rfl
@[simp] theorem Dev.s_hst : (d.s f n).hst = d.hst := rfl
@[simp] theorem Dev.s_win : (d.s f n).win = d.win := rfl
@[simp] theorem Dev.s_ins : (d.s f n).ins = d.ins := rfl
@[simp] theorem Dev.s_iso : (d.s f n).iso = d.iso := rfl
@[simp] theorem Dev.s_lic : (d.s f n).lic = d.lic := rfl
@[simp] theorem Dev.s_fwt : (d.s f n).fwt = d.fwt := rfl
@[simp] theorem Dev.s_clg : (d.s f n).clg = d.clg := rfl
@[simp] theorem Dev.s_bvc : (d.s f n).bvc = d.bvc := rfl
@[simp] theorem Dev.s_twin : (d.s f n).twin = d.twin := rfl
@[simp] theorem Dev.s_held : (d.s f n).held = d.held := rfl
@[simp] theorem Dev.s_out : (d.s f n).out = d.out := rfl
@[simp] theorem Dev.s_free : (d.s f n).free = d.free := rfl
@[simp] theorem Dev.s_now : (d.s f n).now = d.now := rfl
@[simp] theorem Dev.s_serial : (d.s f n).serial = d.serial := rfl
@[simp] theorem Dev.s_codes : (d.s f n).codes = d.codes := rfl

@[simp] theorem Dev.sb_emb : (d.sb f b).emb = d.emb := rfl
@[simp] theorem Dev.sb_pins : (d.sb f b).pins = d.pins := rfl
@[simp] theorem Dev.sb_pit : (d.sb f b).pit = d.pit := rfl
@[simp] theorem Dev.sb_pd : (d.sb f b).pd = d.pd := rfl
@[simp] theorem Dev.sb_sto : (d.sb f b).sto = d.sto := rfl
@[simp] theorem Dev.sb_ports : (d.sb f b).ports = d.ports := rfl
@[simp] theorem Dev.sb_net : (d.sb f b).net = d.net := rfl
@[simp] theorem Dev.sb_trn : (d.sb f b).trn = d.trn := rfl
@[simp] theorem Dev.sb_hst : (d.sb f b).hst = d.hst := rfl
@[simp] theorem Dev.sb_win : (d.sb f b).win = d.win := rfl
@[simp] theorem Dev.sb_ins : (d.sb f b).ins = d.ins := rfl
@[simp] theorem Dev.sb_iso : (d.sb f b).iso = d.iso := rfl
@[simp] theorem Dev.sb_lic : (d.sb f b).lic = d.lic := rfl
@[simp] theorem Dev.sb_fwt : (d.sb f b).fwt = d.fwt := rfl
@[simp] theorem Dev.sb_clg : (d.sb f b).clg = d.clg := rfl
@[simp] theorem Dev.sb_bvc : (d.sb f b).bvc = d.bvc := rfl
@[simp] theorem Dev.sb_twin : (d.sb f b).twin = d.twin := rfl
@[simp] theorem Dev.sb_held : (d.sb f b).held = d.held := rfl
@[simp] theorem Dev.sb_out : (d.sb f b).out = d.out := rfl
@[simp] theorem Dev.sb_free : (d.sb f b).free = d.free := rfl
@[simp] theorem Dev.sb_now : (d.sb f b).now = d.now := rfl
@[simp] theorem Dev.sb_serial : (d.sb f b).serial = d.serial := rfl
@[simp] theorem Dev.sb_codes : (d.sb f b).codes = d.codes := rfl

@[simp] theorem Dev.bumpBy_emb : (d.bumpBy f n).emb = d.emb := rfl
@[simp] theorem Dev.bumpBy_pins : (d.bumpBy f n).pins = d.pins := rfl
@[simp] theorem Dev.bumpBy_pit : (d.bumpBy f n).pit = d.pit := rfl
@[simp] theorem Dev.bumpBy_pd : (d.bumpBy f n).pd = d.pd := rfl
@[simp] theorem Dev.bumpBy_sto : (d.bumpBy f n).sto = d.sto := rfl
@[simp] theorem Dev.bumpBy_ports : (d.bumpBy f n).ports = d.ports := rfl
@[simp] theorem Dev.bumpBy_net : (d.bumpBy f n).net = d.net := rfl
@[simp] theorem Dev.bumpBy_trn : (d.bumpBy f n).trn = d.trn := rfl
@[simp] theorem Dev.bumpBy_hst : (d.bumpBy f n).hst = d.hst := rfl
@[simp] theorem Dev.bumpBy_win : (d.bumpBy f n).win = d.win := rfl
@[simp] theorem Dev.bumpBy_ins : (d.bumpBy f n).ins = d.ins := rfl
@[simp] theorem Dev.bumpBy_iso : (d.bumpBy f n).iso = d.iso := rfl
@[simp] theorem Dev.bumpBy_lic : (d.bumpBy f n).lic = d.lic := rfl
@[simp] theorem Dev.bumpBy_fwt : (d.bumpBy f n).fwt = d.fwt := rfl
@[simp] theorem Dev.bumpBy_clg : (d.bumpBy f n).clg = d.clg := rfl
@[simp] theorem Dev.bumpBy_bvc : (d.bumpBy f n).bvc = d.bvc := rfl
@[simp] theorem Dev.bumpBy_twin : (d.bumpBy f n).twin = d.twin := rfl
@[simp] theorem Dev.bumpBy_held : (d.bumpBy f n).held = d.held := rfl
@[simp] theorem Dev.bumpBy_out : (d.bumpBy f n).out = d.out := rfl
@[simp] theorem Dev.bumpBy_free : (d.bumpBy f n).free = d.free := rfl
@[simp] theorem Dev.bumpBy_now : (d.bumpBy f n).now = d.now := rfl
@[simp] theorem Dev.bumpBy_serial : (d.bumpBy f n).serial = d.serial := rfl
@[simp] theorem Dev.bumpBy_codes : (d.bumpBy f n).codes = d.codes := rfl

@[simp] theorem Dev.bump_emb : (d.bump f).emb = d.emb := rfl
@[simp] theorem Dev.bump_pins : (d.bump f).pins = d.pins := rfl
@[simp] theorem Dev.bump_pit : (d.bump f).pit = d.pit := rfl
@[simp] theorem Dev.bump_pd : (d.bump f).pd = d.pd := rfl
@[simp] theorem Dev.bump_sto : (d.bump f).sto = d.sto := rfl
@[simp] theorem Dev.bump_ports : (d.bump f).ports = d.ports := rfl
@[simp] theorem Dev.bump_net : (d.bump f).net = d.net := rfl
@[simp] theorem Dev.bump_trn : (d.bump f).trn = d.trn := rfl
@[simp] theorem Dev.bump_hst : (d.bump f).hst = d.hst := rfl
@[simp] theorem Dev.bump_win : (d.bump f).win = d.win := rfl
@[simp] theorem Dev.bump_ins : (d.bump f).ins = d.ins := rfl
@[simp] theorem Dev.bump_iso : (d.bump f).iso = d.iso := rfl
@[simp] theorem Dev.bump_lic : (d.bump f).lic = d.lic := rfl
@[simp] theorem Dev.bump_fwt : (d.bump f).fwt = d.fwt := rfl
@[simp] theorem Dev.bump_clg : (d.bump f).clg = d.clg := rfl
@[simp] theorem Dev.bump_bvc : (d.bump f).bvc = d.bvc := rfl
@[simp] theorem Dev.bump_twin : (d.bump f).twin = d.twin := rfl
@[simp] theorem Dev.bump_held : (d.bump f).held = d.held := rfl
@[simp] theorem Dev.bump_out : (d.bump f).out = d.out := rfl
@[simp] theorem Dev.bump_free : (d.bump f).free = d.free := rfl
@[simp] theorem Dev.bump_now : (d.bump f).now = d.now := rfl
@[simp] theorem Dev.bump_serial : (d.bump f).serial = d.serial := rfl
@[simp] theorem Dev.bump_codes : (d.bump f).codes = d.codes := rfl

@[simp] theorem Dev.setBkp_emb : (d.setBkp off n).emb = d.emb := rfl
@[simp] theorem Dev.setBkp_pins : (d.setBkp off n).pins = d.pins := rfl
@[simp] theorem Dev.setBkp_pit : (d.setBkp off n).pit = d.pit := rfl
@[simp] theorem Dev.setBkp_pd : (d.setBkp off n).pd = d.pd := rfl
@[simp] theorem Dev.setBkp_sto : (d.setBkp off n).sto = d.sto := rfl
@[simp] theorem Dev.setBkp_ports : (d.setBkp off n).ports = d.ports := rfl
@[simp] theorem Dev.setBkp_net : (d.setBkp off n).net = d.net := rfl
@[simp] theorem Dev.setBkp_trn : (d.setBkp off n).trn = d.trn := rfl
@[simp] theorem Dev.setBkp_hst : (d.setBkp off n).hst = d.hst := rfl
@[simp] theorem Dev.setBkp_win : (d.setBkp off n).win = d.win := rfl
@[simp] theorem Dev.setBkp_ins : (d.setBkp off n).ins = d.ins := rfl
@[simp] theorem Dev.setBkp_iso : (d.setBkp off n).iso = d.iso := rfl
@[simp] theorem Dev.setBkp_lic : (d.setBkp off n).lic = d.lic := rfl
@[simp] theorem Dev.setBkp_fwt : (d.setBkp off n).fwt = d.fwt := rfl
@[simp] theorem Dev.setBkp_clg : (d.setBkp off n).clg = d.clg := rfl
@[simp] theorem Dev.setBkp_bvc : (d.setBkp off n).bvc = d.bvc := rfl
@[simp] theorem Dev.setBkp_twin : (d.setBkp off n).twin = d.twin := rfl
@[simp] theorem Dev.setBkp_held : (d.setBkp off n).held = d.held := rfl
@[simp] theorem Dev.setBkp_out : (d.setBkp off n).out = d.out := rfl
@[simp] theorem Dev.setBkp_free : (d.setBkp off n).free = d.free := rfl
@[simp] theorem Dev.setBkp_now : (d.setBkp off n).now = d.now := rfl
@[simp] theorem Dev.setBkp_serial : (d.setBkp off n).serial = d.serial := rfl
@[simp] theorem Dev.setBkp_codes : (d.setBkp off n).codes = d.codes := rfl

@[simp] theorem Dev.emit_regs : (d.emit o).regs = d.regs := rfl
@[simp] theorem Dev.emit_emb : (d.emit o).emb = d.emb := rfl
@[simp] theorem Dev.emit_pins : (d.emit o).pins = d.pins := rfl
@[simp] theorem Dev.emit_pit : (d.emit o).pit = d.pit := rfl
@[simp] theorem Dev.emit_pd : (d.emit o).pd = d.pd := rfl
@[simp] theorem Dev.emit_sto : (d.emit o).sto = d.sto := rfl
@[simp] theorem Dev.emit_ports : (d.emit o).ports = d.ports := rfl
@[simp] theorem Dev.emit_net : (d.emit o).net = d.net := rfl
@[simp] theorem Dev.emit_trn : (d.emit o).trn = d.trn := rfl
@[simp] theorem Dev.emit_hst : (d.emit o).hst = d.hst := rfl
@[simp] theorem Dev.emit_win : (d.emit o).win = d.win := rfl
@[simp] theorem Dev.emit_ins : (d.emit o).ins = d.ins := rfl
@[simp] theorem Dev.emit_iso : (d.emit o).iso = d.iso := rfl
@[simp] theorem Dev.emit_lic : (d.emit o).lic = d.lic := rfl
@[simp] theorem Dev.emit_fwt : (d.emit o).fwt = d.fwt := rfl
@[simp] theorem Dev.emit_clg : (d.emit o).clg = d.clg := rfl
@[simp] theorem Dev.emit_bvc : (d.emit o).bvc = d.bvc := rfl
@[simp] theorem Dev.emit_twin : (d.emit o).twin = d.twin := rfl
@[simp] theorem Dev.emit_held : (d.emit o).held = d.held := rfl
@[simp] theorem Dev.emit_out : (d.emit o).out = d.out ++ [o] := rfl
@[simp] theorem Dev.emit_free : (d.emit o).free = d.free := rfl
@[simp] theorem Dev.emit_now : (d.emit o).now = d.now := rfl
@[simp] theorem Dev.emit_serial : (d.emit o).serial = d.serial := rfl
@[simp] theorem Dev.emit_codes : (d.emit o).codes = d.codes := rfl

@[simp] theorem Dev.raise_regs : (d.raise n).regs = d.regs := rfl
@[simp] theorem Dev.raise_emb : (d.raise n).emb = d.emb := rfl
@[simp] theorem Dev.raise_pins : (d.raise n).pins = d.pins := rfl
@[simp] theorem Dev.raise_pit : (d.raise n).pit = d.pit := rfl
@[simp] theorem Dev.raise_pd : (d.raise n).pd = d.pd := rfl
@[simp] theorem Dev.raise_sto : (d.raise n).sto = d.sto := rfl
@[simp] theorem Dev.raise_ports : (d.raise n).ports = d.ports := rfl
@[simp] theorem Dev.raise_net : (d.raise n).net = d.net := rfl
@[simp] theorem Dev.raise_trn : (d.raise n).trn = d.trn := rfl
@[simp] theorem Dev.raise_hst : (d.raise n).hst = d.hst := rfl
@[simp] theorem Dev.raise_win : (d.raise n).win = d.win := rfl
@[simp] theorem Dev.raise_ins : (d.raise n).ins = d.ins := rfl
@[simp] theorem Dev.raise_iso : (d.raise n).iso = d.iso := rfl
@[simp] theorem Dev.raise_lic : (d.raise n).lic = d.lic := rfl
@[simp] theorem Dev.raise_clg : (d.raise n).clg = d.clg := rfl
@[simp] theorem Dev.raise_bvc : (d.raise n).bvc = d.bvc := rfl
@[simp] theorem Dev.raise_twin : (d.raise n).twin = d.twin := rfl
@[simp] theorem Dev.raise_held : (d.raise n).held = d.held := rfl
@[simp] theorem Dev.raise_out : (d.raise n).out = d.out := rfl
@[simp] theorem Dev.raise_free : (d.raise n).free = d.free := rfl
@[simp] theorem Dev.raise_now : (d.raise n).now = d.now := rfl
@[simp] theorem Dev.raise_serial : (d.raise n).serial = d.serial := rfl
@[simp] theorem Dev.raise_codes : (d.raise n).codes = d.codes := rfl

@[simp] theorem Dev.raiseLvl_regs : (d.raiseLvl n).regs = d.regs := rfl
@[simp] theorem Dev.raiseLvl_emb : (d.raiseLvl n).emb = d.emb := rfl
@[simp] theorem Dev.raiseLvl_pins : (d.raiseLvl n).pins = d.pins := rfl
@[simp] theorem Dev.raiseLvl_pit : (d.raiseLvl n).pit = d.pit := rfl
@[simp] theorem Dev.raiseLvl_pd : (d.raiseLvl n).pd = d.pd := rfl
@[simp] theorem Dev.raiseLvl_sto : (d.raiseLvl n).sto = d.sto := rfl
@[simp] theorem Dev.raiseLvl_ports : (d.raiseLvl n).ports = d.ports := rfl
@[simp] theorem Dev.raiseLvl_net : (d.raiseLvl n).net = d.net := rfl
@[simp] theorem Dev.raiseLvl_trn : (d.raiseLvl n).trn = d.trn := rfl
@[simp] theorem Dev.raiseLvl_hst : (d.raiseLvl n).hst = d.hst := rfl
@[simp] theorem Dev.raiseLvl_win : (d.raiseLvl n).win = d.win := rfl
@[simp] theorem Dev.raiseLvl_ins : (d.raiseLvl n).ins = d.ins := rfl
@[simp] theorem Dev.raiseLvl_iso : (d.raiseLvl n).iso = d.iso := rfl
@[simp] theorem Dev.raiseLvl_lic : (d.raiseLvl n).lic = d.lic := rfl
@[simp] theorem Dev.raiseLvl_clg : (d.raiseLvl n).clg = d.clg := rfl
@[simp] theorem Dev.raiseLvl_bvc : (d.raiseLvl n).bvc = d.bvc := rfl
@[simp] theorem Dev.raiseLvl_twin : (d.raiseLvl n).twin = d.twin := rfl
@[simp] theorem Dev.raiseLvl_held : (d.raiseLvl n).held = d.held := rfl
@[simp] theorem Dev.raiseLvl_out : (d.raiseLvl n).out = d.out := rfl
@[simp] theorem Dev.raiseLvl_free : (d.raiseLvl n).free = d.free := rfl
@[simp] theorem Dev.raiseLvl_now : (d.raiseLvl n).now = d.now := rfl
@[simp] theorem Dev.raiseLvl_serial : (d.raiseLvl n).serial = d.serial := rfl
@[simp] theorem Dev.raiseLvl_codes : (d.raiseLvl n).codes = d.codes := rfl

@[simp] theorem Dev.raise_queue : (d.raise n).fwt.queue = d.fwt.queue ++ [⟨n, false, 0, false, false⟩] := rfl
@[simp] theorem Dev.raiseLvl_queue : (d.raiseLvl n).fwt.queue = d.fwt.queue ++ [⟨n, true, 0, false, false⟩] := rfl
@[simp] theorem Dev.takeFree_fst : d.takeFree.1 = Config.freeValue d.free := rfl
@[simp] theorem Dev.takeFree_free : d.takeFree.2.free = d.free + 1 := rfl
@[simp] theorem Dev.takeFree_regs : d.takeFree.2.regs = d.regs := rfl

/-! ### The queue of commands -/

@[simp] theorem State.after_dev (s : State) : (s.after d).dev = d.settle s.dev := by unfold State.after; rfl
@[simp] theorem State.after_pending (s : State) : (s.after d).pending = s.pending := by unfold State.after; rfl

end Sys2Proof.Machine
end

