-- ==== Sys2Proof/Laws/Regs.lean ====
section
/-! SUPPORT. Registers and fields: what is read after a write. -/
namespace Sys2Proof.Machine

/-! ### Fields of a word -/

theorem setField_toNat {v : W64} {hi lo : Nat} (x : Nat) (hl : lo ≤ hi) (hh : hi < 64) :
    (setField v hi lo x).toNat = v.toNat % 2 ^ lo + (x % 2 ^ (hi + 1 - lo)) * 2 ^ lo + (v.toNat / 2 ^ (hi + 1)) * 2 ^ (hi + 1) := by
  unfold setField
  rw [BitVec.toNat_ofNat, Nat.mod_eq_of_lt]
  have hv := v.isLt
  have h1 : v.toNat % 2 ^ lo < 2 ^ lo := Nat.mod_lt _ (Nat.two_pow_pos lo)
  have h2 : x % 2 ^ (hi + 1 - lo) < 2 ^ (hi + 1 - lo) := Nat.mod_lt _ (Nat.two_pow_pos _)
  have h3 : 2 ^ (hi + 1 - lo) * 2 ^ lo = 2 ^ (hi + 1) := by rw [← Nat.pow_add]; congr 1; omega
  have h4 : 2 ^ (hi + 1) * 2 ^ (63 - hi) = 2 ^ 64 := by rw [← Nat.pow_add]; congr 1; omega
  have h5 : v.toNat / 2 ^ (hi + 1) + 1 ≤ 2 ^ (63 - hi) := by
    apply Nat.succ_le_of_lt
    rw [Nat.div_lt_iff_lt_mul (Nat.two_pow_pos _), Nat.mul_comm, h4]; exact hv
  have h6 : (x % 2 ^ (hi + 1 - lo) + 1) * 2 ^ lo ≤ 2 ^ (hi + 1) := by rw [← h3]; exact Nat.mul_le_mul_right _ h2
  have h7 : (v.toNat / 2 ^ (hi + 1) + 1) * 2 ^ (hi + 1) ≤ 2 ^ 64 := by
    rw [← h4, Nat.mul_comm (2 ^ (hi + 1))]; exact Nat.mul_le_mul_right _ h5
  rw [Nat.add_mul, Nat.one_mul] at h6 h7
  omega

/-- A field reads what was stored in it, cut to its width (R8). -/
theorem fieldOf_setField_same (v : W64) {hi lo : Nat} (x : Nat) (hl : lo ≤ hi) (hh : hi < 64) : fieldOf (setField v hi lo x) hi lo = x % 2 ^ (hi + 1 - lo) := by
  unfold fieldOf
  rw [setField_toNat x hl hh]
  have h1 : v.toNat % 2 ^ lo < 2 ^ lo := Nat.mod_lt _ (Nat.two_pow_pos lo)
  have h3 : 2 ^ (hi + 1) = 2 ^ (hi + 1 - lo) * 2 ^ lo := by rw [← Nat.pow_add]; congr 1; omega
  rw [h3, ← Nat.mul_assoc, Nat.add_assoc, ← Nat.add_mul, Nat.add_mul_div_right _ _ (Nat.two_pow_pos lo), Nat.div_eq_of_lt h1, Nat.zero_add,
    Nat.add_mul_mod_self_right, Nat.mod_mod]

/-- A field above or below the one written keeps its value. -/
theorem fieldOf_setField_disjoint (v : W64) {hi lo hi' lo' : Nat} (x : Nat) (hl : lo ≤ hi) (hh : hi < 64) (hl' : lo' ≤ hi') (hd : hi' < lo ∨ hi < lo') :
    fieldOf (setField v hi lo x) hi' lo' = fieldOf v hi' lo' := by
  unfold fieldOf
  rw [setField_toNat x hl hh]
  apply Nat.eq_of_testBit_eq
  intro i
  simp only [Nat.testBit_mod_two_pow, Nat.testBit_div_two_pow]
  by_cases hi2 : i < hi' + 1 - lo'
  · simp only [hi2, decide_true, Bool.true_and]
    have e : v.toNat % 2 ^ lo + (x % 2 ^ (hi + 1 - lo)) * 2 ^ lo + v.toNat / 2 ^ (hi + 1) * 2 ^ (hi + 1)
        = (v.toNat / 2 ^ (hi + 1)) * 2 ^ (hi + 1) + ((x % 2 ^ (hi + 1 - lo)) * 2 ^ lo + v.toNat % 2 ^ lo) := by omega
    rw [e]
    have h1 : v.toNat % 2 ^ lo < 2 ^ lo := Nat.mod_lt _ (Nat.two_pow_pos lo)
    have h2 : x % 2 ^ (hi + 1 - lo) < 2 ^ (hi + 1 - lo) := Nat.mod_lt _ (Nat.two_pow_pos _)
    have h3 : 2 ^ (hi + 1 - lo) * 2 ^ lo = 2 ^ (hi + 1) := by rw [← Nat.pow_add]; congr 1; omega
    have h6 : (x % 2 ^ (hi + 1 - lo) + 1) * 2 ^ lo ≤ 2 ^ (hi + 1) := by rw [← h3]; exact Nat.mul_le_mul_right _ h2
    rw [Nat.add_mul, Nat.one_mul] at h6
    have h8 : (x % 2 ^ (hi + 1 - lo)) * 2 ^ lo + v.toNat % 2 ^ lo < 2 ^ (hi + 1) := by omega
    rw [Nat.mul_comm (v.toNat / 2 ^ (hi + 1)), Nat.testBit_two_pow_mul_add _ h8]
    rcases hd with hd | hd
    · rw [if_pos (by omega), Nat.mul_comm _ (2 ^ lo), Nat.testBit_two_pow_mul_add _ h1, if_pos (by omega), Nat.testBit_mod_two_pow]
      simp only [show i + lo' < lo by omega, decide_true, Bool.true_and]
    · rw [if_neg (by omega), Nat.testBit_div_two_pow]
      congr 1; omega
  · simp [hi2]

/-! ### Registers of the device -/

/-- The reset values of the other registers depend on the two strap registers only (R483, R527, R530, R582, R190). -/
theorem Dev.dflt_wr {d : Dev} {off : Nat} (v : W64) (h1 : off ≠ R.genSizeCfg) (h2 : off ≠ R.genNodeCfg) (j : Nat) : (d.wr off v).dflt j = d.dflt j := by
  have e1 : ∀ f : Fld, f.off ≠ off → (d.wr off v).g0 f = d.g0 f := by
    intro f hf; unfold Dev.g0; rw [Dev.wr_regs, SMap.lk_ins_ne v hf]
  have a1 : (d.wr off v).g0 F.genSizeCfg_levels = d.g0 F.genSizeCfg_levels := e1 _ (fun h => h1 h.symm)
  have a2 : (d.wr off v).g0 F.genNodeCfg_lp_absent = d.g0 F.genNodeCfg_lp_absent := e1 _ (fun h => h2 h.symm)
  have a3 : (d.wr off v).profile = d.profile := by unfold Dev.profile; rw [Dev.wr_pit, a1]
  have a4 : (d.wr off v).clgN = d.clgN := by unfold Dev.clgN; rw [a1]
  have a5 : (d.wr off v).lowestLp = d.lowestLp := by unfold Dev.lowestLp; rw [a2]
  have a6 : ∀ i, (d.wr off v).regionUsed i = d.regionUsed i := by intro i; unfold Dev.regionUsed; rw [a1, a4]
  unfold Dev.dflt
  simp only [a3, a4, a5, a6, Dev.wr_serial]

/-- A register reads what was stored in it. -/
@[simp] theorem Dev.rd_wr_same (d : Dev) (off : Nat) (v : W64) : (d.wr off v).rd off = v := by
  unfold Dev.rd; rw [Dev.wr_regs, SMap.lk_ins_self]

/-- Every other register keeps its value. -/
theorem Dev.rd_wr_ne {d : Dev} {off j : Nat} (v : W64) (h1 : off ≠ R.genSizeCfg) (h2 : off ≠ R.genNodeCfg) (hj : j ≠ off) : (d.wr off v).rd j = d.rd j := by
  unfold Dev.rd; rw [Dev.dflt_wr v h1 h2, Dev.wr_regs, SMap.lk_ins_ne v hj]

/-- A field reads what was stored in it, cut to its width. -/
theorem Dev.g_s_same (d : Dev) {f : Fld} (x : Nat) (hl : f.lo ≤ f.hi) (hh : f.hi < 64) : (d.s f x).g f = x % 2 ^ (f.hi + 1 - f.lo) := by
  unfold Dev.g Dev.s; rw [Dev.rd_wr_same, fieldOf_setField_same _ _ hl hh]

/-- A field of another register keeps its value. -/
theorem Dev.g_s_off {d : Dev} {f k : Fld} (x : Nat) (h1 : f.off ≠ R.genSizeCfg) (h2 : f.off ≠ R.genNodeCfg) (h : k.off ≠ f.off) : (d.s f x).g k = d.g k := by
  unfold Dev.g Dev.s; rw [Dev.rd_wr_ne _ h1 h2 h]

/-- Another field of the same register keeps its value. -/
theorem Dev.g_s_disjoint {d : Dev} {f k : Fld} (x : Nat) (ho : k.off = f.off) (hl : f.lo ≤ f.hi) (hh : f.hi < 64) (hk : k.lo ≤ k.hi) (hd : k.hi < f.lo ∨ f.hi < k.lo) :
    (d.s f x).g k = d.g k := by
  unfold Dev.g Dev.s; rw [ho, Dev.rd_wr_same, fieldOf_setField_disjoint _ _ hl hh hk hd]

/-- A one-bit field reads what was stored in it. -/
theorem Dev.gb_sb_same (d : Dev) {f : Fld} (b : Bool) (hl : f.lo = f.hi) (hh : f.hi < 64) : (d.sb f b).gb f = b := by
  unfold Dev.gb Dev.sb
  rw [Dev.g_s_same d _ (by omega) hh, hl, Nat.add_sub_cancel_left]
  cases b <;> rfl

/-- A saturating counter advanced by one. -/
theorem Dev.g_bump (d : Dev) {f : Fld} (hl : f.lo ≤ f.hi) (hh : f.hi < 64) : (d.bump f).g f = min (d.g f + 1) (2 ^ (f.hi + 1 - f.lo) - 1) := by
  unfold Dev.bump Dev.bumpBy
  rw [Dev.g_s_same d _ hl hh, satAdd, Nat.mod_eq_of_lt]
  have := Nat.two_pow_pos (f.hi + 1 - f.lo)
  omega

end Sys2Proof.Machine
end

