-- ==== Sys2Proof/Laws/Exec.lean ====
section
/-! SUPPORT. What the shapes of a meaning answer, once for all commands: an effect with what follows it, a stutter, the manager's write through its gates. -/
namespace Sys2Proof.Machine

/-! ### The shapes of a meaning -/

theorem act_next (s : State) (f : Dev → Dev) : act s f = .next (s.after (f s.dev)) := by unfold act State.after; rfl

theorem actIf_next {s : State} {c : Bool} (h : c = true) (f : Dev → Dev) : actIf s c f = .next (s.after (f s.dev)) := by
  unfold actIf; rw [if_pos h, act_next]

theorem actIf_stutter {s : State} {c : Bool} (h : c = false) (f : Dev → Dev) : actIf s c f = .next s := by
  unfold actIf; rw [if_neg (by rw [h]; exact Bool.false_ne_true)]

theorem chip_next {s : State} (h : s.dev.powered = true) (f : Dev → Dev) : chip s f = .next (s.after (f s.dev)) := actIf_next h f

theorem host_next {s : State} (h : s.dev.hostHere = true) (f : Dev → Dev) : host s f = .next (s.after (f s.dev)) := actIf_next h f

/-- What a conditional change can answer. -/
theorem actIf_cases {s t : State} {c : Bool} {f : Dev → Dev} (h : actIf s c f = .next t) : t = s.after (f s.dev) ∨ t = s := by
  unfold actIf at h
  split at h
  · rw [act_next] at h; cases h; exact .inl rfl
  · cases h; exact .inr rfl

/-! ### What follows an effect -/

/-- What follows a command keeps what its effect keeps. -/
theorem after_kept {s : State} {d : Dev} (h : Kept s.dev d) : Kept s.dev (s.after d).dev := by
  rw [State.after_dev]; exact Dev.settle_kept h _

theorem act_kept {s t : State} {f : Dev → Dev} (hf : ∀ a d, Kept a d → Kept a (f d)) (h : act s f = .next t) : Kept s.dev t.dev := by
  rw [act_next] at h; cases h; exact after_kept (hf _ _ (Kept.refl _))

theorem actIf_kept {s t : State} {c : Bool} {f : Dev → Dev} (hf : ∀ a d, Kept a d → Kept a (f d)) (h : actIf s c f = .next t) : Kept s.dev t.dev := by
  rcases actIf_cases h with h | h
  · subst h; exact after_kept (hf _ _ (Kept.refl _))
  · subst h; exact Kept.refl _

theorem regWr_kept {s t : State} {pty : Party} {off : Nat} {be : BitVec 8} {data : W32} (h : regWr s pty off be data = .next t) : Kept s.dev t.dev :=
  actIf_kept (fun _ _ hd => Dev.pfWrite_kept hd _ _ _ _ _) h

theorem regWr8_kept {s t : State} {pty : Party} {off : Nat} {data : W64} (h : regWr8 s pty off data = .next t) : Kept s.dev t.dev :=
  actIf_kept (fun _ _ hd => Dev.pfWrite_kept hd _ _ _ _ _) h

theorem regRd_kept {s t : State} {pty : Party} {off : Nat} (h : regRd s pty off = .next t) : Kept s.dev t.dev :=
  actIf_kept (fun _ _ hd => Dev.readBy_kept hd _ _) h

theorem packet_kept {s t : State} {via : Via} {vc : BitVec 3} {k : Pkt} (h : packet s via vc k = .next t) : Kept s.dev t.dev := by
  refine actIf_kept (fun a d hd => ?_) h
  split
  · exact Dev.localReq_kept hd _ _ _
  · exact Dev.arrive_kept hd _ _ _
  · exact Dev.arrive_kept hd _ _ _

theorem rspPacket_kept {s t : State} {via : Via} {k : Pkt} (h : rspPacket s via k = .next t) : Kept s.dev t.dev := by
  refine actIf_kept (fun a d hd => ?_) h
  split
  · exact Dev.localAnswer_kept (Dev.consume_kept hd _ _) _ _
  · exact Dev.arriveRsp_kept hd _ _
  · exact Dev.arriveRsp_kept hd _ _

/-! ### No command touches the queue -/

theorem act_pending {s t : State} {f : Dev → Dev} (h : act s f = .next t) : t.pending = s.pending := by
  rw [act_next] at h; cases h; exact State.after_pending _ _

theorem actIf_pending {s t : State} {c : Bool} {f : Dev → Dev} (h : actIf s c f = .next t) : t.pending = s.pending := by
  rcases actIf_cases h with h | h
  · subst h; exact State.after_pending _ _
  · subst h; rfl

/-! ### The manager's write through its gates (R39, R48, R352, R557) -/

theorem Dev.authOf_pf (d : Dev) (off : Nat) (data : W64) : d.authOf .pf off data = true := by
  unfold Dev.authOf
  split
  · unfold Dev.licAuth
    split
    · unfold Dev.bankAuth; split <;> rfl
    · split
      · unfold Dev.signalAuth; simp [Dev.licCore]
      · repeat' split
        all_goals rfl
  · rfl

/-- A whole 4-byte write is one access. -/
theorem dwords_whole {off : Nat} (data : W32) (h : off % 4 = 0) : dwords off 15 (data.setWidth 64).toNat = [(off, 15, data.toNat)] := by
  have hd := data.isLt
  have e : (data.setWidth 64).toNat = data.toNat := by rw [BitVec.toNat_setWidth, Nat.mod_eq_of_lt (by omega)]
  have e2 : data.toNat / 4294967296 = 0 := Nat.div_eq_of_lt hd
  have e3 : data.toNat / 18446744073709551616 = 0 := Nat.div_eq_of_lt (by omega)
  have e4 : data.toNat % 4294967296 = data.toNat := Nat.mod_eq_of_lt hd
  unfold dwords
  rw [e, h]
  simp [List.range, List.range.loop, e4, List.filter]
  omega

theorem Dev.reaches_host {d : Dev} {off : Nat} (h : d.reaches off = true) : d.hostHere = true ∧ d.hostMem 0 = true ∧ (d.onlyWatch && !(decide (regDomain off = 1) || decide (regDomain off = 0))) = false ∧ d.powerOf off = Power.on := by
  simp only [Dev.reaches, Bool.and_eq_true, decide_eq_true_eq] at h
  obtain ⟨⟨⟨h1, h2⟩, h3⟩, h4⟩ := h
  refine ⟨h1, h2, ?_, h4⟩
  cases ho : d.onlyWatch
  · rfl
  · simp_all only [Bool.not_true, Bool.false_or, Bool.or_eq_true, decide_eq_true_eq, Bool.true_and, Bool.not_eq_false']

/-- The device in which the manager's write that arrives is judged: a write to the time block has ended the host's freeze (R71). -/
theorem Dev.whenD_timeBlock {d : Dev} (off : Nat) (hm : d.hostMem 0 = true) : d.whenD (d.timeBlockWrite .pf off) (fun d => d.endFreeze (readerOf .pf)) = d.unfrozen off := by
  unfold Dev.timeBlockWrite Dev.whenD Dev.unfrozen; simp [hm, readerOf]

theorem Dev.unfrozen_of_none (d : Dev) {off : Nat} (hn : timeIdx off = none) : d.unfrozen off = d := by unfold Dev.unfrozen; rw [hn]; rfl

theorem Dev.unfrozen_reaches {d : Dev} (off o : Nat) : (d.unfrozen off).reaches o = d.reaches o := by unfold Dev.unfrozen; split <;> rfl

/-- The manager's write of a whole 32-bit register is judged once and takes its outcome. -/
theorem Dev.pfWrite_mgr {d : Dev} {off : Nat} (data : W32) (hr : d.reaches off = true) (ha : off % 4 = 0) (hb : off < 2 ^ 24) (hm : regMapped off = true) (ht : off ≠ R.pitResumeToken) :
    d.pfWrite .pf off false 15 (data.setWidth 64) = (d.unfrozen off).commitS (mgrWrite off data) ((d.unfrozen off).judgeOf .pf (mgrWrite off data)) := by
  obtain ⟨-, g2, -, -⟩ := Dev.reaches_host hr
  obtain ⟨-, h2, h3, h4⟩ := Dev.reaches_host (d := d.unfrozen off) ((Dev.unfrozen_reaches off off).trans hr)
  have hj : ∀ old, (d.unfrozen off).regCmdS .pf off false 15 (data.setWidth 64) old true (fun d c => d.judgeOf .pf c) = (d.unfrozen off).commitS (mgrWrite off data) ((d.unfrozen off).judgeOf .pf (mgrWrite off data)) := by
    intro old
    unfold Dev.regCmdS
    simp only [h2, h3, h4, hm, Bool.not_true, Bool.or_false, partyOrigin, mgrWrite]
    simp
  unfold Dev.pfWrite
  simp only [Bool.false_and, Bool.false_eq_true, if_false, Nat.mod_eq_of_lt hb, show 15 % 16 = 15 from rfl, dwords_whole data ha, List.foldl, Dev.oneWrite, Dev.whenD_timeBlock _ g2, if_neg ht, Dev.authOf_pf]
  rw [show (BitVec.ofNat 64 data.toNat) = data.setWidth 64 from by rw [← BitVec.ofNat_toNat], hj]
  simp

/-- The manager's write of a whole 64-bit register is judged once and takes its outcome. -/
theorem Dev.pfWrite_mgr8 {d : Dev} {off : Nat} (data : W64) (hr : d.reaches off = true) (hb : off < 2 ^ 24) (hw : oneWide off = true) (hm : regMapped off = true) (ht : off ≠ R.pitResumeToken) :
    d.pfWrite .pf off true 255 data = (d.unfrozen off).commitS (mgrWrite8 off data) ((d.unfrozen off).judgeOf .pf (mgrWrite8 off data)) := by
  obtain ⟨-, g2, -, -⟩ := Dev.reaches_host hr
  obtain ⟨-, h2, h3, h4⟩ := Dev.reaches_host (d := d.unfrozen off) ((Dev.unfrozen_reaches off off).trans hr)
  unfold Dev.pfWrite
  simp only [Nat.mod_eq_of_lt hb, hw, show 255 % 256 = 255 from rfl, Bool.and_true, decide_true, if_true, Dev.oneWrite, Dev.whenD_timeBlock _ g2, if_neg ht, Dev.authOf_pf]
  unfold Dev.regCmdS
  simp only [h2, h3, h4, hm, Bool.not_true, Bool.or_false, partyOrigin, mgrWrite8]
  simp

/-- What an accepted write does: its record, then its effect; an exempt write has its effect only (R558, R560). -/
theorem Dev.commitS_ok {d : Dev} {c : WCtx} {old new : W64} {rs ex : Bool} {eff : Dev → Dev} (hr : d.swRoom 1 = true) :
    d.commitS c (.ok old new rs ex eff) = (eff (if ex then d else d.logged c (4 * b2n rs + 1024 * b2n (decide (old = new))) old new), 0) := by
  unfold Dev.commitS Dev.logged
  cases ex <;> simp [hr]

/-- A refused write leaves its rejected record and nothing else (R558). -/
theorem Dev.commitS_bad {d : Dev} {c : WCtx} {old : W64} {rs ex : Bool} (hr : d.swRoom 1 = true) :
    d.commitS c (.bad old rs ex) = (d.logged c (1 + 4 * b2n rs) old old, 1) := by
  unfold Dev.commitS Dev.logged; simp [hr]

theorem regWr_mgr {s : State} {off : Nat} (data : W32) (hr : s.dev.reaches off = true) (ha : off % 4 = 0) (hb : off < 2 ^ 24) (hm : regMapped off = true) (ht : off ≠ R.pitResumeToken) :
    regWr s .pf off 15#8 data = .next (s.after ((s.dev.unfrozen off).commitS (mgrWrite off data) ((s.dev.unfrozen off).judgeOf .pf (mgrWrite off data))).1) := by
  unfold regWr
  rw [actIf_next (show s.dev.partyHere .pf = true from (Dev.reaches_host hr).1)]
  rw [show (15#8).toNat = 15 from rfl, Dev.pfWrite_mgr data hr ha hb hm ht]

theorem regWr8_mgr {s : State} {off : Nat} (data : W64) (hr : s.dev.reaches off = true) (hb : off < 2 ^ 24) (hw : oneWide off = true) (hm : regMapped off = true) (ht : off ≠ R.pitResumeToken) :
    regWr8 s .pf off data = .next (s.after ((s.dev.unfrozen off).commitS (mgrWrite8 off data) ((s.dev.unfrozen off).judgeOf .pf (mgrWrite8 off data))).1) := by
  unfold regWr8
  rw [actIf_next (show s.dev.partyHere .pf = true from (Dev.reaches_host hr).1), Dev.pfWrite_mgr8 data hr hb hw hm ht]

end Sys2Proof.Machine
end

