-- ==== Sys2Proof/Machine/Package.lean ====
section
/-! DEFINITION. The package (19): what each ball carries (R650 to R655), and the instructions of the JTAG port (R95, R682). No command of the table reaches the balls or the port, so nothing here changes the state. -/
namespace Sys2Proof.Machine

/-! ### The ball grid (R650) -/

/-- The letters of the rows: no I, O, Q, R, S, X or Z. -/
def rowLetters : List Char := ['A', 'B', 'C', 'D', 'E', 'F', 'G', 'H', 'J', 'K', 'L', 'M', 'N', 'P', 'T', 'U', 'V', 'W', 'Y']

/-- The name of row index `r`, from 1 to 55: one letter, then two with A or B in front. -/
def rowName (r : Nat) : List Char :=
  let l := nth rowLetters ((r - 1) % 19) 'A'
  if r ≤ 19 then [l] else if r ≤ 38 then ['A', l] else ['B', l]

/-! ### What a ball carries (R651 to R654) -/

/-- The rails (R656). -/
inductive SupplyRail where
  | vcore | vphy09 | vphy12 | vio | vmainEmb | vstore | vstoreq | vbat
  deriving DecidableEq, Repr

/-- The signals of the East region beside the straps (R653). -/
inductive EastSig where
  | testEn | pwrfail | holdOk | pwron | errP | errN | vstoreSense | vswSet | phycal | reffP | reffN | xtalIn | xtalOut
  | tck | tms | tdi | tdo | trst | thermA | thermK | vcoreSns | vssSns
  deriving DecidableEq, Repr

/-- What a position of the grid carries; `neg` marks the _N ball of a pair. -/
inductive Ball where
  | host (lane : Nat) (rx neg : Bool)
  | fabric (port lane : Nat) (rx neg : Bool)
  | loc (port lane : Nat) (rx neg : Bool)
  | refclk (neg : Bool)
  | perst
  | sd (n : Nat)
  | sv (n : Nat)
  | east (s : EastSig)
  | rail (r : SupplyRail)
  | rsvd
  | vss
  | orientation
  deriving DecidableEq, Repr

/-- The lane and polarity at a column of a group of pairs that begins at `base`, three columns to a pair (R652); none between the pairs. -/
def pairAt (base n col : Nat) : Option (Nat × Bool) :=
  let o := col - base
  if col < base || 3 * n ≤ o || o % 3 = 2 then none else some (o / 3, o % 3 = 1)

/-- The host port's balls (R652, R653). -/
def hostBall (row col : Nat) : Option Ball :=
  if row = 46 && (col = 2 || col = 3) then some (.refclk (col = 3))
  else if row = 46 && col = 6 then some .perst
  else if row < 12 || 42 < row || row % 2 = 1 then none
  else
    let l := (row - 12) / 2
    if col = 2 || col = 3 then some (.host l false (col = 3)) else if col = 6 || col = 7 then some (.host l true (col = 7)) else none

/-- The fabric ports' balls: rows B and D send, F and H receive (R652). -/
def fabricBall (row col : Nat) : Option Ball :=
  if row ≠ 2 && row ≠ 4 && row ≠ 6 && row ≠ 8 then none
  else (pairAt (4 + 6 * ((col - 4) / 6)) 2 col).bind (fun x =>
    let p := (col - 4) / 6
    if col < 4 || 8 ≤ p then none else some (.fabric p (x.1 + (if row % 4 = 0 then 2 else 0)) (decide (6 ≤ row)) x.2))

/-- The local ports' balls: rows BU and BP send, BM and BK receive (R652). -/
def localBall (row col : Nat) : Option Ball :=
  if row ≠ 54 && row ≠ 52 && row ≠ 50 && row ≠ 48 then none
  else (pairAt (4 + 12 * ((col - 4) / 12)) 4 col).bind (fun x =>
    let n := (col - 4) / 12
    if col < 4 || 4 ≤ n then none else some (.loc n (x.1 + (if row % 4 = 0 then 4 else 0)) (decide (row ≤ 50)) x.2))

/-- The signals of the East region with a ball of their own: row index, column, signal (R653). -/
def eastSignals : List (Nat × Nat × EastSig) :=
  [(12, 53, .testEn), (14, 53, .pwrfail), (16, 53, .holdOk), (18, 53, .pwron), (20, 53, .errP), (20, 54, .errN), (22, 53, .vstoreSense), (24, 53, .vswSet)] ++
  [(26, 53, .phycal), (28, 53, .reffP), (28, 54, .reffN), (30, 53, .xtalIn), (30, 54, .xtalOut), (32, 53, .tck), (34, 53, .tms), (36, 53, .tdi)] ++
  [(38, 53, .tdo), (40, 53, .trst), (42, 53, .thermA), (42, 54, .thermK), (44, 53, .vcoreSns), (44, 54, .vssSns)]

/-- The East region's balls (R653). -/
def eastBall (row col : Nat) : Option Ball :=
  if col = 51 && 12 ≤ row && row < 36 then some (.sd (row - 12))
  else if col = 49 && 12 ≤ row && row < 28 then some (.sv (row - 12))
  else if col = 49 && 30 ≤ row && row ≤ 44 then some .rsvd
  else if col = 55 && 12 ≤ row && row ≤ 27 then some (.rail .vio)
  else if col = 55 && (row = 40 || row = 41) then some (.rail .vmainEmb)
  else if col = 55 && (row = 43 || row = 44) then some (.rail .vbat)
  else (eastSignals.find? (fun e => e.1 = row && e.2.1 = col)).map (fun e => .east e.2.2)

/-- The rail of a ball in the middle of the grid, rows 10 to 46 and columns 9 to 47: rows before columns where two assignments meet, as the counts of R655 have it (R651, R654). -/
def middleBall (row col : Nat) : Ball :=
  if (row + col) % 2 = 0 then .vss
  else if 13 ≤ row && row ≤ 43 && 46 ≤ col then .rail .vstoreq
  else if 13 ≤ row && row ≤ 43 && 36 ≤ col then .rail .vstore
  else if 13 ≤ row && row ≤ 43 && 12 ≤ col then .rail .vcore
  else if row = 10 || row = 11 || row = 45 || row = 46 then .rail .vphy09
  else if row = 12 || row = 44 || col = 11 then .rail .vphy12
  else .rail .vphy09

/-- What the position at a row index and a column carries (R650 to R654). -/
def ballAt (row col : Nat) : Ball :=
  if row = 1 && col = 1 then .orientation
  else if 10 ≤ row && row ≤ 46 && 9 ≤ col && col ≤ 47 then middleBall row col
  else if 10 ≤ row && row ≤ 46 then (if col ≤ 8 then (hostBall row col).getD .vss else (eastBall row col).getD .vss)
  else if row < 10 then (fabricBall row col).getD .vss
  else (localBall row col).getD .vss

/-- How many balls of a row satisfy a test. -/
def ballsOfRow (p : Ball → Bool) (row : Nat) : Nat := ((List.range 55).filter (fun c => p (ballAt row (c + 1)))).length

/-- How many balls satisfy a test (R655). -/
def ballCount (p : Ball → Bool) : Nat := ((List.range 55).map (fun r => ballsOfRow p (r + 1))).foldl (· + ·) 0

/-! ### The JTAG port (R95, R682) -/

/-- The instructions of the JTAG port; `acDrive` and `acPulse` are those of IEEE 1149.6 for the AC-coupled lanes (their names PRESUMED from that standard, log entry 129), `scan` an internal scan instruction. -/
inductive TapInstr where
  | bypass | idcode | samplePreload | extest | acDrive | acPulse | scan (chain : Nat)
  deriving DecidableEq, Repr

/-- An instruction of the TAP acts at every time (R682). -/
def TapInstr.always (i : TapInstr) : Bool := match i with
  | .bypass | .idcode | .samplePreload => true
  | .extest | .acDrive | .acPulse | .scan _ => false

/-- The instruction that the TAP performs: one that needs test features acts as BYPASS while they are not enabled (R95, R682). -/
def Dev.tapActs (d : Dev) (i : TapInstr) : TapInstr := if i.always || d.testEn then i else .bypass

end Sys2Proof.Machine
end

