-- ==== Sys2Proof/WellFormed.lean ====
section
/-! DEFINITION. Well-formed commands: operands whose shape is that of the access, packet, reading or sample set they stand for. The meanings of the machine are total and do not ask for it; a command that is not well formed stands for no event of the device. -/
namespace Sys2Proof

/-- The byte enables of a 4-byte access (R39). -/
def dwordBe (be : BitVec 8) : Bool := be.toNat < 16

/-- The operands of CONTROL_WRITE fit its space (R39, R344, R352): an access over the local port reaches only the register view. -/
def Access.wf (a : Access) : Bool :=
  (a.size8 || dwordBe a.be) && (match a.space, a.pty with
    | .bar0, _ => true
    | .cfg, .lp _ _ | .bar4, .lp _ _ => false
    | .cfg, .pf | .cfg, .vf _ => a.off.toNat < 4096 && !a.size8
    | .bar4, .pf | .bar4, .vf _ => a.off.toNat < 65536)

/-- 24 digital straps and 16 resistor straps (R99). -/
def StrapSamples.wf (x : StrapSamples) : Bool := x.sd.length = 24 && x.sv.length = 16

/-- 24 digital straps and 16 resistor straps (R113). -/
def StrapPass.wf (x : StrapPass) : Bool := x.sd.length = 24 && x.sv.length = 16

/-- The units that a validation read lie in the Store's 16 GiB (R157). -/
def unitsOk (l : List BadUnit) : Bool := l.all (fun u => u.addr < 2 ^ 34 && u.addr % 64 = 0)

/-- A copy of an instance descriptor is 256 bytes (R417). -/
def copyOk (w : List W64) : Bool := w.length = 32

/-- The operands of a validation read (R616, R697). -/
def WarmReads.wf (r : WarmReads) : Bool := unitsOk r.bad && r.differ.all (fun c => copyOk c.a && copyOk c.b)

/-- The operands of a scrub read (R172). -/
def UnitRead.wf (r : UnitRead) : Bool := match r with
  | .copies a b => copyOk a && copyOk b
  | .clean | .corrected | .uncorrectable | .pageCrc | .seals _ _ | .directories _ _ => true

/-- Seven rails, each within the 13 bits of gen.rail (R685). -/
def railsOk (mv : List Nat) : Bool := mv.length = 7 && mv.all (fun x => x < 8192)

/-- Eight sensors, each a signed number of 12 bits (R685). -/
def tempsOk (ts : List Int) : Bool := ts.length = 8 && ts.all (fun x => -2048 ≤ x && x < 2048)

/-- A flit of a type with its 240 bytes of payload (R219, R221). -/
def Flit.wf (f : Flit) (typ : Nat) : Bool := f.typ.toNat = typ && f.payload.length = 240

/-- A flit of a type that R221 does not define. -/
def Flit.wfUndef (f : Flit) : Bool := 3 ≤ f.typ.toNat && f.payload.length = 240

/-- A transport packet travels on VC1 to VC6 (R223). -/
def transportVc (vc : BitVec 3) : Bool := 1 ≤ vc.toNat && vc.toNat ≤ 6

/-- A host access of 1 to 4,096 bytes. -/
def lengthOk (n : Nat) : Bool := 1 ≤ n && n ≤ 4096

/-- The bytes of a host write with an enable for each. -/
def bytesOk (bytes : List Byte) (be : List Bool) : Bool := lengthOk bytes.length && be.length = bytes.length

/-- The operands of an AtomicOp: of 4, 8 or, for a compare-and-swap, 16 bytes: one of its width, two for a compare-and-swap (R352). -/
def atomicOk (kind : AtomicKind) (width : Nat) (ops : List Byte) : Bool :=
  (width = 4 || width = 8 || (width = 16 && kind = .cas)) && ops.length = (if kind = .cas then 2 * width else width)

/-- The byte enables of a LIC configuration write (R516). -/
def licBeOk (r : LicCfg) (be : BitVec 8) : Bool := match r with
  | .vbase _ => true
  | .src _ | .psrc _ _ | .core _ => dwordBe be

/-- A commons access: a write brings its bytes with an enable for each (R433). -/
def commonsOk (write : Bool) (length : Nat) (bytes : List Byte) (be : List Bool) : Bool :=
  lengthOk length && (!write || (bytes.length = length && be.length = length))

/-- The entries of a Delta (R623): at most 57, each of eight words. -/
def deltaOk (es : List DeltaEnt) : Bool := es.length ≤ 57 && es.all (fun e => e.words.length = 8)

/-- The command's operands have the shape of what they stand for. -/
def WellFormed (i : Instr) : Bool := match i with
  | .controlWrite a => a.wf
  | .tagAdmission _ => true
  | .refclkLost => true
  | .reffLost => true
  | .reffReturn => true
  | .crystalLoss => true
  | .crystalGood => true
  | .emberFreshStart _ => true
  | .switchToVbat => true
  | .returnToVmain => true
  | .emberRailAbsent _ => true
  | .secondBoundary _ => true
  | .oscStop => true
  | .wallClockWrite _ reg be _ => reg = .bin || dwordBe be
  | .wallWriteApply _ => true
  | .wctlWrite _ be _ => dwordBe be
  | .dstAddHour _ => true
  | .dstSubtractHour _ => true
  | .tmTallyLoRead _ => true
  | .timeBlockRead _ _ => true
  | .tmEndRead _ => true
  | .freezeLapse _ => true
  | .trimWrite _ be _ => dwordBe be
  | .trimWindowEnd _ => true
  | .switchOverSummary => true
  | .holdBreak => true
  | .wakeWrite _ be _ => dwordBe be
  | .wakeExpiry => true
  | .pwronPulseEnd => true
  | .railsGood => true
  | .strapSamplingComplete x => x.wf
  | .strapReread x => x.wf
  | .pllLock ohms => ohms < 65536
  | .storeExitComplete _ _ => true
  | .storeAttemptFail => true
  | .coldInitComplete _ => true
  | .warmValidationComplete r => r.wf
  | .configurationReady => true
  | .perstNAssert => true
  | .perstNRelease => true
  | .joinTimeout => true
  | .blockRepitch _ be _ => dwordBe be
  | .repitchDrainEnd _ => true
  | .repitchDrainLimit _ => true
  | .repitchRestoreComplete _ => true
  | .scrubRead r => r.wf
  | .dbgRead _ => true
  | .dbgReadComplete _ => true
  | .storeChannelFail => true
  | .trainingStart _ => true
  | .trainingFrame _ _ _ => true
  | .trainingStepTimeout _ => true
  | .trainingIdleEnd _ => true
  | .deskewEnd _ => true
  | .trainingConfigEnd _ => true
  | .switchCountEnd _ => true
  | .dataLock _ => true
  | .fecCodeword _ _ cw => cw.length = 544
  | .syncBlock _ _ _ _ => true
  | .lockLoss _ _ => true
  | .lockReturn _ _ _ => true
  | .lockLossTimerExpiry _ => true
  | .retrain _ _ => true
  | .phycalMeasurement ohms => ohms < 65536
  | .eyeScan _ _ be _ => dwordBe be
  | .eyeScanComplete _ _ _ => true
  | .correctedSymbolInterval _ => true
  | .flitSlot _ _ _ => true
  | .dataFlit _ f => f.wf 1
  | .nullFlit _ f => f.wf 0
  | .initFlit _ f => f.wf 2
  | .undefinedFlit _ f => f.wfUndef
  | .badFlit _ => true
  | .replayTimeout _ => true
  | .receiveDelivery _ _ _ => true
  | .initTimeout _ => true
  | .sessionLapse _ => true
  | .sendStall _ => true
  | .replayRateInterval _ => true
  | .hello _ _ => true
  | .helloInterval _ => true
  | .neighbourDead _ => true
  | .lsa _ _ _ => true
  | .networkAck _ _ _ => true
  | .summary _ _ _ _ => true
  | .networkRequest _ _ _ => true
  | .requestResend _ => true
  | .lsaResend _ => true
  | .lsaOrigination => true
  | .lsaDeletion _ => true
  | .routeRun => true
  | .routeInstall => true
  | .packetForward _ vc _ => transportVc vc
  | .escapeMove _ _ => true
  | .dampingEnd _ => true
  | .rd _ vc _ => transportVc vc
  | .wrp _ vc _ => transportVc vc
  | .wra _ vc _ => transportVc vc
  | .fadd _ vc _ => transportVc vc
  | .swap _ vc _ => transportVc vc
  | .cas _ vc _ => transportVc vc
  | .msg _ vc _ => transportVc vc
  | .msga _ vc _ => transportVc vc
  | .fence _ vc _ => transportVc vc
  | .probe _ vc _ => transportVc vc
  | .hacq _ vc _ => transportVc vc
  | .hrel _ vc _ => transportVc vc
  | .hrenew _ vc _ => transportVc vc
  | .hquery _ vc _ => transportVc vc
  | .hdrop _ vc _ => transportVc vc
  | .rsp _ vc _ => transportVc vc
  | .undefinedOpcode _ vc _ => transportVc vc
  | .gapSkip _ _ => true
  | .sourceLaneFree _ _ => true
  | .busyRetry _ => true
  | .endToEndTimeout _ => true
  | .localTagTimeout _ _ => true
  | .holdExpiry _ _ => true
  | .configWrite _ _ be _ => dwordBe be
  | .pfFlr => true
  | .vfFlr _ => true
  | .vfEnableSet => true
  | .vfEnableClear => true
  | .hotReset => true
  | .dlDown => true
  | .hostBar2Write _ _ bytes be _ => bytesOk bytes be
  | .hostBar2Read _ _ _ length => lengthOk length
  | .hostBar2Atomic _ _ _ kind width operands => atomicOk kind width operands
  | .msixTableWrite _ _ size8 be _ => size8 || dwordBe be
  | .hostMessage _ _ => true
  | .cplLimitExpiry _ _ => true
  | .hostCompletion _ _ data => data.length ≤ 4096
  | .completionTimeout _ => true
  | .l1Exit => true
  | .hostCorrectedInterval => true
  | .winCommit _ _ => true
  | .winRead _ _ => true
  | .winDisable _ _ => true
  | .wcLineTimeout _ _ => true
  | .localRequest _ vc _ => transportVc vc
  | .localGapSkip _ _ _ _ => true
  | .cread _ _ => true
  | .cwrite _ _ => true
  | .raise _ _ => true
  | .insPitch _ _ => true
  | .insResize _ _ => true
  | .insDestroy _ _ => true
  | .insRead _ _ => true
  | .flrComplete _ => true
  | .inboxRing _ _ _ => true
  | .outboxRing _ _ => true
  | .mailboxSlotWrite _ _ _ _ => true
  | .msgConsWrite _ _ be _ => dwordBe be
  | .commonsAccess _ _ write length bytes be => commonsOk write length bytes be
  | .bucketRefill => true
  | .bucketLimitWrite _ _ _ be _ => dwordBe be
  | .egressVisit _ => true
  | .dlStart _ _ => true
  | .dlSwitch _ _ => true
  | .dlStop _ _ => true
  | .dlRead _ _ => true
  | .dlSwitchDrainDone _ => true
  | .dlWordWrite _ _ _ => true
  | .signal _ be _ => dwordBe be
  | .pendSet _ _ be _ => dwordBe be
  | .pendClr _ _ be _ => dwordBe be
  | .maskSet _ _ be _ => dwordBe be
  | .maskClr _ _ be _ => dwordBe be
  | .licSrcCfgWrite _ r be _ => licBeOk r be
  | .coreBindWrite _ _ be _ => dwordBe be
  | .claimRead _ _ => true
  | .eoi _ _ be _ => dwordBe be
  | .deliverCredit _ => true
  | .deliverCreditWait _ => true
  | .licGateEntry => true
  | .licWake _ => true
  | .licRestoreComplete _ => true
  | .sourceRaise _ _ _ => true
  | .guylineBroken _ => true
  | .guylineMended _ _ => true
  | .escalationStep => true
  | .graveChipReset => true
  | .fwtAck _ be _ => dwordBe be
  | .forceSet _ _ be _ => dwordBe be
  | .forceClr _ _ be _ => dwordBe be
  | .fwtSrcCfgWrite _ _ be _ => dwordBe be
  | .wearMeasurement slowdowns => slowdowns.length ≤ 16
  | .errRelease => true
  | .recordWrite => true
  | .clgAck _ _ => true
  | .rdSeqWrite _ _ => true
  | .rdRecAdvance _ => true
  | .snapshotTaken _ => true
  | .pushBatch => true
  | .pushConsWrite _ _ => true
  | .pdOff _ be _ => dwordBe be
  | .pdOn _ be _ => dwordBe be
  | .pdDrainEnd => true
  | .pdDrainLimit => true
  | .lostWriteRecord _ => true
  | .pdPowerOffComplete => true
  | .pdPowerOnComplete => true
  | .powerGoodTimeout => true
  | .autoRetainEntry _ => true
  | .retainWake _ _ => true
  | .pwrfailNLow => true
  | .monitorTrip _ => true
  | .bivouacDrainEnd bad => unitsOk bad
  | .bivouacBudgetExpiry bad => unitsOk bad
  | .returnWithoutLoss => true
  | .resumeTokenWrite _ _ => true
  | .resume _ _ => true
  | .resumeDiscard _ be => dwordBe be
  | .resumptionComplete => true
  | .discardComplete => true
  | .shadowHello _ => true
  | .delta _ _ entries => deltaOk entries
  | .commit _ => true
  | .shadowAck _ _ _ => true
  | .twinHelloInterval => true
  | .twinCreditTimeout => true
  | .epochClose => true
  | .twinRenew => true
  | .orphan => true
  | .activeLost => true
  | .witnessQuietEnd => true
  | .twinWitnessWrite _ be _ => dwordBe be
  | .twinResume _ be => dwordBe be
  | .twinTakeOver _ be => dwordBe be
  | .twinReform _ be => dwordBe be
  | .twinRdSeqWrite _ _ => true
  | .twinRdRecAdvance _ => true
  | .pwrfailNGlitch => true
  | .railReading mv => railsOk mv
  | .vbatMeasurement mv => mv < 8192
  | .tempReading temps => tempsOk temps
  | .refclkReturn => true
  | .hostLinkUp _ _ _ => true
  | .aspmL1Entry _ => true
  | .hostLinkError _ _ => true
  | .convergence => true
  | .dampingCountReset _ => true
  | .deliveryStreamFree _ _ _ _ => true
  | .insCmdComplete => true
  | .winCmdComplete => true
  | .mainPowerLoss => true

end Sys2Proof
end

