-- ==== Sys2Proof/Tests/Slice0.lean ====
section
/-! SUPPORT. Checks of the model by `decide`: ill-formed commands are refused, the examples of the spec come out, one step on a small state; and for every statement with hypotheses the witness that they can be met, clause by clause. -/
namespace Sys2Proof.Tests

set_option Elab.async false
set_option linter.unusedVariables false

open Sys2Proof.Machine

/-- A device without a waiting command. -/
def st (d : Dev) : State := ⟨d, []⟩

/-- A small device in service: main power, the pitch complete with its log open, the host link up with Memory Space Enable. -/
def up : Dev :=
  { Dev.reset with regs := [(R.pitPitchStatus, 0x400D#64)], pins := ⟨true, false, false, true, true⟩, pit := { Dev.reset.pit with ready := true, sampled := true, logOpen := true }, hst := { Dev.reset.hst with cfg := [(4, 6#32)], dlUp := true }, serial := 7 }

/-- An instance descriptor: pitched, local port 0, messages on, 16 windows from 0, 4 vectors, every camp. -/
def desc2 : List W64 := [0x01000001#64, 0x0000000400000010#64, 0#64, 0#64, 0#64, 0#64, 0xFFFFFFFFFFFFFFFF#64, 0#64, 0xFFFFFFFFFFFFFFFF#64] ++ List.replicate 23 0#64

/-- A window descriptor of instance 2: base, size, target, kind and permissions. -/
def desc (base size target kind perm : Nat) : List W64 := [BitVec.ofNat 64 base, BitVec.ofNat 64 size, BitVec.ofNat 64 target, 0#64, BitVec.ofNat 64 (2 + kind * 2 ^ 16 + perm * 2 ^ 24), 0#64, 0#64, 0#64]

/-- The device with two VFs, instance 2 pitched, an inbound window at 0x1000 and a host window at 0x8000. -/
def node : Dev :=
  { up with hst := { up.hst with cfg := [(4, 6#32), (0x98, 0x40#32), (0x2D8, 9#32), (0x2E0, 4#32), (8196, 6#32)] }, ins := { up.ins with desc := [(2, desc2)] }, win := { up.win with desc := [(3, desc 0x1000 0x1000 0x100000 2 15), (4, desc 0x8000 0x1000 0x7000 1 7)] }, trn := { up.trn with dstLanes := [(65536, 0)] } }

/-- The device with port 0's link Open. -/
def openD : Dev := ((up.s (F.crlPhyStatus_state 0) 7).sb (F.crlPhyStatus_lock 0) true).s (F.crlLinkStatus_state 0) 3

/-- An Init exchange that has just begun. -/
def initX : InitX := ⟨false, false, false, false, false, 0, 0, 0, 0⟩

/-- A record of a change by the hardware. -/
def rec0 : Rec := ⟨0, .hardware 0 0, 0, 0, 0, 0, 0, 0⟩

/-- A flit of a type on VC0 with a sequence number, a whole packet in eight bytes. -/
def flit (t q : Nat) : Flit := ⟨BitVec.ofNat 4 t, 0, false, BitVec.ofNat 16 q, 0, 0, true, true, 8, 0, 0, 0, List.replicate 8 0#8⟩

/-- A packet of eight bytes waiting on a VC. -/
def txp : TxPkt := ⟨List.replicate 8 0#8, false, true, 1, none, false⟩

/-- A network header of a type and a length. -/
def nhdr (t n : Nat) : NetHdr := ⟨BitVec.ofNat 8 t, 1, BitVec.ofNat 16 n, 9, false, false, false⟩

/-- A Hello of the node of serial 9. -/
def hello9 : Hello := ⟨nhdr 1 40, 0, 10, 1, 0, 1, 9, 0, false, 0⟩

/-- An LSA of serial 9. -/
def lsa9 : Lsa := ⟨9, false, false, false, 1, 1, 9, []⟩

/-- The key of that LSA. -/
def key9 : LsaKey := ⟨9, 1, 1, 9⟩

/-- A packet of node 1 to instance 2 of this node, the first of its lane. -/
def pkt (a : Nat) (n : Nat) (b : List Byte) : Pkt :=
  ⟨0#12, 1#12, 0#16, 0#8, false, false, 0#8, 0#8, 5#16, 0#8, 0#8, 0#16, 2#16, 0#16, 0#32, BitVec.ofNat 64 a, BitVec.ofNat 16 n, 0#16, 0#8, 0#8, 0#16, 0#32, b, 0#14, 0#160⟩

/-- The node with a packet on its turn path. -/
def turned (k : Pkt) : State := st { node with iso := { node.iso with turn := [k] } }

/-- A freeze that a read of tm_tally_lo began. -/
def frz8 : Frz := ⟨[1#32, 2#32, 3#32, 4#32, 5#32, 6#32, 7#32, 8#32], true⟩

/-- The device with that freeze held by reader `r`. -/
def frozen (r : Nat) : Dev := { up with emb := { up.emb with frz := [(r, frz8)] } }

/-- The device with local port 0's link Open. -/
def openL : Dev := up.s (F.crlLinkStatus_state 8) 3

/-- The device counting on VBAT. -/
def onBat : Dev := { up with emb := { up.emb with onVbat := true } }

/-- The device at a pitch step. -/
def atStep (n : Nat) : Dev := { up with regs := [(R.pitPitchStatus, BitVec.ofNat 64 n)] }

/-- Training state of lane 0: eight good frames heard now, the partner's state 4, native width 4, width 1 accepted, lane 0 reported synced. -/
def lane1 : LaneT := ⟨8, 8, 4, false, 0, 0, 2, up.portRate 0, false, false, 1, false, false, 0, 0, 0, true, 0, 0, 0⟩

/-- Port 0 in a training state, with lane 0 synced and width 1. -/
def trained (n : Nat) : Dev :=
  let d := ((up.s (F.crlPhyStatus_state 0) n).sb (F.crlLaneStatus_synced 0 0) true).setLaneT 0 0 lane1
  d.setPhy 0 { d.phy 0 with width := 1 }

/-- Port 0 up and locked on lane 0, with FEC. -/
def locked : Dev := ((trained 7).sb (F.crlLaneStatus_locked 0 0) true).sb (F.crlPhyStatus_fec_on 0) true

/-- A training frame that is good (R200). -/
def frame1 : BitVec 256 := 0x751700000000000000000000000000000000000000000000000000004b1ed2a7#256

/-- Parity symbols that after a message of zeros lie near no codeword, marked or not (R197, R198): a polynomial with 29 of the generator's 30 roots. -/
def badParity : List (BitVec 10) :=
  [1, 287, 513, 656, 197, 885, 815, 1011, 141, 211, 282, 451, 394, 740, 375] ++ [387, 301, 883, 11, 812, 927, 370, 437, 2, 961, 563, 614, 564, 941, 464]

theorem rsSyndromes_zeros (n : Nat) (l : List (BitVec 10)) : rsSyndromes (List.replicate n 0#10 ++ l) = rsSyndromes l := by
  unfold rsSyndromes
  refine List.map_congr_left (fun j _ => ?_)
  induction n with
  | zero => rfl
  | succ n ih => simpa [List.replicate_succ, gfMul] using ih

theorem rsDecode_far (n : Nat) (l : List (BitVec 10)) (h : ¬ (rsSyndromes l).all (· = 0#10) = true)
    (g : 15 < ((List.range 30).foldl (RsSearch.next (rsSyndromes l)) ⟨[1#10], [1#10], 0, 1, 1#10⟩).len) : rsDecode (List.replicate n 0#10 ++ l) = none := by
  unfold rsDecode
  rw [rsSyndromes_zeros, if_neg h]
  dsimp only
  rw [decide_eq_false (Nat.not_le.2 g), Bool.false_and, Bool.false_and, if_neg Bool.false_ne_true]

theorem rsRead_bad (n : Nat) (h : n = 514) : rsRead (List.replicate n 0#10 ++ badParity) = none := by
  have e : rsUnmark (List.replicate n 0#10 ++ badParity) = List.replicate n 0#10 ++ badParity.map (· ^^^ 0x3FF#10) := by
    unfold rsUnmark
    rw [List.take_left' (by rw [List.length_replicate, h]), List.drop_left' (by rw [List.length_replicate, h])]
  unfold rsRead
  rw [e, rsDecode_far _ _ (by decide +kernel) (by decide +kernel), rsDecode_far _ _ (by decide +kernel) (by decide +kernel)]

theorem rsRead_zeros (n : Nat) (h : n = 544) : rsRead (List.replicate n 0#10) = some (List.replicate 514 0#10, 0, false) := by
  have e : rsSyndromes (List.replicate n 0#10) = rsSyndromes [] := by simpa using rsSyndromes_zeros n []
  unfold rsRead rsDecode
  rw [e, if_pos (by decide +kernel), List.take_replicate, h]
  rfl

/-- The transmitted form of a flit with a sequence number. -/
def txf (q : Nat) : TxFlit := ⟨q, 0, flit 1 q, true, 1, none, false⟩

/-- A received flit, a whole packet, in the shared pool or not. -/
def rxf (sh : Bool) : RxFlit := ⟨0, sh, true, true, false, List.replicate 8 0#8, 0, []⟩

/-- A tracker of one word of memory from 0x1000, marked. -/
def trk : Tracker := ⟨[0#64, 0x1000#64, 0x2000#64, 0x3000#64, 0x0002000000000040#64, 0#64], [(0, 1)], [], [0], [], 1, 0, 0, false, false, false, false, false, 0, 0, 0, 0, false, false, []⟩

/-- The node with a tracker in a state. -/
def tracked (st : Nat) (t : Tracker) : Dev := { (node.s (F.insDlStatus_state 1) st) with iso := { node.iso with dl := [(1, t)] } }

/-- The device as the member of a twin in a role, with the twin link Open. -/
def twin (r : Nat) : Dev := ((openD.s F.genNodeCfg_twin 1).s F.pitTwinStatus_role r).s (F.crlLinkStatus_state 7) 3

/-- A seal of incarnation 0 with the token 7. -/
def sealW : Seal := ⟨1#32, 0#32, 0#64, 0, false, 0#32, 0#64, 7#64, 0#64, 0#64, 0, 0, false, 0#64, 0#64, 0#64⟩

/-! ### Ill-formed commands are refused -/

theorem test_wf_trim_byte_enables : WellFormed (.trimWrite .pf 16#8 0#32) = false := by decide
theorem test_wf_rails_count : WellFormed (.railReading [900, 900]) = false := by decide
theorem test_wf_temps_range : WellFormed (.tempReading [2048, 0, 0, 0, 0, 0, 0, 0]) = false := by decide
theorem test_wf_straps : WellFormed (.strapReread ⟨List.replicate 23 0#32, 0#32, List.replicate 16 0⟩) = false := by decide
theorem test_wf_samples : WellFormed (.strapSamplingComplete ⟨[], 0#32, []⟩) = false := by decide
theorem test_wf_warm_reads : WellFormed (.warmValidationComplete ⟨true, true, true, [⟨3, true⟩], []⟩) = false := by decide
theorem test_wf_pll : WellFormed (.pllLock 65536) = false := by decide
theorem test_wf_flit_type : WellFormed (.dataFlit 0 (flit 2 0)) = false := by decide
theorem test_wf_flit_undefined : WellFormed (.undefinedFlit 0 (flit 1 0)) = false := by decide
theorem test_wf_transport_vc : WellFormed (.wrp .turn 7 (pkt 0 0 [])) = false := by decide
theorem test_wf_bytes : WellFormed (.hostBar2Write 0 0 [1, 2] [true] false) = false := by decide
theorem test_wf_length : WellFormed (.hostBar2Read 0 0 0 4097) = false := by decide
theorem test_wf_atomic : WellFormed (.hostBar2Atomic 0 0 0 .swap 16 []) = false := by decide
theorem test_wf_commons : WellFormed (.commonsAccess .pf 0 true 4 [1] [true]) = false := by decide
theorem test_wf_access : WellFormed (.controlWrite ⟨.lp 0 none, .cfg, 0, 0, false, 15, 0, false⟩) = false := by decide
theorem test_wf_lic_config : WellFormed (.licSrcCfgWrite .pf (.src 40) 255 0) = false := by decide
theorem test_wf_delta : WellFormed (.delta 1 0 [⟨false, 0, []⟩]) = false := by decide
theorem test_wf_vector_base : WellFormed (.licSrcCfgWrite .pf (.vbase 0) 255 0) = true := by decide

/-! ### The spec's own examples -/

/-- 02, the example of R65: Tuesday 2199-12-31 23:59:59 is followed by 2000-01-01 00:00:00 with dow 3. -/
theorem test_calendar_rollover : Cal.tick ⟨59, 59, 23, 2, 31, 12, 199⟩ = ⟨0, 0, 0, 3, 1, 1, 0⟩ := by decide

/-- 02, the example of R69: an hour added at 2032-02-29 23:40:12 dow 7 gives 2032-03-01 00:40:13 dow 1 at the boundary. -/
theorem test_dst_add : (Cal.tick ⟨12, 40, 23, 7, 29, 2, 32⟩).addHour = ⟨13, 40, 0, 1, 1, 3, 32⟩ := by decide

/-- 02, the example of R84: an hour subtracted at 2000-01-01 00:30:15 dow 6 gives 2199-12-31 23:30:16 dow 5. -/
theorem test_dst_subtract : (Cal.tick ⟨15, 30, 0, 6, 1, 1, 0⟩).subHour = ⟨16, 30, 23, 5, 31, 12, 199⟩ := by decide

/-- 03, the example of R101: 122.0 kOhm decides level 12 and is not marginal, 101.5 kOhm decides 12 and is marginal. -/
theorem test_strap_levels : (svLevel 12200, svMarginal 12200, svLevel 10150, svMarginal 10150) = (12, false, 12, true) := by decide

/-- 07, the example of R229: with acked 65,530 and nine flits held, an ack of 1 frees seven of them. -/
theorem test_ack_frees_seven :
    ((((openD.s (F.crlTxSeq_acked 0) 65530).setLnk 0 { openD.lnk 0 with near := [65531, 65532, 65533, 65534, 65535, 0, 1, 2, 3].map txf }).takeAck 0
      { flit 0 0 with ack := 1, ackKind := 1 }).lnk 0).near.map (fun t => t.seq) = [2, 3] := by decide +kernel

/-- 08, the example of R284: at node 5.12 a stream with flow 0x5A3C to 6.1, whose camp entry holds FP0 and FP1, takes FP0. -/
theorem test_hop_choice : ({ up with net := { up.net with tbl := { up.net.tbl with camp := [(6, 0x2008#32)] } } }.s F.netAddr_address 0x14C).normalHop 0x181 0x5A3C = some 0 := by decide +kernel

/-- 11, the example of R387: window 40,001 maps 0x0800_1F80 to 0x0000_0012_3450_1F80. -/
theorem test_inbound_address : hostAddr (pkt 0x08001F80 128 []) (desc 0x08000000 0x10000 0x1234500000 2 3) = 0x1234501F80 := by decide +kernel

/-- 19, the table of R655: the balls of VCORE and VPHY09. -/
theorem test_ball_counts :
    (ballCount (· == .rail .vcore), ballCount (· == .rail .vphy09)) = (372, 109) := by decide +kernel

/-- 19, the names of R650: row indices 12, 20 and 55. -/
theorem test_row_name : (rowName 12, rowName 20, rowName 55) = (['M'], ['A', 'A'], ['B', 'V']) := by decide

/-- 03, R107: SV13 at level 5 and SV14 at level 9 make Subsystem ID 0x7459, of the PF and of a VF. -/
theorem test_subsystem_id :
    [0, 3].map (fun fn => (State.reset.dev.s F.genStrapSvHi_level (5 * 2 ^ 20 + 9 * 2 ^ 24)).cfgView fn 0x2C) = [0x74591D9F#32, 0x74591D9F#32] := by decide +kernel

/-! ### One step -/

theorem test_reset_without_power : State.reset.dev.powered = false := by decide

/-- A trim write reaches its register and its record (R76, R558). -/
theorem test_trim_write :
    (match exec (.trimWrite .pf 15 21) (st up) with | .next t => (t.dev.rd R.embTrim, t.dev.clg.staged.map (fun (r : Rec) => (r.old, r.new))) | _ => (0, [])) = (21#64, [(0#64, 21#64)]) := by decide +kernel

/-- A reserved trim is refused and recorded with the rejected flag (R87, R563). -/
theorem test_trim_reserved :
    (match exec (.trimWrite .pf 15 512) (st up) with | .next t => (t.dev.rd R.embTrim, t.dev.clg.staged.map (fun (r : Rec) => r.flags)) | _ => (1, [])) = (0#64, [1#16]) := by decide +kernel

/-- The manager's ring sets bits of the inbox flags only (R426). -/
theorem test_inbox_ring :
    (match exec (.inboxRing .pf 2 5) (st node) with | .next t => (t.dev.mbxByte 2 36, t.dev.mbxByte 2 37) | _ => (9, 9)) = (5, 0) := by decide +kernel

/-- An acquire of a free hold answers CPL 0 and is held by the requester (R322, R323). -/
theorem test_hold_acquire :
    (match exec (.hacq .turn 3 { pkt 0x40 0 [] with lease := 100 }) (turned { pkt 0x40 0 [] with opcode := 0x10, lease := 100 }) with
      | .next t => t.dev.trn.home.map (fun e => (e.inst, e.addr, e.node, e.held)) | _ => []) = [(2, 0x40#64, 1, true)] := by decide +kernel

/-- An inbound write goes to the host at the address its window gives (R387). -/
theorem test_inbound_write :
    (match exec (.wrp .turn 5 (pkt 0x1010 4 [1, 2, 3, 4])) (turned { pkt 0x1010 4 [1, 2, 3, 4] with opcode := 2 }) with
      | .next t => ((t.dev.iso.eg.lk ⟨[], [], []⟩ 12).groups.flatMap (fun g => g.q)).map (fun q => q.item)
      | _ => []) =
      [.hostW (.mwr 2 0x100010 [1, 2, 3, 4] false) { pkt 0x1010 4 [1, 2, 3, 4] with opcode := 2 } .turn false] := by decide +kernel

/-- A queue is taken first in, first out. -/
theorem test_queue_order : (match step ⟨up, [.reffReturn, .crystalGood]⟩ with | .next t => t.pending | _ => []) = [.crystalGood] := by decide +kernel

/-- A word spells no command. -/
theorem test_no_word : (State.reset.withFetchWord 32 0xFFFFFFFF).pending = [] := by decide

/-! ### The hypotheses of every statement can be met -/

/-- The hypotheses of StepRunsFrontCommand can be met. -/
theorem witness_StepRunsFrontCommand :
    ∃ (s : State) (c : Instr) (rest : List Instr), s.pending = c :: rest := by
  refine ⟨⟨up, [.reffReturn, .crystalGood]⟩, .reffReturn, [.crystalGood], ?_⟩ <;> decide +kernel

/-- The hypotheses of IdleStepTicks can be met. -/
theorem witness_IdleStepTicks :
    ∃ (s : State), s.pending = [] := by
  refine ⟨st up, ?_⟩ <;> decide +kernel

/-- The hypotheses of CommandsKeepTheQueue can be met. -/
theorem witness_CommandsKeepTheQueue :
    (∃ (c : Instr) (s : State) (t : State), exec c s = .next t) ∧
    (∃ (s : State) (t : State), step s = .next t) := by
  refine ⟨⟨.crystalGood, st up, _, act_next _ _⟩,
    ⟨⟨up, []⟩, _, act_next _ _⟩⟩

/-- The hypotheses of QuietEffectsStay can be met. -/
theorem witness_QuietEffectsStay :
    ∃ (s : State) (d : Dev), d.quiet = true := by
  refine ⟨st up, up.sb F.embStatus_osc_stop true, ?_⟩ <;> decide +kernel

/-- The hypotheses of StepKeepsSoundness can be met. -/
theorem witness_StepKeepsSoundness :
    ∃ (s : State) (t : State), s.sound = true ∧ step s = .next t := by
  refine ⟨st up, _, by decide +kernel, act_next _ _⟩

/-- The hypotheses of StepTakesNothingBack can be met. -/
theorem witness_StepTakesNothingBack :
    (∃ (c : Instr) (s : State) (t : State), exec c s = .next t) ∧
    (∃ (s : State) (t : State), step s = .next t) := by
  refine ⟨⟨.crystalGood, st up, _, act_next _ _⟩,
    ⟨⟨up, []⟩, _, act_next _ _⟩⟩

/-- The hypotheses of HostCommandsNeedTheLink can be met. -/
theorem witness_HostCommandsNeedTheLink :
    ∃ (s : State), s.dev.hostHere = false := by
  refine ⟨State.reset, ?_⟩ <;> decide +kernel

/-- The hypotheses of CommonsWriteFrame can be met. -/
theorem witness_CommonsWriteFrame :
    (∃ (d : Dev) (a : Nat) (x : Nat) (b : List Byte), d.sound = true) ∧
    (∃ (s : State) (n : InstNo) (o : BitVec 24) (b : List Byte) (t : State), exec (.commonsAccess (.vf n) o true b.length b (List.replicate b.length true)) s = .next t ∧ s.sound = true ∧ s.dev.hostHere = true ∧ s.dev.hostMem n.toNat = true ∧ s.dev.onlyWatch = false ∧ s.dev.powerOf 0xF00000 = Power.on ∧ n ≠ 0#12 ∧ s.dev.istate n.toNat ≠ 0 ∧ 0x10000 ≤ o.toNat ∧ o.toNat < 0x20000 ∧ b.length ≤ 0x20000 - o.toNat ∧ (s.dev.memStore (n.toNat * 0x10000 + o.toNat % 0x10000) b).quiet = true) := by
  refine ⟨⟨node, 0x20100, 0x20101, [1, 2], ?_⟩,
    ⟨st node, 2, 0x10100, [1, 2], _, (show actIf (st node) ((st node).dev.partyHere (.vf 2)) (fun d => d.commons (.vf 2) 0x10100 true 2 [1, 2] [true, true]) = _ from actIf_next (by decide +kernel) _), ?_⟩⟩ <;> decide +kernel

/-- The hypotheses of RegisterWritesFrame can be met. -/
theorem witness_RegisterWritesFrame :
    (∃ (d : Dev) (f : Fld) (g : Fld) (n : Nat), f.lo ≤ f.hi ∧ f.hi < 64 ∧ g.lo ≤ g.hi ∧ g.hi < 64) ∧
    (∃ (d : Dev) (f : Fld) (g : Fld) (n : Nat), f.lo ≤ f.hi ∧ f.hi < 64 ∧ g.lo ≤ g.hi ∧ g.hi < 64 ∧ (g.hi < f.lo ∨ f.hi < g.lo)) := by
  refine ⟨⟨up, F.fwtAckStatus_result, F.fwtStatus_class, 3, ?_⟩,
    ⟨up, F.embWake_count, F.embWake_unit, 3, ?_⟩⟩ <;> decide +kernel

/-- The hypotheses of RefusedWriteLeavesOnlyItsRecord can be met. -/
theorem witness_RefusedWriteLeavesOnlyItsRecord :
    ∃ (s : State) (fn : InstNo) (off : BitVec 24) (x : W32) (old : W64) (rs : Bool), (s.dev.unfrozen off.toNat).judgeOf .pf (mgrWrite off.toNat x) = .bad old rs false ∧ s.dev.ready off.toNat = true ∧ off.toNat % 4 = 0 ∧ off.toNat < 0xF00000 ∧ regMapped off.toNat = true ∧ off.toNat ≠ R.pitResumeToken ∧ s.dev.limited = false ∧ s.dev.pit.logOpen = true ∧ s.dev.clg.missed = 0 ∧ s.dev.clg.staged.length < 16 := by
  refine ⟨st up, 0#12, BitVec.ofNat 24 R.embTrim, 512#32, 0#64, false, rfl, ?_⟩ <;> decide +kernel

/-- The hypotheses of ReservedEmberEncodingsRejected can be met. -/
theorem witness_ReservedEmberEncodingsRejected :
    (∃ (s : State) (x : W32), s.dev.ready R.embTrim = true ∧ x.toNat % 1024 = 512) ∧
    (∃ (s : State) (x : W32), s.dev.ready R.embWake = true ∧ (x.toNat % 8 = 6 ∨ x.toNat % 8 = 7 ∨ (x.toNat % 8 ≠ 0 ∧ x.toNat / 2 ^ 16 % 2 ^ 12 = 0))) := by
  refine ⟨⟨st up, 0x200#32, ?_⟩,
    ⟨st up, 1#32, ?_⟩⟩ <;> decide +kernel

/-- The hypotheses of UnarmedHoldBreakIsNotRecorded can be met. -/
theorem witness_UnarmedHoldBreakIsNotRecorded :
    ∃ (s : State), bitOf (s.dev.bkp 58) 0 = false := by
  refine ⟨st up, ?_⟩ <;> decide +kernel

/-- The hypotheses of ReservedThresholdRejected can be met. -/
theorem witness_ReservedThresholdRejected :
    ∃ (s : State) (c : Fin 16) (x : W32), s.dev.ready (R.licCoreCfg c.val) = true ∧ 17 ≤ x.toNat % 32 := by
  refine ⟨st up, 3, 17#32, ?_⟩ <;> decide +kernel

/-- The hypotheses of AcknowledgingIdZeroMismatches can be met. -/
theorem witness_AcknowledgingIdZeroMismatches :
    ∃ (s : State) (x : W32), s.dev.ready R.fwtAck = true ∧ x.toNat % 65536 = 0 := by
  refine ⟨st up, 0x10000#32, ?_⟩ <;> decide +kernel

/-- The hypotheses of AcknowledgedRecordsAreReleased can be met. -/
theorem witness_AcknowledgedRecordsAreReleased :
    (∃ (s : State) (a : W64) (tail : W64) (head : W64), tail = s.dev.rd R.clgTail ∧ head = s.dev.rd R.clgHead ∧ s.dev.reaches R.clgAck = true) ∧
    (∃ (s : State) (a : W64) (tail : W64) (head : W64), tail = s.dev.rd R.clgTail ∧ head = s.dev.rd R.clgHead ∧ s.dev.reaches R.clgAck = true ∧ tail.toNat ≤ a.toNat ∧ a.toNat ≤ head.toNat) ∧
    (∃ (s : State) (a : W64) (tail : W64) (head : W64), tail = s.dev.rd R.clgTail ∧ head = s.dev.rd R.clgHead ∧ s.dev.reaches R.clgAck = true ∧ (a.toNat < tail.toNat ∨ head.toNat < a.toNat) ∧ s.dev.swRoom 1 = true) := by
  refine ⟨⟨st (up.wr R.clgHead 2#64), 1#64, _, _, rfl, rfl, ?_⟩,
    ⟨st (up.wr R.clgHead 2#64), 1#64, _, _, rfl, rfl, ?_⟩,
    ⟨st (up.wr R.clgHead 2#64), 3#64, _, _, rfl, rfl, ?_⟩⟩ <;> decide +kernel

/-- The hypotheses of ResumeTokenIsKeptSecret can be met. -/
theorem witness_ResumeTokenIsKeptSecret :
    ∃ (s : State) (x : W64) (r : Rec) (d : Dev), r = s.dev.recOf (mgrWrite8 R.pitResumeToken 0#64) 1024 0#64 0#64 ∧ d = ({ s.dev.log r with bvc := { (s.dev.log r).bvc with token := x } } : Dev).sb F.pitResumeStatus_token_set (decide (x ≠ 0#64)) ∧ s.dev.ready R.pitResumeToken = true := by
  refine ⟨st up, 5#64, _, _, rfl, rfl, ?_⟩ <;> decide +kernel

/-- The hypotheses of EmberSupplyCommandsComplete can be met. -/
theorem witness_EmberSupplyCommandsComplete :
    (∃ (s : State), s.dev.pins.main = true ∧ s.dev.emb.subst = false) ∧
    (∃ (s : State), s.dev.pins.main = true ∧ s.dev.emb.subst = true) ∧
    (∃ (s : State) (r : Rail), s.dev.emb.vmain = false ∧ s.dev.emb.vbat = false) ∧
    (∃ (s : State), s.dev.embAlive = true ∧ s.dev.emb.onVbat = false) ∧
    (∃ (s : State), s.dev.embAlive = true ∧ s.dev.emb.onVbat = false ∧ s.dev.g F.embSwCount_count = 0) ∧
    (∃ (s : State), s.dev.embAlive = true ∧ s.dev.emb.onVbat = true) ∧
    (∃ (s : State), s.dev.emb.onVbat = false ∧ s.dev.emb.vbat = true) ∧
    (∃ (s : State), s.dev.emb.onVbat = true ∧ s.dev.emb.vmain = true) ∧
    (∃ (s : State), s.dev.embAlive = true) := by
  refine ⟨⟨st up, ?_⟩,
    ⟨st { up with emb := { up.emb with subst := true } }, ?_⟩,
    ⟨st { up with emb := { up.emb with vmain := false } }, .vbat, ?_⟩,
    ⟨st up, ?_⟩,
    ⟨st up, ?_⟩,
    ⟨st onBat, ?_⟩,
    ⟨st { up with emb := { up.emb with vbat := true } }, ?_⟩,
    ⟨st onBat, ?_⟩,
    ⟨st up, ?_⟩⟩ <;> decide +kernel

/-- The hypotheses of EmberEventsComplete can be met. -/
theorem witness_EmberEventsComplete :
    (∃ (s : State), s.dev.emb.swSince = true ∧ s.dev.pins.main = true) ∧
    (∃ (s : State), s.dev.embAlive = true ∧ bitOf (s.dev.bkp 58) 0 = true ∧ bitOf (s.dev.bkp 58) 1 = false) ∧
    (∃ (s : State), s.dev.embAlive = true ∧ s.dev.g F.embWake_unit ≠ 0 ∧ s.dev.pins.main = true) := by
  refine ⟨⟨st { up with emb := { up.emb with swSince := true } }, ?_⟩,
    ⟨st (up.setBkp 58 1), ?_⟩,
    ⟨st (up.wr R.embWake 0x10001#64), ?_⟩⟩ <;> decide +kernel

/-- The hypotheses of EmberClockCommandsComplete can be met. -/
theorem witness_EmberClockCommandsComplete :
    (∃ (s : State), s.dev.embCounts = true) ∧
    (∃ (s : State), s.dev.embCounts = true ∧ s.dev.halted = false) ∧
    (∃ (s : State) (x : W32), s.dev.ready R.embTmCalTime = true ∧ s.dev.binMode = false ∧ s.dev.emb.wall = none ∧ x.toNat % 64 ≤ 59 ∧ x.toNat / 2 ^ 8 % 64 ≤ 59 ∧ x.toNat / 2 ^ 16 % 32 ≤ 23 ∧ x.toNat / 2 ^ 24 % 8 ≠ 0) ∧
    (∃ (s : State) (b : Bool) (w : WallPend), s.dev.emb.wall = some w) ∧
    (∃ (s : State) (x : W32), s.dev.ready R.embWctl = true ∧ x.toNat % 2 = 0 ∧ x.toNat < 4 ∧ s.dev.g F.embWctl_mode = 0) ∧
    (∃ (s : State), s.dev.ready R.embDst = true ∧ s.dev.halted = false ∧ s.dev.gb F.embDst_pending = false) ∧
    (∃ (s : State), s.dev.ready R.embDst = true ∧ s.dev.halted = false ∧ s.dev.gb F.embDst_pending = false) ∧
    (∃ (s : State) (x : W32), s.dev.ready R.embTrim = true ∧ x.toNat < 1024 ∧ x.toNat ≠ 512) ∧
    (∃ (s : State) (o : BitVec 16), s.dev.embCounts = true ∧ s.dev.emb.winOk = true ∧ s.dev.pins.main = true ∧ s.dev.pins.reff = true ∧ s.dev.emb.xtal = true) ∧
    (∃ (s : State) (x : W32), s.dev.ready R.embWake = true ∧ x.toNat % 8 = 0 ∧ x.toNat < 2 ^ 28 ∧ x.toNat / 16 % 2 ^ 12 = 0) := by
  refine ⟨⟨st up, ?_⟩,
    ⟨st up, ?_⟩,
    ⟨st up, 0x01173B3B#32, ?_⟩,
    ⟨st { up with emb := { up.emb with wall := some ⟨.calTime, 15#8, 0#64⟩ } }, true, ⟨.calTime, 15#8, 0#64⟩, ?_⟩,
    ⟨st up, 2#32, ?_⟩,
    ⟨st up, ?_⟩,
    ⟨st up, ?_⟩,
    ⟨st up, 511#32, ?_⟩,
    ⟨st up, 7#16, ?_⟩,
    ⟨st up, 0x50000#32, ?_⟩⟩ <;> decide +kernel

/-- The hypotheses of TimeBlockReadsComplete can be met. -/
theorem witness_TimeBlockReadsComplete :
    (∃ (s : State), s.dev.reaches R.embTmTallyLo = true) ∧
    (∃ (s : State) (i : Fin 8) (f : Frz), s.dev.reaches R.embTmTallyLo = true ∧ i.val ≠ 0 ∧ i.val ≠ 7 ∧ s.dev.emb.frz.find? 0 = some f) ∧
    (∃ (s : State) (i : Fin 8), s.dev.reaches R.embTmTallyLo = true ∧ i.val ≠ 0 ∧ i.val ≠ 7 ∧ s.dev.emb.frz.find? 0 = none) ∧
    (∃ (s : State) (f : Frz), s.dev.reaches R.embTmTallyLo = true ∧ s.dev.emb.frz.find? 0 = some f) ∧
    (∃ (s : State) (p : LPort) (c : Option (Fin 16)), s.dev.powered = true ∧ s.dev.portOpen (8 + p.val) = true ∧ s.dev.powerOf R.embTmTallyLo = Power.on) ∧
    (∃ (s : State) (p : LPort) (c : Option (Fin 16)) (i : Fin 8), s.dev.powered = true ∧ s.dev.portOpen (8 + p.val) = true ∧ s.dev.powerOf R.embTmTallyLo = Power.on ∧ i.val ≠ 0 ∧ i.val ≠ 7) ∧
    (∃ (s : State) (p : LPort) (c : Option (Fin 16)) (i : Fin 8), s.dev.powered = true ∧ s.dev.portOpen (8 + p.val) = true ∧ s.dev.powerOf R.embTmTallyLo = Power.on ∧ i.val ≠ 0 ∧ i.val ≠ 7 ∧ s.dev.emb.frz.find? (1 + p.val) = none) ∧
    (∃ (s : State) (p : LPort) (c : Option (Fin 16)) (i : Fin 8), s.dev.powered = true ∧ s.dev.portOpen (8 + p.val) = true ∧ s.dev.powerOf R.embTmTallyLo = Power.on ∧ i.val ≠ 0 ∧ i.val ≠ 7 ∧ (s.dev.emb.frz.find? (1 + p.val)).isSome = true) ∧
    (∃ (s : State) (p : LPort) (c : Option (Fin 16)), s.dev.powered = true ∧ s.dev.portOpen (8 + p.val) = true ∧ s.dev.powerOf R.embTmTallyLo = Power.on ∧ (s.dev.emb.frz.find? (1 + p.val)).isSome = true) ∧
    (∃ (s : State) (r : Fin 5) (f : Frz), s.dev.emb.frz.find? r.val = some f) := by
  refine ⟨⟨st up, ?_⟩,
    ⟨st (frozen 0), 3, frz8, ?_⟩,
    ⟨st up, 3, ?_⟩,
    ⟨st (frozen 0), frz8, ?_⟩,
    ⟨st openL, 0, none, ?_⟩,
    ⟨st openL, 0, none, 5, ?_⟩,
    ⟨st openL, 0, none, 5, ?_⟩,
    ⟨st { frozen 1 with regs := openL.regs }, 0, none, 5, ?_⟩,
    ⟨st { frozen 1 with regs := openL.regs }, 0, none, ?_⟩,
    ⟨st (frozen 2), 2, frz8, ?_⟩⟩ <;> decide +kernel

/-- The hypotheses of PinCommandsComplete can be met. -/
theorem witness_PinCommandsComplete :
    (∃ (s : State), s.dev.powered = true ∧ s.dev.pins.refclk = true) ∧
    (∃ (s : State), s.dev.powered = true) ∧
    (∃ (s : State), s.dev.powered = true ∧ s.dev.pins.reff = true ∧ s.dev.bvc.phase = BvcPhase.none) ∧
    (∃ (s : State), s.dev.powered = true) ∧
    (∃ (s : State), s.dev.pins.main = false) ∧
    (∃ (s : State), s.dev.pins.main = true) ∧
    (∃ (s : State), s.dev.pins.main = true ∧ s.dev.pins.holdOk = false) ∧
    (∃ (s : State), s.dev.pins.perst = false ∧ s.dev.pins.main = true ∧ s.dev.bvc.phase = BvcPhase.none ∧ s.dev.limited = false ∧ s.dev.complete = false) ∧
    (∃ (s : State) (d : Dev), d = { s.dev with pins := { s.dev.pins with perst := true } } ∧ s.dev.pins.perst = false ∧ s.dev.pins.main = true ∧ s.dev.bvc.phase = BvcPhase.none ∧ s.dev.limited = false ∧ s.dev.complete = true ∧ d.sealBarred = false) ∧
    (∃ (s : State) (mv : List Nat), s.dev.powered = true ∧ mv.length = 7 ∧ (∀ x ∈ mv, x < 8192)) ∧
    (∃ (s : State) (mv : Nat), s.dev.powered = true ∧ mv < 1800) ∧
    (∃ (s : State) (mv : Nat), s.dev.powered = true ∧ 1800 ≤ mv ∧ mv < 2200) ∧
    (∃ (s : State) (mv : Nat), s.dev.powered = true ∧ 2200 ≤ mv ∧ mv < 8192) ∧
    (∃ (s : State) (t : List Int), s.dev.powered = true) ∧
    (∃ (s : State) (t : List Int), s.dev.powered = true ∧ (s.dev.tempStore t).gb (F.genTemp_excluded 7) = false) ∧
    (∃ (s : State), s.dev.powered = true) := by
  refine ⟨⟨st up, ?_⟩,
    ⟨st up, ?_⟩,
    ⟨st up, ?_⟩,
    ⟨st up, ?_⟩,
    ⟨State.reset, ?_⟩,
    ⟨st up, ?_⟩,
    ⟨st up, ?_⟩,
    ⟨st (atStep 13), ?_⟩,
    ⟨st up, _, rfl, ?_⟩,
    ⟨st up, [900, 900, 1200, 1800, 1200, 600, 3300], ?_⟩,
    ⟨st up, 1799, ?_⟩,
    ⟨st up, 1800, ?_⟩,
    ⟨st up, 2200, ?_⟩,
    ⟨st up, [700, 600, 600, 600, 600, 600, 600, 700], ?_⟩,
    ⟨st up, [700, 600, 600, 600, 600, 600, 600, 700], ?_⟩,
    ⟨st up, ?_⟩⟩ <;> decide +kernel

/-- The hypotheses of ControlWriteCompletes can be met. -/
theorem witness_ControlWriteCompletes :
    (∃ (s : State) (fn : InstNo) (off : BitVec 24) (x : W32), s.dev.reaches off.toNat = true ∧ off.toNat % 4 = 0 ∧ off.toNat < 0xF00000 ∧ regMapped off.toNat = true ∧ off.toNat ≠ R.pitResumeToken) ∧
    (∃ (s : State) (fn : InstNo) (off : BitVec 24) (be : BitVec 8) (x : W64) (ep : Bool), s.dev.hostHere = true) ∧
    (∃ (s : State) (fn : InstNo) (off : BitVec 24) (w : Bool) (be : BitVec 8) (x : W64), s.dev.hostHere = true) ∧
    (∃ (s : State) (a : Access), a.pty = .pf ∧ a.ep = true ∧ a.space ≠ .cfg ∧ s.dev.hostHere = true) := by
  refine ⟨⟨st up, 0#12, BitVec.ofNat 24 R.embTrim, 5#32, ?_⟩,
    ⟨st up, 0#12, 4#24, 1#8, 2#64, false, ?_⟩,
    ⟨st up, 0#12, 4#24, false, 15#8, 2#64, ?_⟩,
    ⟨st up, ⟨.pf, .bar4, 0, 4, false, 15, 2, true⟩, ?_⟩⟩ <;> decide +kernel

/-- The hypotheses of PitchStepsComplete can be met. -/
theorem witness_PitchStepsComplete :
    (∃ (s : State) (x : StrapSamples), s.dev.powered = true ∧ s.dev.pitStep = 3) ∧
    (∃ (s : State) (x : StrapPass), s.dev.powered = true ∧ s.dev.pit.sampled = true) ∧
    (∃ (s : State) (r : Nat), s.dev.powered = true ∧ s.dev.pitStep = 4 ∧ s.dev.pins.reff = true ∧ s.dev.fwt.grave = false) ∧
    (∃ (s : State) (r : Nat), s.dev.powered = true ∧ s.dev.pitStep = 4 ∧ s.dev.pins.reff = true ∧ s.dev.fwt.grave = true) ∧
    (∃ (s : State) (a : Bool) (b : Bool), s.dev.powered = true ∧ s.dev.pitStep = 5 ∧ s.dev.limited = false) ∧
    (∃ (s : State), s.dev.powered = true ∧ s.dev.pitStep = 5 ∧ s.dev.limited = false ∧ s.dev.g F.pitPitchStatus_store_attempts < 2) ∧
    (∃ (s : State), s.dev.powered = true ∧ s.dev.pitStep = 5 ∧ s.dev.limited = false ∧ s.dev.g F.pitPitchStatus_store_attempts = 2) ∧
    (∃ (s : State) (ok : Bool) (d : Dev), d = (s.dev.whenD (s.dev.sto.hdrLevel.isSome && !ok) (fun d => d.raise 46)).clearTables ∧ s.dev.powered = true ∧ s.dev.pitStep = 7 ∧ s.dev.gb F.pitPitchStatus_warm = false) ∧
    (∃ (s : State) (r : WarmReads) (x : Seal), s.dev.powered = true ∧ s.dev.pitStep = 7 ∧ s.dev.gb F.pitPitchStatus_warm = true ∧ s.dev.sto.cur = some x ∧ s.dev.warmGood x r = false) ∧
    (∃ (s : State) (r : WarmReads) (x : Seal) (d : Dev), d = s.dev.warmMeets r ∧ s.dev.powered = true ∧ s.dev.pitStep = 7 ∧ s.dev.gb F.pitPitchStatus_warm = true ∧ s.dev.sto.cur = some x ∧ s.dev.warmGood x r = true) ∧
    (∃ (s : State), s.dev.powered = true ∧ s.dev.pit.ready = false ∧ s.dev.pins.perst = false ∧ s.dev.pins.refclk = true ∧ s.dev.pit.logOpen = true ∧ s.dev.limited = false) ∧
    (∃ (s : State), s.dev.powered = true ∧ s.dev.pitStep = 12) := by
  refine ⟨⟨st (atStep 3), ⟨List.replicate 24 0#32, 0#32, List.replicate 16 (0, 0, 0)⟩, ?_⟩,
    ⟨st up, ⟨List.replicate 24 0#32, 0#32, List.replicate 16 0⟩, ?_⟩,
    ⟨st (atStep 4), 2000, ?_⟩,
    ⟨st { atStep 4 with fwt := { up.fwt with grave := true } }, 2000, ?_⟩,
    ⟨st (atStep 5), true, true, ?_⟩,
    ⟨st (atStep 5), ?_⟩,
    ⟨st ((atStep 5).s F.pitPitchStatus_store_attempts 2), ?_⟩,
    ⟨st (atStep 7), false, _, rfl, ?_⟩,
    ⟨st ({ atStep 7 with sto := { up.sto with cur := some sealW } }.sb F.pitPitchStatus_warm true), ⟨false, true, true, [], []⟩, sealW, ?_⟩,
    ⟨st ({ atStep 7 with sto := { up.sto with cur := some sealW, hdrLevel := some 0 } }.sb F.pitPitchStatus_warm true), ⟨true, true, true, [], []⟩, sealW, _, rfl, ?_⟩,
    ⟨st { up with pit := { up.pit with ready := false } }, ?_⟩,
    ⟨st (atStep 12), ?_⟩⟩ <;> decide +kernel

/-- The hypotheses of BlockRepitchCompletes can be met. -/
theorem witness_BlockRepitchCompletes :
    (∃ (s : State) (k : BitVec 8), s.dev.ready R.pitRepitch = true ∧ blockLegal k.toNat = true ∧ s.dev.repitchCheck k.toNat = none) ∧
    (∃ (s : State) (k : BitVec 8) (r : Nat), s.dev.ready R.pitRepitch = true ∧ blockLegal k.toNat = true ∧ s.dev.repitchCheck k.toNat = some r) ∧
    (∃ (s : State) (k : BitVec 8) (r : BReset), s.dev.powered = true ∧ s.dev.resetOf k.toNat = some r ∧ r.step = 3 ∧ s.dev.blockEmpty k.toNat = true) ∧
    (∃ (s : State) (k : BitVec 8) (r : BReset), s.dev.powered = true ∧ s.dev.resetOf k.toNat = some r ∧ r.step = 3 ∧ s.dev.blockEmpty k.toNat = false) ∧
    (∃ (s : State) (k : BitVec 8) (r : BReset), s.dev.powered = true ∧ s.dev.resetOf k.toNat = some r ∧ r.step = 5 ∧ r.fwt = false ∧ r.again = false) ∧
    (∃ (s : State) (k : BitVec 8) (r : BReset), s.dev.powered = true ∧ s.dev.resetOf k.toNat = some r ∧ r.step = 5 ∧ r.fwt = true ∧ r.again = false) := by
  refine ⟨⟨st up, 0x30#8, ?_⟩,
    ⟨st (up.sb F.pitRepitchStatus_busy true), 0x30#8, 3, ?_⟩,
    ⟨st { up with pit := { up.pit with resets := [⟨0x31, 3, false, false, false⟩] } }, 0x31#8, ⟨0x31, 3, false, false, false⟩, ?_⟩,
    ⟨st { node with iso := { node.iso with eg := [(12, ⟨[], [], [⟨2, 0, [⟨.hostW (.mwr 2 0#64 [] false) (pkt 0 0 []) .turn false, 6, 64⟩]⟩]⟩)] }, pit := { up.pit with resets := [⟨0x3A, 3, false, false, false⟩] } }, 0x3A#8, ⟨0x3A, 3, false, false, false⟩, ?_⟩,
    ⟨st { up with pit := { up.pit with resets := [⟨0x31, 5, false, false, false⟩] } }, 0x31#8, ⟨0x31, 5, false, false, false⟩, ?_⟩,
    ⟨st { up with pit := { up.pit with resets := [⟨0x31, 5, true, false, false⟩] } }, 0x31#8, ⟨0x31, 5, true, false, false⟩, ?_⟩⟩ <;> decide +kernel

/-- The hypotheses of StoreCommandsComplete can be met. -/
theorem witness_StoreCommandsComplete :
    (∃ (s : State) (x : UnitRead) (n : Nat) (d : Dev), n = (s.dev.sto.scrubPos + 1) % stoUnits ∧ d = (s.dev.unitRead (64 * s.dev.sto.scrubPos) x).stoMove 6 64 ∧ s.dev.powered = true ∧ s.dev.gb F.stoStatus_scrub_on = true) ∧
    (∃ (s : State) (d : Dev), d = (s.dev.wr R.stoDbgCtl 1#64).sb F.stoDbgCtl_busy true ∧ s.dev.ready R.stoDbgCtl = true ∧ s.dev.rd R.stoDbgCtl = 0#64) ∧
    (∃ (s : State) (p : Bool) (ws : List W64), s.dev.powered = true ∧ s.dev.gb F.stoDbgCtl_busy = true ∧ s.dev.unitWords s.dev.sto.dbgAt = some ws) ∧
    (∃ (s : State) (p : Bool) (d : Dev), d = (List.zip (List.range 8) (s.dev.takeFrees 8).1).foldl (fun (d : Dev) e => d.wr (R.stoDbgData e.1) e.2) (s.dev.takeFrees 8).2 ∧ s.dev.powered = true ∧ s.dev.gb F.stoDbgCtl_busy = true ∧ s.dev.unitWords s.dev.sto.dbgAt = none) ∧
    (∃ (s : State), s.dev.powered = true ∧ s.dev.gb F.stoStatus_ready = true) := by
  refine ⟨⟨st (up.sb F.stoStatus_scrub_on true), .clean, _, _, rfl, rfl, ?_⟩,
    ⟨st up, _, rfl, ?_⟩,
    ⟨st { (up.sb F.stoDbgCtl_busy true) with sto := { up.sto with dbgAt := 0x20000 } }, false, (up.unitWords 0x20000).getD [], ?_⟩,
    ⟨st (up.sb F.stoDbgCtl_busy true), false, _, rfl, ?_⟩,
    ⟨st (up.sb F.stoStatus_ready true), ?_⟩⟩ <;> decide +kernel

/-- The hypotheses of TrainingCommandsComplete can be met. -/
theorem witness_TrainingCommandsComplete :
    (∃ (s : State) (p : Port), s.dev.powered = true ∧ s.dev.phyState p.val = 0 ∧ (s.dev.phy p.val).idle = false ∧ s.dev.mayTrain p.val = true) ∧
    (∃ (s : State) (p : Port) (l : Fin 8) (f : BitVec 256), s.dev.powered = true ∧ 1 ≤ s.dev.phyState p.val ∧ s.dev.phyState p.val ≤ 5 ∧ l.val < lanesOf p.val ∧ goodFrame f = none) ∧
    (∃ (s : State) (p : Port) (l : Fin 8) (f : BitVec 256) (g : BitVec 256) (inv : Bool), s.dev.powered = true ∧ 4 ≤ s.dev.phyState p.val ∧ s.dev.phyState p.val ≤ 5 ∧ l.val < lanesOf p.val ∧ goodFrame f = some (g, inv)) ∧
    (∃ (s : State) (p : Port) (l : Fin 8) (f : BitVec 256) (g : BitVec 256) (inv : Bool) (d : Dev) (e : Dev), d = s.dev.setLaneT p.val l.val ((s.dev.laneT p.val l.val).take g inv s.dev.now) ∧ e = d.whenD (8 ≤ (d.laneT p.val l.val).run) (fun d => (d.sb (F.crlLaneStatus_synced p.val l.val) true).sb (F.crlLaneStatus_inverted p.val l.val) inv) ∧ s.dev.powered = true ∧ (s.dev.phyState p.val = 1 ∨ s.dev.phyState p.val = 2) ∧ l.val < lanesOf p.val ∧ goodFrame f = some (g, inv)) ∧
    (∃ (s : State) (p : Port) (l : Fin 8) (f : BitVec 256) (g : BitVec 256) (inv : Bool) (d : Dev) (e : Dev), d = s.dev.setLaneT p.val l.val ((s.dev.laneT p.val l.val).take g inv s.dev.now) ∧ e = (d.steer p.val (d.laneT p.val l.val).lane (frameFld g 55 54) (frameFld g 57 56)).adapt p.val l.val ∧ s.dev.powered = true ∧ s.dev.phyState p.val = 3 ∧ l.val < lanesOf p.val ∧ goodFrame f = some (g, inv)) ∧
    (∃ (s : State) (p : Port), s.dev.powered = true ∧ (s.dev.phyState p.val = 1 ∨ s.dev.phyState p.val = 3 ∨ s.dev.phyState p.val = 6)) ∧
    (∃ (s : State) (p : Port), s.dev.powered = true ∧ s.dev.phyState p.val = 0 ∧ (s.dev.phy p.val).idle = true) ∧
    (∃ (s : State) (p : Port) (w : Nat), s.dev.powered = true ∧ s.dev.phyState p.val = 2 ∧ s.dev.mismatch p.val = false ∧ s.dev.widthOf p.val = some w) ∧
    (∃ (s : State) (p : Port), s.dev.powered = true ∧ s.dev.phyState p.val = 2 ∧ s.dev.mismatch p.val = false ∧ s.dev.widthOf p.val = none) ∧
    (∃ (s : State) (p : Port), s.dev.powered = true ∧ s.dev.phyState p.val = 4 ∧ s.dev.mismatch p.val = false ∧ s.dev.configHeard p.val = true) ∧
    (∃ (s : State) (p : Port), s.dev.powered = true ∧ s.dev.phyState p.val = 4 ∧ (s.dev.mismatch p.val = true ∨ s.dev.configHeard p.val = false)) ∧
    (∃ (s : State) (p : Port), s.dev.powered = true ∧ s.dev.phyState p.val = 5) ∧
    (∃ (s : State) (p : Port), s.dev.powered = true ∧ s.dev.phyState p.val = 6) := by
  refine ⟨⟨st up, 0, ?_⟩,
    ⟨st (up.s (F.crlPhyStatus_state 0) 1), 0, 0, 0#256, ?_⟩,
    ⟨st (up.s (F.crlPhyStatus_state 0) 4), 0, 0, frame1, frame1, false, ?_⟩,
    ⟨st (up.s (F.crlPhyStatus_state 0) 1), 0, 0, frame1, frame1, false, _, _, rfl, rfl, ?_⟩,
    ⟨st (up.s (F.crlPhyStatus_state 0) 3), 0, 0, frame1, frame1, false, _, _, rfl, rfl, ?_⟩,
    ⟨st (up.s (F.crlPhyStatus_state 0) 3), 0, ?_⟩,
    ⟨st (up.setPhy 0 { up.phy 0 with idle := true }), 0, ?_⟩,
    ⟨st (trained 2), 0, 1, ?_⟩,
    ⟨st (up.s (F.crlPhyStatus_state 0) 2), 0, ?_⟩,
    ⟨st (trained 4), 0, ?_⟩,
    ⟨st { trained 4 with now := 5 }, 0, ?_⟩,
    ⟨st (trained 5), 0, ?_⟩,
    ⟨st (trained 6), 0, ?_⟩⟩ <;> decide +kernel

/-- The hypotheses of LockAndMeasurementCommandsComplete can be met. -/
theorem witness_LockAndMeasurementCommandsComplete :
    (∃ (s : State) (p : Port) (l : Fin 8) (cw : List (BitVec 10)) (gap : Nat) (u : Dev × List Bool) (t : LaneL × Bool) (d : Dev), s.dev.powered = true ∧ 6 ≤ s.dev.phyState p.val ∧ s.dev.gb (F.crlPhyStatus_fec_on p.val) = true ∧ l.val ∈ s.dev.trainedLanes p.val ∧ rsRead cw = none ∧ gap = 512 / max 1 (s.dev.phy p.val).width ∧ u = s.dev.unscramble p.val l.val (codewordBits (cw.take 514)) ∧ u.1.laneLocked p.val l.val = true ∧ t = (u.1.laneL p.val l.val).keepCw gap false false ∧ d = (u.1.bump (F.crlUncorrCw_count p.val l.val)).setLaneL p.val l.val t.1) ∧
    (∃ (s : State) (p : Port) (l : Fin 8) (cw : List (BitVec 10)) (m : List (BitVec 10)) (n : Nat) (k : Bool) (gap : Nat) (u : Dev × List Bool) (t : LaneL × Bool), s.dev.powered = true ∧ 6 ≤ s.dev.phyState p.val ∧ s.dev.gb (F.crlPhyStatus_fec_on p.val) = true ∧ l.val ∈ s.dev.trainedLanes p.val ∧ rsRead cw = some (m, n, k) ∧ gap = 512 / max 1 (s.dev.phy p.val).width ∧ u = s.dev.unscramble p.val l.val (codewordBits m) ∧ u.1.laneLocked p.val l.val = false ∧ t = (u.1.laneL p.val l.val).seek gap true k) ∧
    (∃ (s : State) (p : Port) (l : Fin 8) (h : BitVec 2) (x : BitVec 64) (gap : Nat) (u : Dev × List Bool) (t : LaneL × Bool), gap = 32 / max 1 (s.dev.phy p.val).width ∧ u = s.dev.unscramble p.val l.val (bitsLE 64 x.toNat) ∧ t = (u.1.laneL p.val l.val).seekHdr gap h.toNat ∧ s.dev.powered = true ∧ 6 ≤ s.dev.phyState p.val ∧ s.dev.gb (F.crlPhyStatus_fec_on p.val) = false ∧ l.val ∈ s.dev.trainedLanes p.val ∧ u.1.laneLocked p.val l.val = false) ∧
    (∃ (s : State) (p : Port) (l : Fin 8), s.dev.powered = true ∧ 6 ≤ s.dev.phyState p.val ∧ s.dev.laneLocked p.val l.val = true) ∧
    (∃ (s : State) (p : Port) (l : Fin 8) (e : Bool) (d : Dev), d = (s.dev.sb (F.crlLaneStatus_locked p.val l.val) true).bump (F.crlLockLoss_count p.val l.val) ∧ s.dev.powered = true ∧ s.dev.phyState p.val = 7 ∧ l.val ∈ s.dev.trainedLanes p.val ∧ s.dev.laneLocked p.val l.val = false) ∧
    (∃ (s : State) (p : Port) (l : Fin 8) (e : Bool) (d : Dev), d = (s.dev.sb (F.crlLaneStatus_locked p.val l.val) true).bump (F.crlLockLoss_count p.val l.val) ∧ s.dev.powered = true ∧ s.dev.phyState p.val = 7 ∧ l.val ∈ s.dev.trainedLanes p.val ∧ s.dev.laneLocked p.val l.val = false ∧ d.allLocked p.val = false) ∧
    (∃ (s : State) (p : Port) (l : Fin 8) (e : Bool) (d : Dev), d = (s.dev.sb (F.crlLaneStatus_locked p.val l.val) true).bump (F.crlLockLoss_count p.val l.val) ∧ s.dev.powered = true ∧ s.dev.phyState p.val = 7 ∧ l.val ∈ s.dev.trainedLanes p.val ∧ s.dev.laneLocked p.val l.val = false ∧ d.allLocked p.val = true ∧ (e && (d.phy p.val).timer) = true) ∧
    (∃ (s : State) (p : Port) (l : Fin 8) (e : Bool) (d : Dev), d = (s.dev.sb (F.crlLaneStatus_locked p.val l.val) true).bump (F.crlLockLoss_count p.val l.val) ∧ s.dev.powered = true ∧ s.dev.phyState p.val = 7 ∧ l.val ∈ s.dev.trainedLanes p.val ∧ s.dev.laneLocked p.val l.val = false ∧ d.allLocked p.val = true ∧ (e && (d.phy p.val).timer) = false) ∧
    (∃ (s : State) (p : Port), s.dev.powered = true ∧ s.dev.phyState p.val = 7 ∧ (s.dev.phy p.val).timer = true) ∧
    (∃ (s : State) (p : Port), s.dev.ready (R.crlPhyCfg p.val) = true ∧ s.dev.rd (R.crlPhyCfg p.val) = 0#64) ∧
    (∃ (s : State) (r : Nat) (c : PhyCal), c = s.dev.codes ∧ s.dev.powered = true) ∧
    (∃ (s : State) (p : Port) (l : Fin 8), s.dev.ready (R.crlEyeCtl p.val) = true) ∧
    (∃ (s : State) (p : Port) (w : BitVec 8) (h : BitVec 8), s.dev.powered = true ∧ s.dev.gb (F.crlEyeCtl_go p.val) = true) ∧
    (∃ (s : State) (p : Port), s.dev.powered = true ∧ s.dev.g (F.crlErrThresh_count p.val) < (s.dev.phy p.val).corr) := by
  refine ⟨⟨st locked, 0, 0, List.replicate 514 0#10 ++ badParity, _, _, _, _, ?_, ?_, ?_, ?_, rsRead_bad _ rfl, rfl, rfl, ?_, rfl, rfl⟩,
    ⟨st (locked.sb (F.crlLaneStatus_locked 0 0) false), 0, 0, List.replicate 544 0#10, List.replicate 514 0#10, 0, false, _, _, _, ?_, ?_, ?_, ?_, rsRead_zeros _ rfl, rfl, rfl, ?_, rfl⟩,
    ⟨st (trained 7), 0, 0, 2#2, 0#64, _, _, _, rfl, rfl, rfl, ?_⟩,
    ⟨st locked, 0, 0, ?_⟩,
    ⟨st (trained 7), 0, 0, false, _, rfl, ?_⟩,
    ⟨st (((trained 7).sb (F.crlLaneStatus_synced 0 1) true).setLaneT 0 1 { lane1 with lane := 1 } |>.setPhy 0 { (((trained 7).setLaneT 0 1 { lane1 with lane := 1 })).phy 0 with width := 2 }), 0, 0, false, _, rfl, ?_⟩,
    ⟨st ((trained 7).setPhy 0 { (trained 7).phy 0 with timer := true }), 0, 0, true, _, rfl, ?_⟩,
    ⟨st (trained 7), 0, 0, false, _, rfl, ?_⟩,
    ⟨st ((up.s (F.crlPhyStatus_state 0) 7).setPhy 0 { up.phy 0 with timer := true }), 0, ?_⟩,
    ⟨st (up.wr (R.crlPhyCfg 0) 0#64), 0, ?_⟩,
    ⟨st up, 2300, _, rfl, ?_⟩,
    ⟨st up, 0, 3, ?_⟩,
    ⟨st (up.sb (F.crlEyeCtl_go 0) true), 0, 5#8, 6#8, ?_⟩,
    ⟨st (up.setPhy 0 { up.phy 0 with corr := 2000000 }), 0, ?_⟩⟩ <;> decide +kernel

/-- The hypotheses of LinkSendCommandsComplete can be met. -/
theorem witness_LinkSendCommandsComplete :
    (∃ (s : State) (p : Port) (ok : Bool) (bad : Bool) (x : InitX), s.dev.powered = true ∧ s.dev.phyState p.val = 7 ∧ (s.dev.lnk p.val).init = some x ∧ s.dev.portOpen p.val = false) ∧
    (∃ (s : State) (p : Port) (ok : Bool) (bad : Bool), s.dev.powered = true ∧ s.dev.phyState p.val = 7 ∧ (s.dev.lnk p.val).init = none ∧ s.dev.portOpen p.val = false) ∧
    (∃ (s : State) (p : Port) (ok : Bool) (bad : Bool) (q : Nat) (t : List Nat), s.dev.powered = true ∧ s.dev.phyState p.val = 7 ∧ (s.dev.lnk p.val).init = none ∧ s.dev.portOpen p.val = true ∧ (s.dev.lnk p.val).replay = q :: t ∧ (bad = false ∨ (s.dev.lnk p.val).far.any (fun e => e.seq = q) = false)) ∧
    (∃ (s : State) (p : Port) (ok : Bool) (q : Nat) (t : List Nat), s.dev.powered = true ∧ s.dev.phyState p.val = 7 ∧ s.dev.portOpen p.val = true ∧ (s.dev.lnk p.val).replay = q :: t ∧ (s.dev.lnk p.val).far.any (fun e => e.seq = q) = true) ∧
    (∃ (s : State) (p : Port) (ok : Bool) (bad : Bool) (v : Nat) (d : Dev), d = s.dev.setLnk p.val { s.dev.lnk p.val with stuck := false } ∧ s.dev.powered = true ∧ s.dev.phyState p.val = 7 ∧ (s.dev.lnk p.val).init = none ∧ s.dev.portOpen p.val = true ∧ (s.dev.lnk p.val).replay = [] ∧ s.dev.spillStuck p.val ok = false ∧ d.uCount p.val < d.limitL ∧ d.spillStuck p.val ok = false ∧ d.nextTxVc p.val = some v) ∧
    (∃ (s : State) (p : Port), s.dev.powered = true ∧ 2 ≤ s.dev.linkState p.val ∧ s.dev.uCount p.val ≠ 0) ∧
    (∃ (s : State) (p : Port) (x : InitX), s.dev.powered = true ∧ (s.dev.lnk p.val).init = some x) ∧
    (∃ (s : State) (p : Port), s.dev.powered = true ∧ s.dev.gb (F.crlLinkStatus_held p.val) = true ∧ s.dev.linkState p.val < 2 ∧ p.val < 8) ∧
    (∃ (s : State) (p : Port), s.dev.powered = true ∧ (s.dev.lnk p.val).txq.any (fun e => !e.2.isEmpty) = true ∧ s.dev.takesFlits p.val = false) ∧
    (∃ (s : State) (p : Port), s.dev.powered = true ∧ s.dev.g (F.crlReplayThresh_count p.val) < (s.dev.lnk p.val).replays) := by
  refine ⟨⟨st ((openD.setLnk 0 { openD.lnk 0 with init := some initX }).s (F.crlLinkStatus_state 0) 1), 0, true, false, initX, ?_⟩,
    ⟨st (openD.s (F.crlLinkStatus_state 0) 2), 0, true, false, ?_⟩,
    ⟨st (openD.setLnk 0 { openD.lnk 0 with replay := [0], near := [txf 0] }), 0, true, false, 0, [], ?_⟩,
    ⟨st (openD.setLnk 0 { openD.lnk 0 with replay := [0], far := [txf 0] }), 0, true, 0, [], ?_⟩,
    ⟨st ((openD.setLnk 0 { openD.lnk 0 with txq := [(1, [txp])] }).s (F.crlTxDed_ded 0 1) 8), 0, true, false, 1, _, rfl, ?_⟩,
    ⟨st (openD.setLnk 0 { openD.lnk 0 with near := [txf 0] }), 0, ?_⟩,
    ⟨st (openD.setLnk 0 { openD.lnk 0 with init := some initX }), 0, initX, ?_⟩,
    ⟨st ((openD.sb (F.crlLinkStatus_held 0) true).s (F.crlLinkStatus_state 0) 0), 0, ?_⟩,
    ⟨st (openD.setLnk 0 { openD.lnk 0 with txq := [(1, [txp])], near := List.replicate 32 (txf 0), stuck := true }), 0, ?_⟩,
    ⟨st (openD.setLnk 0 { openD.lnk 0 with replays := 100000 }), 0, ?_⟩⟩ <;> decide +kernel

/-- The hypotheses of LinkReceiveCommandsComplete can be met. -/
theorem witness_LinkReceiveCommandsComplete :
    (∃ (s : State) (p : Port) (f : Flit), s.dev.powered = true ∧ (s.dev.takeUp p.val).receives p.val = true ∧ 2 ≤ (s.dev.takeUp p.val).linkState p.val ∧ f.seq.toNat = ((s.dev.takeUp p.val).takeHeader p.val f).rxE p.val ∧ ((s.dev.takeUp p.val).takeHeader p.val f).creditOut p.val f = true ∧ f.len.toNat < 240) ∧
    (∃ (s : State) (p : Port) (f : Flit), s.dev.powered = true ∧ (s.dev.takeUp p.val).receives p.val = true ∧ 2 ≤ (s.dev.takeUp p.val).linkState p.val ∧ f.seq.toNat = ((s.dev.takeUp p.val).takeHeader p.val f).rxE p.val) ∧
    (∃ (s : State) (p : Port) (f : Flit) (x : InitX), s.dev.powered = true ∧ (s.dev.takeUp p.val).receives p.val = true ∧ (s.dev.takeUp p.val).linkState p.val < 2 ∧ ((s.dev.takeUp p.val).lnk p.val).init = some x ∧ p.val ≠ 7) ∧
    (∃ (s : State) (p : Port) (f : Flit), s.dev.powered = true ∧ (s.dev.takeUp p.val).receives p.val = true ∧ 2 ≤ (s.dev.takeUp p.val).linkState p.val ∧ f.seq.toNat = ((s.dev.takeUp p.val).takeHeader p.val f).rxE p.val) ∧
    (∃ (s : State) (p : Port), s.dev.powered = true ∧ (s.dev.takeUp p.val).receives p.val = true) ∧
    (∃ (s : State) (p : Port) (v : Fin 8) (bad : Bool) (f : RxFlit) (q : List RxFlit), s.dev.powered = true ∧ s.dev.admissionFull p.val v.val = false ∧ (s.dev.lnk p.val).rxBuf.lk [] v.val = f :: q ∧ f.abort = false ∧ f.sop = true ∧ f.eop = true ∧ f.shared = false) ∧
    (∃ (s : State) (p : Port) (v : Fin 8) (f : RxFlit), s.dev.powered = true ∧ s.dev.admissionFull p.val v.val = false ∧ s.dev.nextFlit p.val v.val = some f ∧ f.shared = true) := by
  refine ⟨⟨st (openD.setLnk 0 { openD.lnk 0 with gdOut := [(0, 8)] }), 0, flit 1 0, ?_⟩,
    ⟨st openD, 0, flit 2 0, ?_⟩,
    ⟨st ((openD.setLnk 0 { openD.lnk 0 with init := some initX }).s (F.crlLinkStatus_state 0) 1), 0, flit 3 0, initX, ?_⟩,
    ⟨st openD, 0, flit 9 0, ?_⟩,
    ⟨st openD, 0, ?_⟩,
    ⟨st (openD.setLnk 0 { openD.lnk 0 with rxBuf := [(1, [rxf false])] }), 0, 1, false, rxf false, [], ?_⟩,
    ⟨st (openD.setLnk 0 { openD.lnk 0 with rxBuf := [(1, [rxf true])] }), 0, 1, rxf true, ?_⟩⟩ <;> decide +kernel

/-- The hypotheses of NeighbourCommandsComplete can be met. -/
theorem witness_NeighbourCommandsComplete :
    (∃ (s : State) (p : FPort) (h : Hello) (d : Dev), d = s.dev.consumeRaw p.val (helloBytes h) ∧ s.dev.powered = true ∧ d.portOpen p.val = true ∧ d.netOn = true ∧ hdrOk h.hdr 1 40 = true ∧ (d.helloCap p.val).2 = true) ∧
    (∃ (s : State) (p : FPort), s.dev.powered = true ∧ (s.dev.complete = true ∨ (s.dev.nbr p.val).helloTx ≠ s.dev.now / 1000 + 1)) ∧
    (∃ (s : State) (p : FPort), s.dev.powered = true ∧ s.dev.nbrState p.val ≠ 0) ∧
    (∃ (s : State) (p : FPort) (h : NetHdr) (l : Lsa) (d : Dev), d = s.dev.consumeRaw p.val (lsaBytes h l) ∧ s.dev.powered = true ∧ d.portOpen p.val = true ∧ d.netOn = true ∧ hdrOk h 2 (32 + 16 * l.links.length) = true ∧ l.links.length ≤ 8 ∧ l.serial ≠ d.serial) ∧
    (∃ (s : State) (p : FPort) (h : NetHdr) (k : LsaKey) (l : Lsa) (d : Dev), d = s.dev.consumeRaw p.val (keysBytes h false [k]) ∧ s.dev.powered = true ∧ d.portOpen p.val = true ∧ d.netOn = true ∧ hdrOk h 3 32 = true ∧ d.net.lsdb.find? k.serial.toNat = some l ∧ lsaKey l = k) ∧
    (∃ (s : State) (p : FPort) (h : NetHdr) (last : Bool) (ks : List LsaKey) (d : Dev), d = s.dev.consumeRaw p.val (keysBytes h last ks) ∧ s.dev.powered = true ∧ d.portOpen p.val = true ∧ d.netOn = true ∧ hdrOk h 4 (8 + 24 * ks.length) = true ∧ ks.length ≤ 172 ∧ d.nbrState p.val ≠ 0 ∧ ks.filter d.wants = []) ∧
    (∃ (s : State) (p : FPort) (h : NetHdr) (k : LsaKey) (l : Lsa) (d : Dev), d = s.dev.consumeRaw p.val (keysBytes h false [k]) ∧ s.dev.powered = true ∧ d.portOpen p.val = true ∧ d.netOn = true ∧ hdrOk h 5 32 = true ∧ d.net.lsdb.find? k.serial.toNat = some l) ∧
    (∃ (s : State) (p : FPort), s.dev.powered = true ∧ (s.dev.nbr p.val).reqs ≠ [] ∧ s.dev.portOpen p.val = true) ∧
    (∃ (s : State) (p : FPort) (x : Serial) (l : Lsa), s.dev.powered = true ∧ s.dev.nbrState p.val = 4 ∧ (s.dev.nbr p.val).unacked = [x] ∧ s.dev.net.lsdb.find? x.toNat = some l) := by
  refine ⟨⟨st openD, 0, hello9, _, rfl, ?_⟩,
    ⟨st openD, 0, ?_⟩,
    ⟨st (openD.s (F.netNbr_state 0) 2), 0, ?_⟩,
    ⟨st openD, 0, nhdr 2 32, lsa9, _, rfl, ?_⟩,
    ⟨st { openD with net := { openD.net with lsdb := [(9, lsa9)] } }, 0, nhdr 3 32, key9, lsa9, _, rfl, ?_⟩,
    ⟨st ({ openD with net := { openD.net with lsdb := [(9, lsa9)] } }.s (F.netNbr_state 0) 3), 0, nhdr 4 32, true, [key9], _, rfl, ?_⟩,
    ⟨st { openD with net := { openD.net with lsdb := [(9, lsa9)] } }, 0, nhdr 5 32, key9, lsa9, _, rfl, ?_⟩,
    ⟨st (openD.setNbr 0 { openD.nbr 0 with reqs := [key9] }), 0, ?_⟩,
    ⟨st (({ openD with net := { openD.net with lsdb := [(9, lsa9)] } }.s (F.netNbr_state 0) 4).setNbr 0 { openD.nbr 0 with unacked := [9] }), 0, 9, lsa9, ?_⟩⟩ <;> decide +kernel

/-- The hypotheses of RoutingCommandsComplete can be met. -/
theorem witness_RoutingCommandsComplete :
    (∃ (s : State), s.dev.powered = true ∧ s.dev.net.checked = true ∧ s.dev.netOn = true) ∧
    (∃ (s : State) (x : Serial) (l : Lsa), s.dev.powered = true ∧ x ≠ s.dev.serial ∧ s.dev.net.tbl.reach.contains x.toNat = false ∧ s.dev.net.lsdb.find? x.toNat = some l) ∧
    (∃ (s : State), s.dev.powered = true ∧ s.dev.net.dirty = true ∧ s.dev.net.run = none ∧ s.dev.netOn = true) ∧
    (∃ (s : State) (r : Routes) (d : Dev), d = ((s.dev.s F.netRoot_root r.root).s F.netRoot_level r.level).sb F.netStatus_root_self (decide (r.root = s.dev.addr.toNat) && decide (s.dev.g F.netStatus_claim = 2)) ∧ s.dev.powered = true ∧ s.dev.net.run = some r ∧ s.dev.net.tbl.reach.all (fun x => r.reach.contains x) = true ∧ (({ d with net := { d.net with tbl := r, shown := true, run := none } } : Dev).snapWrite.licPulse 548).settledNet = false) ∧
    (∃ (s : State) (p : FPort), s.dev.powered = true ∧ s.dev.gb (F.netNbr_damped p.val) = true) ∧
    (∃ (s : State) (p : FPort), s.dev.powered = true) ∧
    (∃ (s : State), s.dev.powered = true ∧ s.dev.netOn = true ∧ 11 ≤ s.dev.pitStep ∧ s.dev.net.checked = true ∧ s.dev.settledNet = true ∧ (s.dev.sb F.netStatus_converged true).g F.netStatus_claim = 2) := by
  refine ⟨⟨st { openD with net := { openD.net with lsdb := [(9, lsa9)], checked := true } }, ?_⟩,
    ⟨st { openD with net := { openD.net with lsdb := [(9, lsa9)] } }, 9, lsa9, ?_⟩,
    ⟨st { openD with net := { openD.net with lsdb := [(9, lsa9)], dirty := true } }, ?_⟩,
    ⟨st { openD with net := { openD.net with lsdb := [(9, lsa9)], run := some ⟨[], [], [], [], 7, 0, [7]⟩ } }, ⟨[], [], [], [], 7, 0, [7]⟩, _, rfl, ?_⟩,
    ⟨st (openD.sb (F.netNbr_damped 0) true), 0, ?_⟩,
    ⟨st (openD.s (F.netNbrCost_downs 0) 3), 0, ?_⟩,
    ⟨st ({ openD with net := { openD.net with lsdb := [(9, lsa9)], checked := true } }.s F.netStatus_claim 2), ?_⟩⟩ <;> decide +kernel

/-- The hypotheses of MemoryRequestsComplete can be met. -/
theorem witness_MemoryRequestsComplete :
    (∃ (s : State) (via : Via) (vc : BitVec 3) (k : Pkt) (op : BitVec 8) (c : Instr) (x : Nat × List W64), (c, op) ∈ [(Instr.wrp via vc k, 2#8), (Instr.wra via vc k, 3#8)] ∧ s.dev.serves via vc.toNat { k with opcode := op } = true ∧ (s.dev.taken via { k with opcode := op }).winLookup k.di 2 k.addr.toNat = some x ∧ (s.dev.taken via { k with opcode := op }).inboundOk { k with opcode := op } x.2 = true) ∧
    (∃ (s : State) (via : Via) (vc : BitVec 3) (k : Pkt) (op : BitVec 8) (c : Instr) (x : Nat × List W64), (c, op) ∈ [(Instr.rd via vc k, 1#8), (Instr.fadd via vc k, 4#8), (Instr.swap via vc k, 5#8), (Instr.cas via vc k, 6#8)] ∧ s.dev.serves via vc.toNat { k with opcode := op } = true ∧ (s.dev.taken via { k with opcode := op }).winLookup k.di 2 k.addr.toNat = some x ∧ (s.dev.taken via { k with opcode := op }).inboundOk { k with opcode := op } x.2 = true) ∧
    (∃ (s : State) (via : Via) (vc : BitVec 3) (k : Pkt) (op : BitVec 8) (c : Instr) (p : Nat), (c, op) ∈ [(Instr.rd via vc k, 1#8), (Instr.wrp via vc k, 2#8), (Instr.wra via vc k, 3#8), (Instr.fadd via vc k, 4#8), (Instr.swap via vc k, 5#8), (Instr.cas via vc k, 6#8)] ∧ s.dev.serves via vc.toNat { k with opcode := op } = true ∧ (s.dev.taken via { k with opcode := op }).winLookup k.di 2 k.addr.toNat = none ∧ (s.dev.taken via { k with opcode := op }).localOk { k with opcode := op } p = true) := by
  refine ⟨⟨st { node with iso := { node.iso with turn := [{ pkt 0x1010 4 [1, 2, 3, 4] with opcode := 2 }] } }, .turn, 5, pkt 0x1010 4 [1, 2, 3, 4], 2, .wrp .turn 5 (pkt 0x1010 4 [1, 2, 3, 4]), (3, desc 0x1000 0x1000 0x100000 2 15), ?_⟩,
    ⟨st { node with iso := { node.iso with turn := [{ pkt 0x1010 4 [] with opcode := 1 }] } }, .turn, 3, pkt 0x1010 4 [], 1, .rd .turn 3 (pkt 0x1010 4 []), (3, desc 0x1000 0x1000 0x100000 2 15), ?_⟩,
    ⟨st { node with iso := { node.iso with turn := [{ pkt 0x3010 4 [1, 2, 3, 4] with opcode := 2 }] } }, .turn, 5, pkt 0x3010 4 [1, 2, 3, 4], 2, .wrp .turn 5 (pkt 0x3010 4 [1, 2, 3, 4]), 0, ?_⟩⟩ <;> decide +kernel

/-- The hypotheses of MessageFenceAndProbeComplete can be met. -/
theorem witness_MessageFenceAndProbeComplete :
    (∃ (s : State) (via : Via) (vc : BitVec 3) (k : Pkt), s.dev.serves via vc.toNat { k with opcode := 7#8 } = true ∧ (s.dev.taken via { k with opcode := 7#8 }).blockClosing 0x40 = false ∧ bitOf ((s.dev.taken via { k with opcode := 7#8 }).ig k.di 3 1) 0 = true) ∧
    (∃ (s : State) (via : Via) (vc : BitVec 3) (k : Pkt), s.dev.serves via vc.toNat { k with opcode := 8#8 } = true ∧ (s.dev.taken via { k with opcode := 8#8 }).blockClosing 0x40 = false ∧ bitOf ((s.dev.taken via { k with opcode := 8#8 }).ig k.di 3 1) 0 = true) ∧
    (∃ (s : State) (via : Via) (vc : BitVec 3) (k : Pkt), s.dev.serves via vc.toNat { k with opcode := 9#8 } = true) ∧
    (∃ (s : State) (via : Via) (vc : BitVec 3) (k : Pkt) (d : Dev), d = (s.dev.consume via { k with opcode := 0xA#8 }).touch (sliceDomain k.di) (sliceDomain k.di) ∧ s.dev.admits via vc.toNat { k with opcode := 0xA#8 } = true ∧ vcClass vc.toNat = .nonPosted ∧ malformed { k with opcode := 0xA#8 } = false ∧ reservedEnc k = false) ∧
    (∃ (s : State) (via : Via) (vc : BitVec 3) (k : Pkt), s.dev.inLane via vc.toNat k = true ∧ opClass k.opcode = none ∧ vcClass vc.toNat = .nonPosted) ∧
    (∃ (s : State) (via : Via) (vc : BitVec 3) (k : Pkt), s.dev.inLane via vc.toNat k = true ∧ opClass k.opcode = none ∧ vcClass vc.toNat = .posted) := by
  refine ⟨⟨st { node with iso := { node.iso with turn := [{ pkt 0x1010 4 [1, 2, 3, 4] with opcode := 7 }] } }, .turn, 5, pkt 0x1010 4 [1, 2, 3, 4], ?_⟩,
    ⟨st { node with iso := { node.iso with turn := [{ pkt 0x1010 4 [1, 2, 3, 4] with opcode := 8 }] } }, .turn, 3, pkt 0x1010 4 [1, 2, 3, 4], ?_⟩,
    ⟨st { node with iso := { node.iso with turn := [{ pkt 0x40 0 [] with opcode := 9 }] } }, .turn, 3, pkt 0x40 0 [], ?_⟩,
    ⟨st { node with iso := { node.iso with turn := [{ pkt 0x40 0 [] with opcode := 0xA }] } }, .turn, 3, pkt 0x40 0 [], _, rfl, ?_⟩,
    ⟨turned { pkt 0x40 0 [] with opcode := 0x33 }, .turn, 3, { pkt 0x40 0 [] with opcode := 0x33 }, ?_⟩,
    ⟨turned { pkt 0x40 0 [] with opcode := 0x33 }, .turn, 5, { pkt 0x40 0 [] with opcode := 0x33 }, ?_⟩⟩ <;> decide +kernel

/-- The hypotheses of HoldRequestsComplete can be met. -/
theorem witness_HoldRequestsComplete :
    (∃ (s : State) (via : Via) (vc : BitVec 3) (k : Pkt) (q : Pkt) (d : Dev), q = { k with opcode := 0x10#8 } ∧ d = (s.dev.taken via q).tickHold k.di k.addr ∧ s.dev.serves via vc.toNat q = true ∧ isTwinHold q = false ∧ d.holdAt k.di k.addr = none ∧ d.noHoldRoom q = false) ∧
    (∃ (s : State) (via : Via) (vc : BitVec 3) (k : Pkt) (q : Pkt) (d : Dev) (e : HoldEnt), q = { k with opcode := 0x10#8 } ∧ d = (s.dev.taken via q).tickHold k.di k.addr ∧ s.dev.serves via vc.toNat q = true ∧ isTwinHold q = false ∧ d.holdAt k.di k.addr = some e ∧ (e.held = false ∨ e.ownedBy q = true)) ∧
    (∃ (s : State) (via : Via) (vc : BitVec 3) (k : Pkt) (q : Pkt) (d : Dev) (e : HoldEnt), q = { k with opcode := 0x11#8 } ∧ d = (s.dev.taken via q).tickHold k.di k.addr ∧ s.dev.serves via vc.toNat q = true ∧ isTwinHold q = false ∧ d.holdAt k.di k.addr = some e ∧ e.held = true ∧ e.ownedBy q = true) ∧
    (∃ (s : State) (via : Via) (vc : BitVec 3) (k : Pkt) (q : Pkt) (d : Dev) (e : HoldEnt), q = { k with opcode := 0x12#8 } ∧ d = (s.dev.taken via q).tickHold k.di k.addr ∧ s.dev.serves via vc.toNat q = true ∧ isTwinHold q = false ∧ d.holdAt k.di k.addr = some e ∧ e.held = true ∧ e.ownedBy q = true) ∧
    (∃ (s : State) (via : Via) (vc : BitVec 3) (k : Pkt) (q : Pkt) (d : Dev), q = { k with opcode := 0x13#8 } ∧ d = (s.dev.taken via q).tickHold k.di k.addr ∧ s.dev.serves via vc.toNat q = true ∧ isTwinHold q = false) ∧
    (∃ (s : State) (via : Via) (vc : BitVec 3) (k : Pkt) (q : Pkt) (d : Dev) (e : HoldEnt), q = { k with opcode := 0x14#8 } ∧ d = (s.dev.consume via q).touch (sliceDomain k.di) (sliceDomain k.di) ∧ s.dev.admits via vc.toNat q = true ∧ vcClass vc.toNat = .posted ∧ malformed q = false ∧ reservedEnc q = false ∧ (d.ins.flr.find? k.di).isSome = false ∧ d.istate k.di ≠ 0 ∧ d.istate k.di ≠ 3 ∧ d.holdAt k.di k.addr = some e ∧ e.held = true ∧ e.node = k.src.toNat ∧ e.ownedBy q = true) ∧
    (∃ (s : State) (i : InstNo) (a : BitVec 64) (e : HoldEnt), s.dev.powered = true ∧ s.dev.holdAt i.toNat a = some e ∧ e.held = true ∧ e.lease ≤ s.dev.tallyMs) := by
  refine ⟨⟨st { node with iso := { node.iso with turn := [{ { pkt 0x40 0 [] with lease := 100 } with opcode := 0x10 }] } }, .turn, 3, { pkt 0x40 0 [] with lease := 100 }, _, _, rfl, rfl, ?_⟩,
    ⟨st { { node with trn := { node.trn with home := [⟨2, 0x40, 1, 0, 0, 5000, true, false⟩] } } with iso := { node.iso with turn := [{ { pkt 0x40 0 [] with lease := 100 } with opcode := 0x10 }] } }, .turn, 3, { pkt 0x40 0 [] with lease := 100 }, _, _, ⟨2, 0x40, 1, 0, 0, 5000, true, false⟩, rfl, rfl, ?_⟩,
    ⟨st { { node with trn := { node.trn with home := [⟨2, 0x40, 1, 0, 0, 5000, true, false⟩] } } with iso := { node.iso with turn := [{ pkt 0x40 0 [] with opcode := 0x11 }] } }, .turn, 3, pkt 0x40 0 [], _, _, ⟨2, 0x40, 1, 0, 0, 5000, true, false⟩, rfl, rfl, ?_⟩,
    ⟨st { { node with trn := { node.trn with home := [⟨2, 0x40, 1, 0, 0, 5000, true, false⟩] } } with iso := { node.iso with turn := [{ { pkt 0x40 0 [] with lease := 100 } with opcode := 0x12 }] } }, .turn, 3, { pkt 0x40 0 [] with lease := 100 }, _, _, ⟨2, 0x40, 1, 0, 0, 5000, true, false⟩, rfl, rfl, ?_⟩,
    ⟨st { { node with trn := { node.trn with home := [⟨2, 0x40, 1, 0, 0, 5000, true, false⟩] } } with iso := { node.iso with turn := [{ pkt 0x40 0 [] with opcode := 0x13 }] } }, .turn, 3, pkt 0x40 0 [], _, _, rfl, rfl, ?_⟩,
    ⟨st { { node with trn := { node.trn with home := [⟨2, 0x40, 1, 0, 0, 5000, true, false⟩] } } with iso := { node.iso with turn := [{ pkt 0x40 0 [] with opcode := 0x14 }] } }, .turn, 5, pkt 0x40 0 [], _, _, ⟨2, 0x40, 1, 0, 0, 5000, true, false⟩, rfl, rfl, ?_⟩,
    ⟨st { node with trn := { node.trn with home := [⟨2, 0x40, 1, 5, 0, 0, true, false⟩] } }, 2, 0x40, ⟨2, 0x40, 1, 5, 0, 0, true, false⟩, ?_⟩⟩ <;> decide +kernel

/-- The hypotheses of LocalDesignRequestsComplete can be met. -/
theorem witness_LocalDesignRequestsComplete :
    (∃ (s : State) (p : LPort) (vc : BitVec 3) (k : Pkt) (op : BitVec 8) (c : Instr), 1 ≤ vc.toNat ∧ vc.toNat ≤ 6 ∧ (c, op) ∈ [(Instr.rd (.loc p) vc k, 1#8), (.wrp (.loc p) vc k, 2#8), (.wra (.loc p) vc k, 3#8), (.fadd (.loc p) vc k, 4#8), (.swap (.loc p) vc k, 5#8), (.cas (.loc p) vc k, 6#8), (.msg (.loc p) vc k, 7#8), (.msga (.loc p) vc k, 8#8), (.fence (.loc p) vc k, 9#8), (.probe (.loc p) vc k, 0xA#8), (.hacq (.loc p) vc k, 0x10#8), (.hrel (.loc p) vc k, 0x11#8), (.hrenew (.loc p) vc k, 0x12#8), (.hquery (.loc p) vc k, 0x13#8), (.hdrop (.loc p) vc k, 0x14#8)]) ∧
    (∃ (s : State) (p : LPort) (vc : BitVec 3) (k : Pkt) (d : Dev), d = s.dev.consume (.loc p) k ∧ s.dev.viaHere (.loc p) k = true ∧ d.draining = false ∧ k.opcode ≠ 0x14#8 ∧ opClass k.opcode = some (vcClass vc.toNat) ∧ malformed k = false ∧ reservedEnc k = false ∧ d.localSpoof p.val k = none ∧ (vcClass vc.toNat = .nonPosted → d.localTagBusy p.val k.tag = false) ∧ k.laneOpen = false ∧ d.admitAt (admitKey p.val k) = some k.sseq.toNat) ∧
    (∃ (s : State) (p : LPort) (i : InstNo) (dst : Addr) (key : BitVec 32) (x : Nat) (e : Nat) (q : Parked), x = streamKey p.val dst.toNat i.toNat key.toNat ∧ s.dev.powered = true ∧ s.dev.admitAt x = some e ∧ s.dev.trn.lpark.filter (fun q => q.key = x) = [q]) := by
  refine ⟨⟨st up, 0, 3, pkt 0 0 [], 1, .rd (.loc 0) 3 (pkt 0 0 []), ?_⟩,
    ⟨st { node with trn := { node.trn with admitExp := [(admitKey 0 { pkt 0x40 4 [] with opcode := 1, src := 0, srcInst := 2, dstInst := 2, flow := flowHash 0 2 0 0 }, 0)] }, regs := (node.s (F.crlLinkStatus_state 8) 3).regs }, 0, 3, { pkt 0x40 4 [] with opcode := 1, src := 0, srcInst := 2, dstInst := 2, flow := flowHash 0 2 0 0 }, _, rfl, ?_⟩,
    ⟨st { node with trn := { node.trn with admitExp := [(streamKey 0 1 2 0, 0)], lpark := [⟨streamKey 0 1 2 0, .loc 0, 3, { pkt 0x40 4 [] with opcode := 1, sseq := 3 }⟩] } }, 0, 2, 1, 0, _, 0, ⟨streamKey 0 1 2 0, .loc 0, 3, { pkt 0x40 4 [] with opcode := 1, sseq := 3 }⟩, rfl, ?_⟩⟩ <;> decide +kernel

/-- The hypotheses of ResponsesAndForwardingComplete can be met. -/
theorem witness_ResponsesAndForwardingComplete :
    (∃ (s : State) (via : Via) (vc : BitVec 3) (k : Pkt) (r : Pkt) (d : Dev) (f : FTag), vcClass vc.toNat = .response ∧ r = { k with opcode := 0x80#8 } ∧ d = s.dev.consume via r ∧ s.dev.viaHere via r = true ∧ (∀ p, via ≠ .loc p) ∧ d.isSelf k.dst = true ∧ d.sto.quar.find? k.tag.toNat = none ∧ d.trn.tags.find? k.tag.toNat = some f ∧ f.pkt.tagUse = k.tagUse ∧ rspLegal k.code.toNat k.detail.toNat = true ∧ k.code ≠ 2#8) ∧
    (∃ (s : State) (p : LPort) (vc : BitVec 3) (k : Pkt) (r : Pkt) (d : Dev) (l : LTag), r = { k with opcode := 0x80#8 } ∧ d = s.dev.consume (.loc p) r ∧ vcClass vc.toNat = .response ∧ s.dev.viaHere (.loc p) r = true ∧ k.tag.toNat < 4096 ∧ d.sto.quar.find? (131072 + (p.val * 4096 + k.tag.toNat)) = none ∧ d.trn.ltags.find? (p.val * 4096 + k.tag.toNat) = some l ∧ l.deliver = true ∧ k.tagUse = d.trn.luse.lk 0#8 (p.val * 4096 + k.tag.toNat) ∧ r.si = l.pkt.di ∧ localCode k.code.toNat k.detail.toNat = true ∧ l.gen = d.generation (8 + p.val)) ∧
    (∃ (s : State) (via : Via) (vc : BitVec 3) (k : Pkt) (d : Dev) (p : Nat), d = s.dev.consume via k ∧ s.dev.viaHere via k = true ∧ s.dev.isSelf k.dst = false ∧ d.isSelf k.dst = false ∧ (vcClass vc.toNat ≠ .response → d.joined = true ∧ d.draining = false) ∧ d.noTransport = false ∧ k.ttl ≠ 0#8 ∧ k.esc = false ∧ d.normalHop k.dst k.flow = some p) ∧
    (∃ (s : State) (p : FPort) (vc : BitVec 3) (q : QEnt) (k : Pkt), s.dev.powered = true ∧ (s.dev.ded p.val vc.toNat + s.dev.sharedCr p.val = 0 ∨ s.dev.portOpen p.val = false) ∧ (s.dev.egress p.val).rsp.find? (fun q => (escapable vc.toNat q).isSome) = some q ∧ escapable vc.toNat q = some k) := by
  refine ⟨⟨st { node with trn := { node.trn with tags := [(0, ⟨{ pkt 0 4 [] with opcode := 1, dst := 1, src := 0 }, .none, false⟩)] }, iso := { node.iso with turn := [{ pkt 0 0 [] with tag := 0, opcode := 0x80, code := 0 }] } }, .turn, 1, { pkt 0 0 [] with tag := 0, opcode := 0x80, code := 0 }, _, _, ⟨{ pkt 0 4 [] with opcode := 1, dst := 1, src := 0 }, .none, false⟩, ?_, rfl, rfl, ?_, nofun, ?_, ?_, ?_, ?_, ?_, ?_⟩,
    ⟨st { node with trn := { node.trn with ltags := [(0, ⟨true, { pkt 0x3010 4 [] with opcode := 1 }, .turn, 0⟩)] }, regs := (node.s (F.crlLinkStatus_state 8) 3).regs }, 0, 1, { pkt 0 4 [1, 2, 3, 4] with tag := 0, opcode := 0x80, srcInst := 2, code := 1 }, _, _, ⟨true, { pkt 0x3010 4 [] with opcode := 1 }, .turn, 0⟩, rfl, rfl, ?_⟩,
    ⟨st { openD with net := { openD.net with tbl := { openD.net.tbl with member := [(9, 0x1000#32)] } }, iso := { up.iso with turn := [{ pkt 0 0 [] with dst := 9, ttl := 5, opcode := 2 }] } }, .turn, 5, { pkt 0 0 [] with dst := 9, ttl := 5, opcode := 2 }, _, 0, rfl, ?_⟩,
    ⟨st { up with iso := { up.iso with eg := [(0, ⟨[], [⟨.tp (pkt 0 0 []), 2, 64⟩], []⟩)] } }, 0, 2, ⟨.tp (pkt 0 0 []), 2, 64⟩, pkt 0 0 [], ?_⟩⟩ <;> decide +kernel

/-- The hypotheses of TransportTimersComplete can be met. -/
theorem witness_TransportTimersComplete :
    (∃ (s : State), s.dev.powered = true) ∧
    (∃ (s : State) (n : Addr) (f : BitVec 16) (e : Nat) (q : Parked), s.dev.powered = true ∧ s.dev.laneExp (n.toNat * 65536 + f.toNat) = some e ∧ s.dev.trn.park.filter (fun q => q.key = n.toNat * 65536 + f.toNat) = [q]) ∧
    (∃ (s : State) (n : Addr) (f : BitVec 16), s.dev.powered = true) ∧
    (∃ (s : State) (p : LPort) (src : Addr) (i : InstNo) (key : BitVec 32), s.dev.powered = true) ∧
    (∃ (s : State) (t : BitVec 16) (f : FTag) (k : Pkt) (d : Dev), k = { f.pkt with flags := BitVec.ofNat 8 (setBit f.pkt.flags.toNat 2 true) } ∧ d = ({ s.dev with trn := { s.dev.trn with tags := s.dev.trn.tags.ins t.toNat ⟨k, f.who, false⟩ } } : Dev).bump F.trnCntBusyRetry_count ∧ s.dev.powered = true ∧ s.dev.trn.tags.find? t.toNat = some f ∧ f.busyWait = true ∧ s.dev.laneReady f.pkt = true ∧ d.hasRoute k = true) ∧
    (∃ (s : State) (t : BitVec 16) (f : FTag), s.dev.powered = true ∧ s.dev.trn.tags.find? t.toNat = some f) ∧
    (∃ (s : State) (p : LPort) (t : Fin 4096) (l : LTag), s.dev.powered = true ∧ s.dev.trn.ltags.find? (p.val * 4096 + t.val) = some l ∧ l.deliver = true) := by
  refine ⟨⟨st up, ?_⟩,
    ⟨st { node with trn := { node.trn with park := [⟨65536, .turn, 3, { pkt 0x40 0 [] with opcode := 0xA, sseq := 3 }⟩] } }, 1, 0, 0, ⟨65536, .turn, 3, { pkt 0x40 0 [] with opcode := 0xA, sseq := 3 }⟩, ?_⟩,
    ⟨st node, 1, 0, ?_⟩,
    ⟨st node, 0, 1, 2, 0, ?_⟩,
    ⟨st { node with trn := { node.trn with tags := [(0, ⟨{ pkt 0 4 [] with opcode := 1, dst := 0 }, .none, true⟩)] } }, 0, ⟨{ pkt 0 4 [] with opcode := 1, dst := 0 }, .none, true⟩, _, _, rfl, rfl, ?_⟩,
    ⟨st { node with trn := { node.trn with tags := [(0, ⟨{ pkt 0 4 [] with opcode := 1, dst := 1, src := 0 }, .none, false⟩)] } }, 0, ⟨{ pkt 0 4 [] with opcode := 1, dst := 1, src := 0 }, .none, false⟩, ?_⟩,
    ⟨st { node with trn := { node.trn with ltags := [(0, ⟨true, { pkt 0x3010 4 [] with opcode := 1 }, .turn, 0⟩)] } }, 0, 0, ⟨true, { pkt 0x3010 4 [] with opcode := 1 }, .turn, 0⟩, ?_⟩⟩ <;> decide +kernel

/-- The hypotheses of ConfigurationCommandsComplete can be met. -/
theorem witness_ConfigurationCommandsComplete :
    (∃ (s : State) (fn : InstNo) (off : BitVec 12) (be : BitVec 8) (x : W32) (r : CfgRow) (c : WCtx) (old : Nat) (new : Nat), c = ⟨.manager, 1, fn.toNat, off.toNat, false, be.toNat % 16, x.setWidth 64⟩ ∧ old = (s.dev.cfgW fn.toNat off.toNat).toNat ∧ new = ((x.toNat &&& c.mask) &&& r.rw) ||| ((old &&& (0xFFFFFFFF ^^^ ((x.toNat &&& c.mask) &&& r.w1c))) &&& (0xFFFFFFFF ^^^ (c.mask &&& r.rw))) ∧ s.dev.hostHere = true ∧ s.dev.pit.ready = true ∧ s.dev.fnEnabled fn.toNat = true ∧ s.dev.swRoom 1 = true ∧ off.toNat % 4 = 0 ∧ s.dev.cfgCovered fn.toNat off.toNat = true ∧ (s.dev.cfgRows fn.toNat).find? (fun r => r.off = off.toNat) = some r ∧ s.dev.cfgReject fn.toNat off.toNat old new = false) ∧
    (∃ (s : State) (w : W32), w = s.dev.cfgW 0 cfgDevCtl ∧ s.dev.hostHere = true ∧ s.dev.pit.ready = true ∧ s.dev.swRoom 1 = true ∧ w.toNat / 32 % 8 ≤ 3 ∧ w.toNat / 4096 % 8 ≤ 5 ∧ w.getLsbD 15 = false) ∧
    (∃ (s : State) (n : InstNo) (w : W32), w = s.dev.cfgW n.toNat cfgDevCtl ∧ n ≠ 0#12 ∧ s.dev.fnEnabled n.toNat = true ∧ s.dev.hostHere = true ∧ s.dev.pit.ready = true ∧ s.dev.swRoom 1 = true ∧ w.getLsbD 15 = false) ∧
    (∃ (s : State) (w : W32), w = s.dev.cfgW 0 cfgSriovCtl ∧ s.dev.gb F.genHostCfg_sriov = true ∧ s.dev.hostHere = true ∧ s.dev.pit.ready = true ∧ s.dev.swRoom 1 = true ∧ s.dev.vfEnable = false) ∧
    (∃ (s : State) (w : W32), w = s.dev.cfgW 0 cfgSriovCtl ∧ s.dev.gb F.genHostCfg_sriov = true ∧ s.dev.hostHere = true ∧ s.dev.pit.ready = true ∧ s.dev.swRoom 1 = true ∧ s.dev.vfEnable = true) ∧
    (∃ (s : State) (fn : InstNo) (off : BitVec 24) (x : W64) (c : WCtx) (old : W32) (new : W32), old = s.dev.msixDw fn.toNat (off.toNat / 16) (off.toNat % 16 / 4) ∧ new = x.setWidth 32 ∧ c = ⟨if fn.toNat = 0 then .manager else .tenant fn.toNat, 3, fn.toNat, off.toNat, false, 15, BitVec.ofNat 64 (x.toNat % 2 ^ 32)⟩ ∧ s.dev.hostHere = true ∧ s.dev.hostMem fn.toNat = true ∧ s.dev.onlyWatch = false ∧ s.dev.swRoom 1 = true ∧ off.toNat % 4 = 0 ∧ off.toNat < 0x8000 ∧ off.toNat / 16 < s.dev.vectors fn.toNat ∧ (off.toNat % 16 = 4 ∨ off.toNat % 16 = 8) ∧ s.dev.hst.pba.lk false (fn.toNat * 2048 + off.toNat / 16) = false) := by
  refine ⟨⟨st node, 0, 4, 15, 2, ((node.cfgRows 0).find? (fun r => r.off = 4)).getD ⟨0, 0, 0⟩, _, _, _, rfl, rfl, rfl, ?_⟩,
    ⟨st node, _, rfl, ?_⟩,
    ⟨st node, 2, _, rfl, ?_⟩,
    ⟨st { node with hst := { node.hst with cfg := [(4, 6)] }, regs := (node.sb F.genHostCfg_sriov true).regs }, _, rfl, ?_⟩,
    ⟨st { node with regs := (node.sb F.genHostCfg_sriov true).regs }, _, rfl, ?_⟩,
    ⟨st node, 0, 4, 5, _, _, _, rfl, rfl, rfl, ?_⟩⟩ <;> decide +kernel

/-- The hypotheses of HostMemoryRequestsComplete can be met. -/
theorem witness_HostMemoryRequestsComplete :
    (∃ (s : State) (fn : InstNo) (o : BitVec 64) (bs : List Byte) (be : List Bool) (w : Nat × List W64), s.dev.hostHere = true ∧ s.dev.win.stalled = [] ∧ o.toNat < s.dev.bar2Size fn.toNat ∧ s.dev.bar2Stop fn.toNat = none ∧ s.dev.winLookup fn.toNat 1 o.toNat = some w ∧ bitOf (bget w.2 35 1) 1 = true ∧ bitOf (bget w.2 35 1) 3 = true ∧ o.toNat / 64 = (o.toNat + bs.length - 1) / 64) ∧
    (∃ (s : State) (fn : InstNo) (o : BitVec 64) (bs : List Byte) (be : List Bool) (w : Nat × List W64), s.dev.hostHere = true ∧ s.dev.win.stalled = [] ∧ o.toNat < s.dev.bar2Size fn.toNat ∧ s.dev.bar2Stop fn.toNat = none ∧ s.dev.winLookup fn.toNat 1 o.toNat = some w ∧ bitOf (bget w.2 35 1) 1 = true ∧ bitOf (bget w.2 35 1) 3 = false) ∧
    (∃ (s : State) (fn : InstNo) (t : BitVec 16) (o : BitVec 64) (n : Nat) (w : Nat × List W64) (st : Nat × Nat × W32) (d : Dev) (e : Dev), st = (fn.toNat, bget w.2 24 2 % 4096, winKey w.2 o.toNat) ∧ d = (s.dev.bumpBy F.winCntWcNpFlush_count (s.dev.win.lines.filter (fun l => !l.sending && l.stream = st)).length).flushLines (fun l => l.stream = st) ∧ e = { d with hst := { d.hst with reqs := d.hst.reqs.ins (fn.toNat * 65536 + t.toNat) ⟨fn.toNat, t, o.toNat, n⟩ } } ∧ s.dev.hostHere = true ∧ s.dev.win.stalled = [] ∧ o.toNat < s.dev.bar2Size fn.toNat ∧ s.dev.bar2Stop fn.toNat = none ∧ s.dev.winLookup fn.toNat 1 o.toNat = some w ∧ bitOf (bget w.2 35 1) 0 = true) ∧
    (∃ (s : State) (fn : InstNo) (t : BitVec 16) (o : BitVec 64) (a : AtomicKind) (b : List Byte) (w : Nat × List W64) (st : Nat × Nat × W32) (d : Dev) (e : Dev), st = (fn.toNat, bget w.2 24 2 % 4096, winKey w.2 o.toNat) ∧ d = (s.dev.bumpBy F.winCntWcNpFlush_count (s.dev.win.lines.filter (fun l => !l.sending && l.stream = st)).length).flushLines (fun l => l.stream = st) ∧ e = { d with hst := { d.hst with reqs := d.hst.reqs.ins (fn.toNat * 65536 + t.toNat) ⟨fn.toNat, t, o.toNat, 8⟩ } } ∧ s.dev.hostHere = true ∧ s.dev.win.stalled = [] ∧ o.toNat < s.dev.bar2Size fn.toNat ∧ s.dev.bar2Stop fn.toNat = none ∧ s.dev.winLookup fn.toNat 1 o.toNat = some w ∧ bitOf (bget w.2 35 1) 2 = true) ∧
    (∃ (s : State) (fn : InstNo) (o : BitVec 64) (bs : List Byte) (be : List Bool) (ep : Bool), s.dev.hostHere = true ∧ s.dev.win.stalled ≠ []) ∧
    (∃ (s : State) (fn : InstNo) (t : BitVec 16) (r : HReq), s.dev.powered = true ∧ s.dev.hst.reqs.find? (fn.toNat * 65536 + t.toNat) = some r) := by
  refine ⟨⟨st { node with win := { node.win with desc := [(5, desc 0x10000 0x1000 0x1000 1 15)] } }, 2, 0x10010, [1, 2, 3, 4], [true, true, true, true], (5, desc 0x10000 0x1000 0x1000 1 15), ?_⟩,
    ⟨st { node with win := { node.win with desc := [(5, desc 0x10000 0x1000 0x1000 1 7)] } }, 2, 0x10010, [1, 2, 3, 4], [true, true, true, true], (5, desc 0x10000 0x1000 0x1000 1 7), ?_⟩,
    ⟨st { node with win := { node.win with desc := [(5, desc 0x10000 0x1000 0x1000 1 7)] } }, 2, 9, 0x10010, 4, (5, desc 0x10000 0x1000 0x1000 1 7), _, _, _, rfl, rfl, rfl, ?_⟩,
    ⟨st { node with win := { node.win with desc := [(5, desc 0x10000 0x1000 0x1000 1 7)] } }, 2, 9, 0x10010, .swap, [1, 2, 3, 4, 5, 6, 7, 8], (5, desc 0x10000 0x1000 0x1000 1 7), _, _, _, rfl, rfl, rfl, ?_⟩,
    ⟨st { node with win := { node.win with stalled := [.write 2 0x10010 [1] [true] false] } }, 2, 0x10010, [1, 2, 3, 4], [true, true, true, true], false, ?_⟩,
    ⟨st { node with hst := { node.hst with reqs := [(131081, ⟨2, 9, 0x10010, 4⟩)] } }, 2, 9, ⟨2, 9, 0x10010, 4⟩, ?_⟩⟩ <;> decide +kernel

/-- The hypotheses of HostLinkCommandsComplete can be met. -/
theorem witness_HostLinkCommandsComplete :
    (∃ (s : State) (v : BitVec 3) (w : BitVec 3) (f : Bool), s.dev.powered = true ∧ s.dev.hostTrains = true ∧ s.dev.hst.dlUp = false) ∧
    (∃ (s : State), s.dev.powered = true ∧ s.dev.hst.dlUp = true) ∧
    (∃ (s : State), s.dev.powered = true ∧ s.dev.hst.dlUp = true ∧ s.dev.pins.perst = false) ∧
    (∃ (s : State), s.dev.powered = true ∧ s.dev.hst.dlUp = true ∧ s.dev.g F.hstStatus_ltssm = 3 ∧ s.dev.cfgBit 0 cfgLinkCtl 1 = true ∧ (s.dev.egress 12).isEmpty = true) ∧
    (∃ (s : State), s.dev.powered = true ∧ s.dev.hst.dlUp = true ∧ s.dev.g F.hstStatus_ltssm = 5 ∧ s.dev.hst.l1 ≠ .l12) ∧
    (∃ (s : State) (fn : InstNo), s.dev.hostHere = true) ∧
    (∃ (s : State), s.dev.powered = true ∧ s.dev.g F.hstCorrThresh_count < s.dev.hst.corr) ∧
    (∃ (s : State) (fn : InstNo) (x : HostMsg), s.dev.hostHere = true) ∧
    (∃ (s : State) (fn : InstNo) (x : HostMsg), s.dev.hostHere = true ∧ (x = .setSlotPowerLimit ∨ x = .vendorType1 ∨ x = .ltr ∨ x = .ptm)) ∧
    (∃ (s : State) (fn : InstNo) (x : HostMsg), s.dev.hostHere = true ∧ (x = .vendorType0 ∨ x = .other)) ∧
    (∃ (s : State) (fn : InstNo) (x : HostMsg), s.dev.hostHere = true ∧ (x = .ioRequest ∨ x = .cfgType1)) ∧
    (∃ (s : State) (t : BitVec 16) (b : List Byte) (h : HTag), s.dev.hostHere = true ∧ s.dev.sto.quar.find? (65536 + t.toNat) = none ∧ s.dev.hst.tags.find? t.toNat = some h ∧ h.stale = false) ∧
    (∃ (s : State) (t : BitVec 16) (h : HTag), s.dev.powered = true ∧ s.dev.hst.tags.find? t.toNat = some h ∧ h.stale = false) := by
  refine ⟨⟨st { up with hst := { up.hst with dlUp := false } }, 5, 4, true, ?_⟩,
    ⟨st up, ?_⟩,
    ⟨st up, ?_⟩,
    ⟨st { up with hst := { up.hst with cfg := [(4, 6), (128, 2)] }, regs := (up.s F.hstStatus_ltssm 3).regs }, ?_⟩,
    ⟨st (up.s F.hstStatus_ltssm 5), ?_⟩,
    ⟨st up, 0, ?_⟩,
    ⟨st { up with hst := { up.hst with corr := 2000000 } }, ?_⟩,
    ⟨st up, 0, .ltr, ?_⟩,
    ⟨st up, 0, .ltr, ?_⟩,
    ⟨st up, 0, .other, ?_⟩,
    ⟨st up, 0, .ioRequest, ?_⟩,
    ⟨st { node with hst := { node.hst with tags := [(3, ⟨0, 0, 2, false⟩)] } }, 3, [1], ⟨0, 0, 2, false⟩, ?_⟩,
    ⟨st { node with hst := { node.hst with tags := [(3, ⟨0, 0, 2, false⟩)] } }, 3, ⟨0, 0, 2, false⟩, ?_⟩⟩ <;> decide +kernel

/-- The hypotheses of WindowCommandsComplete can be met. -/
theorem witness_WindowCommandsComplete :
    (∃ (s : State) (i : BitVec 16), s.dev.reaches R.winCmd = true ∧ s.dev.standby = false ∧ s.dev.winCheck i.toNat s.dev.winStage = none ∧ s.dev.swRoom s.dev.winStage.length = true) ∧
    (∃ (s : State) (i : BitVec 16) (r : Nat), s.dev.ready R.winCmd = true ∧ s.dev.standby = false ∧ s.dev.winCheck i.toNat s.dev.winStage = some r) ∧
    (∃ (s : State) (i : BitVec 16), s.dev.reaches R.winCmd = true ∧ s.dev.gb F.winCmdStatus_busy = false) ∧
    (∃ (s : State) (i : BitVec 16) (x : List W64), x = bput (s.dev.wdesc i.toNat) 34 1 0 ∧ s.dev.reaches R.winCmd = true ∧ s.dev.standby = false ∧ s.dev.gb F.winCmdStatus_busy = false ∧ s.dev.swRoom x.length = true) ∧
    (∃ (s : State) (c : WinCmd), s.dev.powered = true ∧ s.dev.win.cmd = some c) ∧
    (∃ (s : State) (fn : InstNo) (o : BitVec 64) (l : WcLine), s.dev.powered = true ∧ s.dev.win.lines = [l] ∧ l.inst = fn.toNat ∧ l.off = o.toNat / 64 * 64 ∧ l.sending = false) := by
  refine ⟨⟨st (node.toStage R.winStage 0 (desc 0x20000 0x1000 0x1000 1 7)), 5, ?_⟩,
    ⟨st node, 200, 2, ?_⟩,
    ⟨st node, 3, ?_⟩,
    ⟨st node, 3, _, rfl, ?_⟩,
    ⟨st { node with win := { node.win with cmd := some ⟨0, 5, []⟩ } }, ⟨0, 5, []⟩, ?_⟩,
    ⟨st { node with win := { node.win with lines := [⟨2, 5, 0x10000, 0, 2, 0, 0, [(0, 1)], 1, false, 0⟩] } }, 2, 0x10010, ⟨2, 5, 0x10000, 0, 2, 0, 0, [(0, 1)], 1, false, 0⟩, ?_⟩⟩ <;> decide +kernel

/-- The hypotheses of LocalControlCommandsComplete can be met. -/
theorem witness_LocalControlCommandsComplete :
    (∃ (s : State) (p : LPort) (m : CtlMsg) (x : CtlMsg) (d : Dev), x = { m with typ := 0x20#8 } ∧ d = s.dev.consumeRaw (8 + p.val) (ctlMsgBytes x) ∧ s.dev.powered = true ∧ d.portOpen (8 + p.val) = true ∧ d.lpCloses p.val = false ∧ d.ctlWaits p = false ∧ m.length = 16 ∧ (m.size = 4#8 ∨ m.size = 8#8) ∧ viewOf p.val m.offset.toNat ≠ 0 ∧ d.powerOf m.offset.toNat ≠ Power.held ∧ d.recBusy m.offset.toNat = false ∧ (d.ctlRead p (ctlCore x) m.offset.toNat m.size.toNat).2.2 ≠ 3) ∧
    (∃ (s : State) (p : LPort) (m : CtlMsg) (x : CtlMsg) (d : Dev), x = { m with typ := 0x21#8 } ∧ d = s.dev.consumeRaw (8 + p.val) (ctlMsgBytes x) ∧ s.dev.powered = true ∧ d.portOpen (8 + p.val) = true ∧ d.lpCloses p.val = false ∧ d.ctlWaits p = false ∧ m.length = 24 ∧ (m.size = 4#8 ∨ m.size = 8#8) ∧ viewOf p.val m.offset.toNat ≠ 0 ∧ d.powerOf m.offset.toNat ≠ Power.held) ∧
    (∃ (s : State) (p : LPort) (m : CtlMsg) (x : CtlMsg) (d : Dev), x = { m with typ := 0x30#8 } ∧ d = s.dev.consumeRaw (8 + p.val) (ctlMsgBytes x) ∧ s.dev.powered = true ∧ d.portOpen (8 + p.val) = true ∧ d.lpCloses p.val = false ∧ d.ctlWaits p = false ∧ m.length = 16 ∧ m.size = 0#8 ∧ 32 + 128 * p.val ≤ m.offset.toNat % 65536 ∧ m.offset.toNat % 65536 < 160 + 128 * p.val) ∧
    (∃ (s : State) (p : LPort) (m : CtlMsg) (x : CtlMsg) (d : Dev), x = { m with typ := 0x30#8 } ∧ d = s.dev.consumeRaw (8 + p.val) (ctlMsgBytes x) ∧ s.dev.powered = true ∧ d.portOpen (8 + p.val) = true ∧ d.lpCloses p.val = false ∧ d.ctlWaits p = false ∧ m.length = 16 ∧ (m.size = 1#8 ∨ m.size = 2#8) ∧ 32 + 128 * p.val ≤ m.offset.toNat % 65536 ∧ m.offset.toNat % 65536 < 160 + 128 * p.val ∧ (d.mirrorLine (m.offset.toNat % 65536) (decide (m.size = 1#8))).licGated = false) ∧
    (∃ (s : State) (p : LPort) (m : CtlMsg) (x : CtlMsg) (d : Dev), d = s.dev.consumeRaw (8 + p.val) (ctlMsgBytes x) ∧ (x = { m with typ := 0x20#8 } ∨ x = { m with typ := 0x21#8 }) ∧ s.dev.powered = true ∧ d.portOpen (8 + p.val) = true ∧ d.lpCloses p.val = true) := by
  refine ⟨⟨st (node.s (F.crlLinkStatus_state 8) 3), 0, ⟨0, 1, true, 7, 0x10000, 4, 0, 16⟩, _, _, rfl, rfl, ?_⟩,
    ⟨st (node.s (F.crlLinkStatus_state 8) 3), 0, ⟨0, 1, true, 7, 0x10008, 4, 3, 24⟩, _, _, rfl, rfl, ?_⟩,
    ⟨st (node.s (F.crlLinkStatus_state 8) 3), 0, ⟨0, 1, true, 7, 40, 0, 0, 16⟩, _, _, rfl, rfl, ?_⟩,
    ⟨st (node.s (F.crlLinkStatus_state 8) 3), 0, ⟨0, 1, true, 7, 40, 1, 0, 16⟩, _, _, rfl, rfl, ?_⟩,
    ⟨st { node.s (F.crlLinkStatus_state 8) 3 with pit := { node.pit with resets := [⟨8, 3, false, false, false⟩] } }, 0, ⟨0x20, 1, true, 7, 0x10000, 4, 0, 16⟩, ⟨0x20, 1, true, 7, 0x10000, 4, 0, 16⟩, _, rfl, ?_⟩⟩ <;> decide +kernel

/-- The hypotheses of InstanceCommandsComplete can be met. -/
theorem witness_InstanceCommandsComplete :
    (∃ (s : State) (n : InstNo) (x : List W64), x = s.dev.pitched n.toNat s.dev.insStage ∧ s.dev.reaches R.insCmd = true ∧ s.dev.standby = false ∧ s.dev.insCheck n.toNat 0 s.dev.insStage = none ∧ s.dev.swRoom (x.take 16).length = true) ∧
    (∃ (s : State) (n : InstNo) (x : List W64), x = mergeM (s.dev.idesc n.toNat) s.dev.insStage ∧ s.dev.reaches R.insCmd = true ∧ s.dev.standby = false ∧ s.dev.insCheck n.toNat 1 s.dev.insStage = none ∧ s.dev.swRoom (x.take 16).length = true) ∧
    (∃ (s : State) (n : InstNo) (x : List W64), x = bput (bput (bput (s.dev.idesc n.toNat) 0 1 0) 24 4 ((s.dev.ig n.toNat 24 4 + 1) % 2 ^ 32)) 36 12 0 ∧ s.dev.reaches R.insCmd = true ∧ s.dev.standby = false ∧ s.dev.insCheck n.toNat 2 s.dev.insStage = none ∧ s.dev.swRoom (x.take 16).length = true) ∧
    (∃ (s : State) (n : InstNo) (r : Nat), s.dev.ready R.insCmd = true ∧ s.dev.standby = false ∧ s.dev.insCheck n.toNat 0 s.dev.insStage = some r) ∧
    (∃ (s : State) (n : InstNo), s.dev.reaches R.insCmd = true ∧ s.dev.gb F.insCmdStatus_busy = false) ∧
    (∃ (s : State) (c : WinCmd), s.dev.powered = true ∧ s.dev.ins.cmd = some c ∧ c.op ≠ 2) ∧
    (∃ (s : State) (n : InstNo) (f : Flr) (d : Dev) (e : Dev), d = s.dev.endOps (fun o => o.fn = n.toNat) 3 5 ∧ e = { d with hst := { d.hst with msix := d.hst.msix.keep (fun k _ => k / 8192 ≠ n.toNat), pba := d.hst.pba.keep (fun k _ => k / 2048 ≠ n.toNat) }, ins := { d.ins with flr := d.ins.flr.del n.toNat } } ∧ s.dev.powered = true ∧ s.dev.ins.flr.find? n.toNat = some f ∧ f.destroy = false ∧ e.istate n.toNat ≠ 0) ∧
    (∃ (s : State) (n : InstNo) (f : Flr) (d : Dev) (e : Dev), d = s.dev.endOps (fun o => o.fn = n.toNat) 3 5 ∧ e = { d with hst := { d.hst with msix := d.hst.msix.keep (fun k _ => k / 8192 ≠ n.toNat), pba := d.hst.pba.keep (fun k _ => k / 2048 ≠ n.toNat) }, ins := { d.ins with flr := d.ins.flr.del n.toNat } } ∧ s.dev.powered = true ∧ s.dev.ins.flr.find? n.toNat = some f ∧ f.destroy = false ∧ e.istate n.toNat = 0) := by
  refine ⟨⟨st ((node.s F.genHostCfg_total_vfs 8).toStage R.insStage 0 [0x0000006400010000#64, 0x0000000400000004#64, 0xFFFF0000#64]), 3, _, rfl, ?_⟩,
    ⟨st ((node.s F.genHostCfg_total_vfs 8).toStage R.insStage 0 [0x0000006400010000#64, 0x0000000400000004#64, 0xFFFF0000#64]), 2, _, rfl, ?_⟩,
    ⟨st (node.s F.genHostCfg_total_vfs 8), 2, _, rfl, ?_⟩,
    ⟨st (node.s F.genHostCfg_total_vfs 8), 2, 3, ?_⟩,
    ⟨st node, 2, ?_⟩,
    ⟨st { node with ins := { node.ins with cmd := some ⟨0, 2, []⟩ } }, ⟨0, 2, []⟩, ?_⟩,
    ⟨st { node with ins := { node.ins with flr := [(2, ⟨false, 1⟩)] } }, 2, ⟨false, 1⟩, _, _, rfl, rfl, ?_⟩,
    ⟨st { node with ins := { node.ins with flr := [(3, ⟨false, 0⟩)] } }, 3, ⟨false, 0⟩, _, _, rfl, rfl, ?_⟩⟩ <;> decide +kernel

/-- The hypotheses of MailboxCommandsComplete can be met. -/
theorem witness_MailboxCommandsComplete :
    (∃ (s : State) (n : InstNo) (x : BitVec 8), n ≠ 0#12 ∧ s.dev.reaches (R.insInboxRing n.toNat) = true) ∧
    (∃ (s : State) (n : InstNo) (x : BitVec 8), s.dev.hostHere = true ∧ s.dev.hostMem n.toNat = true ∧ s.dev.onlyWatch = false ∧ s.dev.powerOf 0xF00000 = Power.on ∧ s.dev.istate n.toNat ≠ 0) ∧
    (∃ (s : State) (n : InstNo) (i : Fin 8) (x : W64), n ≠ 0#12 ∧ s.dev.reaches (R.insInbox n.toNat i.val) = true) ∧
    (∃ (s : State) (n : InstNo) (i : Fin 8) (x : W64), s.dev.hostHere = true ∧ s.dev.hostMem n.toNat = true ∧ s.dev.onlyWatch = false ∧ s.dev.powerOf 0xF00000 = Power.on ∧ s.dev.istate n.toNat ≠ 0) ∧
    (∃ (s : State) (x : W32), s.dev.reaches (R.insMsgCons 0) = true ∧ ((x.toNat + 2 ^ 32 - s.dev.ig 0 40 4) % 2 ^ 32 = 0 ∨ 2 ^ 31 < (x.toNat + 2 ^ 32 - s.dev.ig 0 40 4) % 2 ^ 32)) ∧
    (∃ (s : State) (n : InstNo) (x : W32), s.dev.hostHere = true ∧ s.dev.hostMem n.toNat = true ∧ s.dev.onlyWatch = false ∧ s.dev.powerOf 0xF00000 = Power.on ∧ s.dev.istate n.toNat ≠ 0 ∧ ((x.toNat + 2 ^ 32 - s.dev.ig n.toNat 40 4) % 2 ^ 32 = 0 ∨ 2 ^ 31 < (x.toNat + 2 ^ 32 - s.dev.ig n.toNat 40 4) % 2 ^ 32)) ∧
    (∃ (s : State) (n : InstNo) (o : BitVec 24) (k : Nat) (b : List Byte), s.dev.hostHere = true ∧ s.dev.hostMem n.toNat = true ∧ s.dev.onlyWatch = false ∧ s.dev.powerOf 0xF00000 = Power.on ∧ n ≠ 0#12 ∧ s.dev.istate n.toNat ≠ 0 ∧ 0x10000 ≤ o.toNat ∧ o.toNat < 0x20000 ∧ k ≤ 0x20000 - o.toNat ∧ b.length = k) := by
  refine ⟨⟨st node, 2, 5, ?_⟩,
    ⟨st node, 2, 5, ?_⟩,
    ⟨st node, 2, 3, 77, ?_⟩,
    ⟨st node, 2, 3, 77, ?_⟩,
    ⟨st node, 0, ?_⟩,
    ⟨st node, 2, 0, ?_⟩,
    ⟨st node, 2, 0x10100, 4, [1, 2, 3, 4], ?_⟩⟩ <;> decide +kernel

/-- The hypotheses of RateAndEgressCommandsComplete can be met. -/
theorem witness_RateAndEgressCommandsComplete :
    (∃ (s : State), s.dev.powered = true) ∧
    (∃ (s : State) (b : BitVec 12) (j : Fin 8) (x : W32) (o : Nat), o = R.insBucketLimits b.toNat + 4 * j.val ∧ s.dev.ready o = true ∧ x.toNat < (if j.val % 2 = 0 then 2 ^ 20 else 2 ^ 16)) ∧
    (∃ (s : State) (e : Fin 14), s.dev.powered = true) ∧
    (∃ (s : State) (k : Nat) (c : Dev) (d : Dev) (r : Nat), c = s.dev.countWaits ∧ d = { c with iso := { c.iso with rate := c.iso.rate.put 0 k r } } ∧ s.dev.powered = true ∧ c.limited4 = [k] ∧ r = c.g (bucketFld (k / 4) (2 * (k % 4))) ∧ r ≠ 0 ∧ c.iso.rate.lk 0 k ≠ 0) ∧
    (∃ (s : State) (e : Fin 14) (d1 : Dev) (d2 : Dev) (d3 : Dev) (g : EGroup) (rest : List EGroup) (x : QEnt), d1 = s.dev.setEgress e.val (s.dev.egress e.val) ∧ d2 = d1.setEgress e.val (d1.egress e.val) ∧ d3 = d2.leave e.val x ∧ s.dev.powered = true ∧ (s.dev.egress e.val).net = [] ∧ (d1.egress e.val).rsp = [] ∧ d2.nextGroup e.val (d2.egress e.val).groups = some (g, rest) ∧ g.q = [x] ∧ d2.groupHead e.val [x] = some x ∧ x.size ≤ g.deficit + max 1 (d2.groupWeight e.val g.id) * 256) := by
  refine ⟨⟨st node, ?_⟩,
    ⟨st node, 2, 0, 100, _, rfl, ?_⟩,
    ⟨st node, 3, ?_⟩,
    ⟨st { node.s (bucketFld 2 0) 5 with iso := { node.iso with rate := [(8, 5)] } }, 8, _, _, 5, rfl, rfl, ?_⟩,
    ⟨st { node with iso := { node.iso with eg := [(13, ⟨[], [], [⟨2, 0, [⟨.tp (pkt 0 0 []), 5, 64⟩]⟩]⟩)] } }, 13, _, _, _, ⟨2, 0, [⟨.tp (pkt 0 0 []), 5, 64⟩]⟩, [], ⟨.tp (pkt 0 0 []), 5, 64⟩, rfl, rfl, rfl, ?_⟩⟩ <;> decide +kernel

/-- The hypotheses of TrackerCommandsComplete can be met. -/
theorem witness_TrackerCommandsComplete :
    (∃ (s : State) (t : BitVec 10), s.dev.reaches R.insDlCmd = true ∧ s.dev.dlCheck t.toNat 0 s.dev.dlStage = none ∧ s.dev.swRoom s.dev.dlStage.length = true) ∧
    (∃ (s : State) (t : BitVec 10), s.dev.ready R.insDlCmd = true ∧ s.dev.dlCheck t.toNat 1 s.dev.dlStage = none) ∧
    (∃ (s : State) (t : BitVec 10), s.dev.ready R.insDlCmd = true ∧ s.dev.dlCheck t.toNat 2 s.dev.dlStage = none) ∧
    (∃ (s : State) (t : BitVec 10) (r : Nat), s.dev.ready R.insDlCmd = true ∧ s.dev.dlCheck t.toNat 1 s.dev.dlStage = some r) ∧
    (∃ (s : State) (t : BitVec 10) (x : Tracker), s.dev.reaches R.insDlCmd = true ∧ s.dev.gb F.insDlCmdStatus_busy = false ∧ s.dev.iso.dl.find? t.toNat = some x) ∧
    (∃ (s : State) (t : BitVec 10) (w : Nat) (x : Tracker), s.dev.powered = true ∧ s.dev.iso.dl.find? t.toNat = some x ∧ x.closing = false ∧ x.dirtyA.contains w = true ∧ s.dev.dlState t.toNat ≠ 3) ∧
    (∃ (s : State) (t : BitVec 10) (x : Tracker) (d : Dev), d = s.dev.toHost 0 (.mwr 0 (BitVec.ofNat 64 (bget x.cfg 24 8)) (dlRecord ((s.dev.g (F.insDlEpoch_epoch t.toNat) + 2 ^ 32 - 1) % 2 ^ 32) t.toNat (4 * b2n x.oldFlr) x) false) 96 ∧ s.dev.powered = true ∧ s.dev.iso.dl.find? t.toNat = some x ∧ x.closing = true ∧ s.dev.dlState t.toNat = 2 ∧ x.due.any s.dev.notIssued = false ∧ x.stop = false ∧ x.oldAll = false ∧ x.destroyed = false ∧ s.dev.gb (F.insDlStatus_half t.toNat) = true ∧ x.dirtyA = [] ∧ bitOf (bget x.cfg 37 1) 0 = false) := by
  refine ⟨⟨st (node.toStage R.insDlStage 0 [0#64, 0x1000#64, 0x2000#64, 0x3000#64, 0x0002000000000040#64, 0#64]), 1, ?_⟩,
    ⟨st (tracked 1 trk), 1, ?_⟩,
    ⟨st (tracked 1 trk), 1, ?_⟩,
    ⟨st node, 1, 2, ?_⟩,
    ⟨st (tracked 1 trk), 1, trk, ?_⟩,
    ⟨st (tracked 1 trk), 1, 0, trk, ?_⟩,
    ⟨st ((tracked 2 { trk with closing := true, dirtyA := [] }).sb (F.insDlStatus_half 1) true), 1, { trk with closing := true, dirtyA := [] }, _, rfl, ?_⟩⟩ <;> decide +kernel

/-- The hypotheses of LicWritesComplete can be met. -/
theorem witness_LicWritesComplete :
    (∃ (s : State) (x : W32), s.dev.reaches R.licSignal = true) ∧
    (∃ (s : State) (b : LicBank) (x : W32) (new : W64), new = BitVec.ofNat 64 ((s.dev.rd (bankPend b).1).toNat % 2 ^ 32 ||| (x.toNat &&& (bankPend b).2)) ∧ s.dev.reaches (bankOff 2 b) = true ∧ regMapped (bankOff 2 b) = true ∧ licBankAt (bankOff 2 b) = some (2, b)) ∧
    (∃ (s : State) (b : LicBank) (x : W32) (old : W64) (new : W64), old = BitVec.ofNat 64 ((s.dev.rd (bankPend b).1).toNat % 2 ^ 32) ∧ new = BitVec.ofNat 64 ((s.dev.rd (bankPend b).1).toNat % 2 ^ 32 &&& (0xFFFFFFFF ^^^ (x.toNat &&& (bankPend b).2))) ∧ s.dev.reaches (bankOff 3 b) = true ∧ regMapped (bankOff 3 b) = true ∧ licBankAt (bankOff 3 b) = some (3, b)) ∧
    (∃ (s : State) (b : LicBank) (x : W32) (old : W64) (new : W64), old = BitVec.ofNat 64 ((s.dev.rd (bankMask b).1).toNat % 2 ^ 32) ∧ new = BitVec.ofNat 64 ((s.dev.rd (bankMask b).1).toNat % 2 ^ 32 ||| (x.toNat &&& (bankMask b).2)) ∧ s.dev.ready (bankOff 0 b) = true ∧ regMapped (bankOff 0 b) = true ∧ licBankAt (bankOff 0 b) = some (0, b)) ∧
    (∃ (s : State) (b : LicBank) (x : W32) (old : W64) (new : W64), old = BitVec.ofNat 64 ((s.dev.rd (bankMask b).1).toNat % 2 ^ 32) ∧ new = BitVec.ofNat 64 ((s.dev.rd (bankMask b).1).toNat % 2 ^ 32 &&& (0xFFFFFFFF ^^^ (x.toNat &&& (bankMask b).2))) ∧ s.dev.ready (bankOff 1 b) = true ∧ regMapped (bankOff 1 b) = true ∧ licBankAt (bankOff 1 b) = some (1, b)) ∧
    (∃ (s : State) (n : Fin 1024) (x : W32) (r : RegDef) (v : Nat), licNumber n.val = true ∧ 32 ≤ n.val ∧ n.val < 800 ∧ s.dev.ready (licSrc n.val) = true ∧ regAt (licSrc n.val) = some r ∧ r.wide = false ∧ r.allRo = false ∧ r.allSf = false ∧ s.dev.regWrite r.fields (s.dev.rd (licSrc n.val)).toNat 0xFFFFFFFF x.toNat = some v) ∧
    (∃ (s : State) (c : Fin 16) (x : W32), s.dev.ready (R.licCoreBind c.val) = true ∧ x.toNat / 4 % 4 = 0 ∧ x.toNat < 32 ∧ (x.toNat / 16 = 1 → s.dev.lpAbsent (x.toNat % 4) = false) ∧ s.dev.rd (R.licCoreBind c.val) ≠ x.setWidth 64) ∧
    (∃ (s : State) (c : Fin 16) (x : W32), s.dev.reaches (R.licEoi c.val) = true) := by
  refine ⟨⟨st up, 0x10003, ?_⟩,
    ⟨st up, .shared 2, 5, _, rfl, ?_⟩,
    ⟨st up, .shared 2, 5, _, _, rfl, rfl, ?_⟩,
    ⟨st up, .shared 2, 5, _, _, rfl, rfl, ?_⟩,
    ⟨st up, .shared 2, 5, _, _, rfl, rfl, ?_⟩,
    ⟨st up, 40, 7, (regAt (licSrc 40)).getD ⟨0, 0, 0, 0, 0, false, 0, ⟨false, false, false, false, false, false⟩, []⟩, 7, ?_⟩,
    ⟨st up, 3, 0x11, ?_⟩,
    ⟨st up, 3, 40, ?_⟩⟩ <;> decide +kernel

/-- The hypotheses of LicDeliveryCommandsComplete can be met. -/
theorem witness_LicDeliveryCommandsComplete :
    (∃ (s : State) (p : LPort) (c : Fin 16) (n : Nat), s.dev.powered = true ∧ s.dev.portOpen (8 + p.val) = true ∧ s.dev.powerOf (R.licClaim c.val) ≠ Power.held ∧ s.dev.coreBound c.val p.val = true ∧ s.dev.leastPrio c.val ((s.dev.eligible s.dev.licReady c.val).filter (fun n => s.dev.licOffered c.val n)) = some n) ∧
    (∃ (s : State) (p : LPort) (c : Fin 16), s.dev.powered = true ∧ s.dev.portOpen (8 + p.val) = true ∧ s.dev.powerOf (R.licClaim c.val) ≠ Power.held ∧ s.dev.coreBound c.val p.val = true ∧ s.dev.leastPrio c.val ((s.dev.eligible s.dev.licReady c.val).filter (fun n => s.dev.licOffered c.val n)) = none) ∧
    (∃ (s : State) (c : Fin 16), s.dev.reaches (R.licClaim c.val) = true) ∧
    (∃ (s : State) (c : Fin 16) (n : Nat) (d : Dev), d = (s.dev.setPrep c.val none).bump F.licCntDelivered_count ∧ s.dev.powered = true ∧ s.dev.lic.prep.find? c.val = some n ∧ s.dev.coreOpen c.val = true ∧ s.dev.licGated = false ∧ n < 1016) ∧
    (∃ (s : State) (p : LPort), s.dev.powered = true ∧ s.dev.lic.prep.any (fun e => s.dev.g (F.licCoreBind_port e.1) = p.val) = true) ∧
    (∃ (s : State), s.dev.powered = true ∧ s.dev.gb F.licGateCfg_enable = true ∧ s.dev.pdSt 50 = .on ∧ s.dev.licGated = false ∧ s.dev.lic.claimed = [] ∧ s.dev.lic.prep = [] ∧ s.dev.pins.main = true ∧ (∀ c, c < 16 → s.dev.eligible s.dev.licReady c = [] ∧ s.dev.trapActive c = false ∧ s.dev.offerOf c = none ∧ s.dev.candidate s.dev.licReady c = none)) ∧
    (∃ (s : State), s.dev.powered = true ∧ s.dev.pdSt 50 = .retain) ∧
    (∃ (s : State), s.dev.powered = true ∧ s.dev.lic.waking = true) := by
  refine ⟨⟨st ((((((((openD.s (F.crlLinkStatus_state 8) 3).s (F.licCoreBind_port 3) 0).sb (F.licCoreBind_valid 3) true).wr (R.licPendSet 1) 1#64).wr (R.licMaskSet 1) 0#64).s (F.licCoreCfg_pmr 3) 16).wr (licSrc 64) 0x00080010#64)), 0, 3, 64, ?_⟩,
    ⟨st (((openD.s (F.crlLinkStatus_state 8) 3).s (F.licCoreBind_port 3) 0).sb (F.licCoreBind_valid 3) true), 0, 3, ?_⟩,
    ⟨st up, 3, ?_⟩,
    ⟨st { (((openD.s (F.crlLinkStatus_state 8) 3).s (F.licCoreBind_port 3) 0).sb (F.licCoreBind_valid 3) true) with lic := { up.lic with prep := [(3, 40)] } }, 3, 40, _, rfl, ?_⟩,
    ⟨st { up with lic := { up.lic with prep := [(3, 40)] } }, 0, ?_⟩,
    ⟨st (up.sb F.licGateCfg_enable true), ?_⟩,
    ⟨st (up.setPd 50 .retain), ?_⟩,
    ⟨st { up with lic := { up.lic with waking := true } }, ?_⟩⟩ <;> decide +kernel

/-- The hypotheses of FirewatchEventsComplete can be met. -/
theorem witness_FirewatchEventsComplete :
    (∃ (s : State) (n : Fin 512) (l : Bool) (p : Port), s.dev.powered = true) ∧
    (∃ (s : State) (n : Fin 512) (d : Dev), d = (s.dev.setVec (R.fwtBroken (n.val / 32)) (n.val % 32) true).guyRec n.val true ∧ s.dev.powered = true ∧ s.dev.hasGuyline n.val = true ∧ s.dev.srcBroken n.val = false ∧ d.srcCls n.val < 4) ∧
    (∃ (s : State) (n : Fin 512) (d : Dev), d = (s.dev.setVec (R.fwtBroken (n.val / 32)) (n.val % 32) true).guyRec n.val true ∧ s.dev.powered = true ∧ s.dev.hasGuyline n.val = true ∧ s.dev.srcBroken n.val = false ∧ 4 ≤ d.srcCls n.val) ∧
    (∃ (s : State) (n : Fin 512), s.dev.powered = true ∧ s.dev.hasGuyline n.val = true ∧ s.dev.srcBroken n.val = true) ∧
    (∃ (s : State) (c : Nat) (d : Dev), c = s.dev.evClass ∧ d = ((s.dev.s F.fwtStatus_class (c + 1)).s F.fwtEventLeft_us (s.dev.fwtTimer (c + 1))).stepNote c (c + 1) ∧ s.dev.powered = true ∧ s.dev.evOpen = true ∧ 1 ≤ c ∧ c ≤ 3 ∧ s.dev.fence = false ∧ s.dev.g F.fwtEventLeft_us ≠ noTimer) ∧
    (∃ (s : State), s.dev.powered = true ∧ s.dev.evOpen = true ∧ s.dev.evClass = 4 ∧ s.dev.fence = false ∧ s.dev.g F.fwtEventLeft_us ≠ noTimer) ∧
    (∃ (s : State) (d : Dev), d = { s.dev with fwt := { s.dev.fwt with graveDue := false } } ∧ s.dev.powered = true ∧ s.dev.fwt.graveDue = true ∧ d.chipHeld = false ∧ (d.fwtRec 5 0 0 d.evFirst 0).evOpen = false) ∧
    (∃ (s : State) (x : List (BitVec 16)), s.dev.powered = true) ∧
    (∃ (s : State), s.dev.powered = true ∧ s.dev.errKept = false) := by
  refine ⟨⟨st up, 3, true, 0, ?_⟩,
    ⟨st up, 40, _, rfl, ?_⟩,
    ⟨st up, 49, _, rfl, ?_⟩,
    ⟨st (up.setVec (R.fwtBroken 1) 8 true), 40, ?_⟩,
    ⟨st ((((up.s F.fwtEvent_id 1).sb F.fwtStatus_open true).s F.fwtStatus_class 2).s F.fwtEventLeft_us 10), _, _, rfl, rfl, ?_⟩,
    ⟨st ((((up.s F.fwtEvent_id 1).sb F.fwtStatus_open true).s F.fwtStatus_class 4).s F.fwtEventLeft_us 10), ?_⟩,
    ⟨st { up with fwt := { up.fwt with graveDue := true } }, _, rfl, ?_⟩,
    ⟨st up, [5, 6], ?_⟩,
    ⟨st { up with now := 5000 }, ?_⟩⟩ <;> decide +kernel

/-- The hypotheses of FirewatchWritesComplete can be met. -/
theorem witness_FirewatchWritesComplete :
    (∃ (s : State) (x : W32), s.dev.ready R.fwtAck = true ∧ s.dev.ackResult (x.toNat % 65536) (x.toNat / 65536) = 1) ∧
    (∃ (s : State) (x : W32) (r : Nat), s.dev.ready R.fwtAck = true ∧ s.dev.ackResult (x.toNat % 65536) (x.toNat / 65536) = r ∧ r ≠ 1) ∧
    (∃ (s : State) (w : Fin 16) (x : W32) (d : Dev) (new : W64), new = BitVec.ofNat 64 ((s.dev.rd (R.fwtForceSet w.val)).toNat ||| x.toNat) ∧ d = (s.dev.logged (mgrWrite (R.fwtForceSet w.val) x) (16 + 1024 * b2n (decide (s.dev.rd (R.fwtForceSet w.val) = new))) (s.dev.rd (R.fwtForceSet w.val)) new).wr (R.fwtForceSet w.val) new ∧ s.dev.ready (R.fwtForceSet w.val) = true ∧ x.toNat &&& srcMask w.val = x.toNat ∧ s.dev.testEn = true) ∧
    (∃ (s : State) (w : Fin 16) (x : W32) (new : W64), new = BitVec.ofNat 64 ((s.dev.rd (R.fwtForceSet w.val)).toNat &&& (0xFFFFFFFF ^^^ x.toNat)) ∧ s.dev.ready (R.fwtForceClr w.val) = true ∧ x.toNat &&& srcMask w.val = x.toNat) ∧
    (∃ (s : State) (n : Fin 512) (x : W32) (cur : Nat) (new : Nat) (d : Dev), cur = (s.dev.rd (R.fwtSrcCfg n.val)).toNat ∧ new = (x.toNat &&& 0x73F) ||| (cur &&& (0xFFFFFFFF ^^^ 0x73F)) ∧ d = (s.dev.logged (mgrWrite (R.fwtSrcCfg n.val) x) (1024 * b2n (decide (s.dev.rd (R.fwtSrcCfg n.val) = BitVec.ofNat 64 new))) (s.dev.rd (R.fwtSrcCfg n.val)) (BitVec.ofNat 64 new)).wr (R.fwtSrcCfg n.val) (BitVec.ofNat 64 new) ∧ s.dev.ready (R.fwtSrcCfg n.val) = true ∧ (srcClass n.val).isSome = true ∧ srcOwned n.val = true ∧ x.toNat &&& 0x73F = x.toNat ∧ new / 256 % 8 ≤ 5 ∧ cur / 256 % 8 ≤ new / 256 % 8 ∧ (cur &&& 0x3F) &&& new = cur &&& 0x3F ∧ d.srcBroken n.val = false) := by
  refine ⟨⟨st ((((up.s F.fwtEvent_id 1).sb F.fwtStatus_open true).s F.fwtStatus_class 2).s F.fwtEventLeft_us 10), 1, ?_⟩,
    ⟨st ((((up.s F.fwtEvent_id 1).sb F.fwtStatus_open true).s F.fwtStatus_class 2).s F.fwtEventLeft_us 10), 0x50000, 3, ?_⟩,
    ⟨st (up.sb F.genNodeCfg_test_en true), 0, 2, _, _, rfl, rfl, ?_⟩,
    ⟨st (up.wr (R.fwtForceSet 0) 2#64), 0, 2, _, rfl, ?_⟩,
    ⟨st up, 42, 0x53F, _, _, _, rfl, rfl, rfl, ?_⟩⟩ <;> decide +kernel

/-- The hypotheses of ChangeLogCommandsComplete can be met. -/
theorem witness_ChangeLogCommandsComplete :
    (∃ (s : State) (r : Rec) (t : List Rec), s.dev.powered = true ∧ s.dev.clg.staged = r :: t) ∧
    (∃ (s : State) (x : W64), s.dev.reaches R.clgAck = true ∧ s.dev.ackLegal x = true) ∧
    (∃ (s : State) (x : W64), s.dev.reaches R.clgAck = true ∧ s.dev.ackLegal x = false ∧ s.dev.swRoom 1 = true) ∧
    (∃ (s : State) (x : W64), s.dev.reaches R.clgRdSeq = true) ∧
    (∃ (s : State), s.dev.reaches (R.clgRdRec 7 + 4) = true ∧ s.dev.gb F.clgRdStatus_busy = false) ∧
    (∃ (s : State) (e : LogEnt), s.dev.powered = true ∧ s.dev.gb F.clgRdStatus_busy = true ∧ s.dev.clg.ring.find? (s.dev.rd R.clgRdSeq).toNat = some e ∧ e.bad = false) ∧
    (∃ (s : State), s.dev.powered = true ∧ s.dev.gb F.clgRdStatus_busy = true ∧ s.dev.clg.ring.find? (s.dev.rd R.clgRdSeq).toNat = none) ∧
    (∃ (s : State) (d : Dev) (n : Nat), d = s.dev.pushSkip ∧ n = min (min 16 d.pushRoom) (d.rd R.clgHead - d.rd R.clgPushPos).toNat ∧ s.dev.powered = true ∧ s.dev.pushRuns = true ∧ n ≠ 0) ∧
    (∃ (s : State) (x : W64), s.dev.reaches R.clgPushCons = true ∧ (s.dev.wr R.clgPushCons x).gb F.clgPushCtl_auto_ack = false) ∧
    (∃ (s : State) (x : W64), s.dev.reaches R.clgPushCons = true ∧ (s.dev.wr R.clgPushCons x).gb F.clgPushCtl_auto_ack = true ∧ (s.dev.wr R.clgPushCons x).ackLegal x = true) := by
  refine ⟨⟨st { up with clg := { up.clg with staged := [rec0] } }, rec0, [], ?_⟩,
    ⟨st (up.wr R.clgHead 2#64), 1, ?_⟩,
    ⟨st up, 5, ?_⟩,
    ⟨st up, 5, ?_⟩,
    ⟨st up, ?_⟩,
    ⟨st { (up.sb F.clgRdStatus_busy true) with clg := { up.clg with ring := [(0, ⟨rec0, 0, false⟩)] } }, ⟨rec0, 0, false⟩, ?_⟩,
    ⟨st (up.sb F.clgRdStatus_busy true), ?_⟩,
    ⟨st { (((up.sb F.clgPushCtl_enable true).s F.clgPushCtl_size 4).wr R.clgHead 1#64) with clg := { up.clg with ring := [(0, ⟨rec0, 0, false⟩)] } }, _, _, rfl, rfl, ?_⟩,
    ⟨st up, 5, ?_⟩,
    ⟨st ((up.sb F.clgPushCtl_auto_ack true).wr R.clgHead 9#64), 5, ?_⟩⟩ <;> decide +kernel

/-- The hypotheses of PowerRequestsComplete can be met. -/
theorem witness_PowerRequestsComplete :
    (∃ (s : State) (k : Fin 64), s.dev.ready R.pitPdReq = true ∧ s.dev.pdCheck k.val 1 = none ∧ (s.dev.pdSt k.val).isOff = false) ∧
    (∃ (s : State) (k : Fin 64), s.dev.ready R.pitPdReq = true ∧ s.dev.pdCheck k.val 1 = none ∧ (s.dev.pdSt k.val).isOff = true) ∧
    (∃ (s : State) (k : Fin 64) (r : Nat), s.dev.ready R.pitPdReq = true ∧ s.dev.pdCheck k.val 1 = some r) ∧
    (∃ (s : State) (k : Fin 64), s.dev.ready R.pitPdReq = true ∧ s.dev.pdCheck k.val 0 = none ∧ s.dev.pdSt k.val = .off) ∧
    (∃ (s : State) (k : Fin 64), s.dev.ready R.pitPdReq = true ∧ s.dev.pdCheck k.val 0 = none ∧ s.dev.pdSt k.val ≠ .off) := by
  refine ⟨⟨st up, 34, ?_⟩,
    ⟨st (up.setPd 34 .off), 34, ?_⟩,
    ⟨st up, 0, 2, ?_⟩,
    ⟨st (up.setPd 34 .off), 34, ?_⟩,
    ⟨st up, 34, ?_⟩⟩ <;> decide +kernel

/-- The hypotheses of PowerSequenceCompletes can be met. -/
theorem witness_PowerSequenceCompletes :
    (∃ (s : State) (l : Bool) (k : Nat) (e : Nat × Dev) (d : Dev), k = s.dev.pdNow ∧ e = ((s.dev.workEnd (domainBlock k) 4).2, (s.dev.workEnd (domainBlock k) 4).1) ∧ d = ((((e.2.goneSynth e.1).nextGen (domainBlock k)).setPd k .drained).pdRec k 4 5 0 l e.1).s F.pitPdStatus_phase 2 ∧ s.dev.powered = true ∧ s.dev.pdPh = 1 ∧ s.dev.blockEmpty (domainBlock k) = !l) ∧
    (∃ (s : State), s.dev.powered = true ∧ (s.dev.pdPh = 2 ∨ s.dev.pdPh = 3) ∧ linkPort s.dev.pdNow = none) ∧
    (∃ (s : State) (k : Nat), k = s.dev.pdNow ∧ s.dev.powered = true ∧ s.dev.pdPh = 4 ∧ linkPort k = none) ∧
    (∃ (s : State), s.dev.powered = true ∧ s.dev.pdPh = 4) ∧
    (∃ (s : State) (k : Fin 64) (n : Nat), n = s.dev.pd.lost.lk 0 k.val ∧ s.dev.powered = true ∧ n ≠ 0) ∧
    (∃ (s : State) (k : Fin 64), s.dev.powered = true ∧ autoDomain k.val = true ∧ s.dev.pdSt k.val = .on ∧ (s.dev.rd R.pitPdAuto).getLsbD k.val = true ∧ s.dev.pdIdle k.val = true ∧ s.dev.pins.main = true ∧ s.dev.pit.logOpen = true) ∧
    (∃ (s : State) (k : Fin 64), s.dev.powered = true ∧ s.dev.pdSt k.val = .retain ∧ k.val ≠ 50) := by
  refine ⟨⟨st (((up.sb F.pitPdStatus_busy true).s F.pitPdStatus_domain 34).s F.pitPdStatus_phase 1), false, _, _, _, rfl, rfl, rfl, ?_⟩,
    ⟨st (((up.sb F.pitPdStatus_busy true).s F.pitPdStatus_domain 34).s F.pitPdStatus_phase 2), ?_⟩,
    ⟨st (((up.sb F.pitPdStatus_busy true).s F.pitPdStatus_domain 34).s F.pitPdStatus_phase 4), _, rfl, ?_⟩,
    ⟨st (((up.sb F.pitPdStatus_busy true).s F.pitPdStatus_domain 34).s F.pitPdStatus_phase 4), ?_⟩,
    ⟨st { up with pd := { up.pd with lost := [(34, 3)] } }, 34, _, rfl, ?_⟩,
    ⟨st (up.wr R.pitPdAuto 0xFFFFFFFFFFFFFFFF#64), 34, ?_⟩,
    ⟨st (up.setPd 34 .retain), 34, ?_⟩⟩ <;> decide +kernel

/-- The hypotheses of BivouacCommandsComplete can be met. -/
theorem witness_BivouacCommandsComplete :
    (∃ (s : State) (r : MainRail), s.dev.pins.main = true ∧ s.dev.bvc.phase = BvcPhase.none ∧ s.dev.limited = false ∧ s.dev.complete = true ∧ 8 ≤ s.dev.pitStep) ∧
    (∃ (s : State) (r : MainRail), s.dev.pins.main = true ∧ s.dev.bvc.phase = BvcPhase.none ∧ s.dev.limited = false ∧ s.dev.complete = true ∧ 8 ≤ s.dev.pitStep ∧ (s.dev.bvcStart 0).bvc.noSeal = false) ∧
    (∃ (s : State) (r : MainRail), s.dev.pins.main = true ∧ s.dev.bvc.phase = BvcPhase.none ∧ s.dev.limited = false ∧ s.dev.complete = true ∧ 8 ≤ s.dev.pitStep ∧ (s.dev.bvcStart 0).bvc.noSeal = true) ∧
    (∃ (s : State) (r : MainRail), s.dev.pins.main = true ∧ s.dev.bvc.phase = BvcPhase.none ∧ s.dev.limited = false ∧ s.dev.complete = true ∧ 8 ≤ s.dev.pitStep ∧ (s.dev.bvcStart 1).bvc.noSeal = false) ∧
    (∃ (s : State) (r : MainRail), s.dev.pins.main = true ∧ s.dev.bvc.phase = BvcPhase.none ∧ s.dev.limited = false ∧ s.dev.complete = true ∧ 8 ≤ s.dev.pitStep ∧ (s.dev.bvcStart 1).bvc.noSeal = true) ∧
    (∃ (s : State) (bad : List BadUnit) (b : Bool) (d : Dev) (e : Dev) (f : Dev), d = s.dev.bvcClose ∧ e = (d.each bad (fun d b => if b.crc then d.crcPage b.addr else d.ueUnit b.addr)).fwtRun 16 ∧ f = e.writeBack.writeSeal.holdEntry ∧ s.dev.bvc.phase = BvcPhase.drain ∧ (b = true ∨ s.dev.postedHeld = 0) ∧ d.bvc.noSeal = false ∧ e.bvc.noSeal = false ∧ f.bvc.trigger ≠ 2) ∧
    (∃ (s : State), s.dev.pins.main = true ∧ s.dev.bvc.phase = BvcPhase.held) := by
  refine ⟨⟨st up, .vio, ?_⟩,
    ⟨st up, .vio, ?_⟩,
    ⟨st (up.sb F.fwtStatus_fence true), .vio, ?_⟩,
    ⟨st up, .vio, ?_⟩,
    ⟨st (up.sb F.fwtStatus_fence true), .vio, ?_⟩,
    ⟨st { up with bvc := { up.bvc with phase := .drain } }, [], false, _, _, _, rfl, rfl, rfl, ?_⟩,
    ⟨st { up with bvc := { up.bvc with phase := .held } }, ?_⟩⟩ <;> decide +kernel

/-- The hypotheses of ResumptionCommandsComplete can be met. -/
theorem witness_ResumptionCommandsComplete :
    (∃ (s : State) (x : W64), s.dev.ready R.pitResumeToken = true) ∧
    (∃ (s : State) (x : W64), s.dev.ready R.pitResume = true ∧ s.dev.awaitsToken = true ∧ s.dev.tokenCause x = 0) ∧
    (∃ (s : State) (x : W64) (r : Nat), s.dev.ready R.pitResume = true ∧ s.dev.awaitsToken = true ∧ s.dev.tokenCause x = r ∧ r ≠ 0) ∧
    (∃ (s : State), s.dev.ready R.pitResumeCtl = true ∧ s.dev.awaitsToken = true) ∧
    (∃ (s : State), s.dev.powered = true ∧ s.dev.g F.pitResumeStatus_state = 2 ∧ ((s.dev.each s.dev.suspendedInsts (fun d n => d.is n 0 1 1)).step14 3 s.dev.suspendedInsts.length).gb F.pitTwinCmdStatus_busy = false) ∧
    (∃ (s : State) (c : Dev) (d : Dev) (e : Dev) (f : Dev), c = s.dev.tagsInit.clearTables ∧ d = { c with regs := c.regs.filter (fun e : Nat × W64 => !discardReg e.1) } ∧ e = (({ d with bvc := { d.bvc with token := 0#64 }, twin := { d.twin with active := d.twin.active && decide (fieldOf (s.dev.rd R.pitTwinStatus) 2 0 = 2) } } : Dev).wr R.pitResumeStatus (s.dev.rd R.pitResumeStatus)).sb F.pitResumeStatus_token_set false ∧ f = ((e.wr R.pitTwinStatus (s.dev.rd R.pitTwinStatus)).sb F.pitTwinStatus_image_ok false).ratesNow ∧ s.dev.powered = true ∧ s.dev.g F.pitResumeStatus_state = 4) := by
  refine ⟨⟨st up, 9, ?_⟩,
    ⟨st { (((up.sb F.pitPitchStatus_warm true).sb F.pitPitchStatus_suspended true).sb F.pitResumeStatus_held_token true) with sto := { up.sto with cur := some sealW } }, 7, ?_⟩,
    ⟨st { (((up.sb F.pitPitchStatus_warm true).sb F.pitPitchStatus_suspended true).sb F.pitResumeStatus_held_token true) with sto := { up.sto with cur := some sealW } }, 9, 1, ?_⟩,
    ⟨st { (((up.sb F.pitPitchStatus_warm true).sb F.pitPitchStatus_suspended true).sb F.pitResumeStatus_held_token true) with sto := { up.sto with cur := some sealW } }, ?_⟩,
    ⟨st (node.s F.pitResumeStatus_state 2), ?_⟩,
    ⟨st (node.s F.pitResumeStatus_state 4), _, _, _, _, rfl, rfl, rfl, rfl, ?_⟩⟩ <;> decide +kernel

/-- The hypotheses of TwinMessagesComplete can be met. -/
theorem witness_TwinMessagesComplete :
    (∃ (s : State) (h : TwinHello) (d : Dev), d = (s.dev.shadowTake (twinHelloBytes h)).twinHeard ∧ s.dev.powered = true ∧ (s.dev.shadowTake (twinHelloBytes h)).twinMember = true ∧ h.version = 1#8 ∧ h.sv8.toNat = d.sizeLvl 8 ∧ h.sv10.toNat = d.sizeLvl 16 ∧ h.role ≠ 2#8 ∧ d.role = 1) ∧
    (∃ (s : State) (h : TwinHello) (d : Dev), d = (s.dev.shadowTake (twinHelloBytes h)).twinHeard ∧ s.dev.powered = true ∧ (s.dev.shadowTake (twinHelloBytes h)).twinMember = true ∧ h.version = 1#8 ∧ h.sv8.toNat = d.sizeLvl 8 ∧ h.sv10.toNat = d.sizeLvl 16 ∧ h.role = 2#8 ∧ d.role = 3) ∧
    (∃ (s : State) (v : BitVec 8) (n : W64) (es : List DeltaEnt) (d : Dev), d = (s.dev.shadowTake (deltaBytes n es)).twinHeard ∧ s.dev.powered = true ∧ (s.dev.shadowTake (deltaBytes n es)).twinMember = true ∧ v = 1#8 ∧ d.role = 3 ∧ d.stagingNow.num = n) ∧
    (∃ (s : State) (c : TwinCommit) (d : Dev), d = (s.dev.shadowTake (commitBytes c.epoch c.entries.toNat c.crc c.boundary c.tally)).twinHeard ∧ s.dev.powered = true ∧ (s.dev.shadowTake (commitBytes c.epoch c.entries.toNat c.crc c.boundary c.tally)).twinMember = true ∧ c.version = 1#8 ∧ d.role = 3 ∧ d.stagingNow.num = c.epoch ∧ d.stagingNow.ents.length = c.entries.toNat ∧ epochCrc d.stagingNow.ents = c.crc) ∧
    (∃ (s : State) (v : BitVec 8) (n : W64) (d : Dev) (e : Epoch), d = (s.dev.shadowTake (shadowAckBytes n false)).twinHeard ∧ s.dev.powered = true ∧ (s.dev.shadowTake (shadowAckBytes n false)).twinMember = true ∧ v = 1#8 ∧ d.role = 2 ∧ d.twin.unacked.find? (fun e => e.num = n) = some e ∧ n ≠ 0#64) ∧
    (∃ (s : State) (v : BitVec 8) (n : W64) (d : Dev), d = (s.dev.shadowTake (shadowAckBytes n true)).twinHeard ∧ s.dev.powered = true ∧ (s.dev.shadowTake (shadowAckBytes n true)).twinMember = true ∧ v = 1#8 ∧ d.role = 2) := by
  refine ⟨⟨st (twin 1), ⟨1, 9, 1, 9, 5, 0, 1, (up.sizeLvl 8 : Nat), (up.sizeLvl 16 : Nat), 0⟩, _, rfl, ?_⟩,
    ⟨st (twin 3), ⟨1, 9, 1, 9, 5, 1, 2, (up.sizeLvl 8 : Nat), (up.sizeLvl 16 : Nat), 0⟩, _, rfl, ?_⟩,
    ⟨st (twin 3), 1, 1, [], _, rfl, ?_⟩,
    ⟨st (twin 3), ⟨1, 1, 0, epochCrc [], 0, 0⟩, _, rfl, ?_⟩,
    ⟨st { twin 2 with twin := { up.twin with unacked := [⟨1, [], false, 0, 0⟩] } }, 1, 1, _, ⟨1, [], false, 0, 0⟩, rfl, ?_⟩,
    ⟨st (twin 2), 1, 1, _, rfl, ?_⟩⟩ <;> decide +kernel

/-- The hypotheses of TwinTimersComplete can be met. -/
theorem witness_TwinTimersComplete :
    (∃ (s : State), s.dev.powered = true ∧ s.dev.twinMember = true ∧ s.dev.fp7Open = true ∧ s.dev.gb F.pitTwinStatus_peer_ok = false ∧ (s.dev.role = 1 ∨ s.dev.role = 2 ∨ s.dev.role = 3)) ∧
    (∃ (s : State), s.dev.powered = true ∧ s.dev.twinMember = true ∧ s.dev.role = 1 ∧ s.dev.fp7Open = true ∧ s.dev.ded 7 7 + s.dev.sharedCr 7 = 0) ∧
    (∃ (s : State) (e : Epoch) (x : Epoch) (d : Dev), x = { e with closed := true, boundary := s.dev.rd R.clgHead, tally := s.dev.tally } ∧ d = ({ s.dev with twin := { s.dev.twin with unacked := s.dev.twin.unacked ++ [x], open_ := some ⟨x.num + 1, [], false, 0#64, 0#64⟩ } } : Dev).wr R.pitTwinEpoch x.num ∧ s.dev.powered = true ∧ s.dev.twin.open_ = some e ∧ s.dev.role = 2 ∧ d.twinBytes ≤ 3071 * 2 ^ 20) ∧
    (∃ (s : State) (w : Addr), s.dev.powered = true ∧ s.dev.role = 2 ∧ s.dev.gb F.pitTwinStatus_lease_held = true ∧ s.dev.twinWitness = some w ∧ s.dev.twinAsking = false) ∧
    (∃ (s : State), s.dev.powered = true ∧ s.dev.role = 2 ∧ s.dev.gb F.pitTwinStatus_lease_held = false) ∧
    (∃ (s : State) (d : Dev), d = ((s.dev.setRole 5 3 hwPit).sb F.pitTwinStatus_lease_held false).sb F.pitTwinStatus_peer_ok false ∧ s.dev.powered = true ∧ s.dev.role = 2 ∧ s.dev.covered = false) ∧
    (∃ (s : State) (d : Dev), d = ((s.dev.setRole 4 4 hwPit).sb F.pitTwinStatus_peer_ok false).raise 269 ∧ s.dev.powered = true ∧ s.dev.role = 3 ∧ s.dev.linkState 7 = 0) ∧
    (∃ (s : State) (d : Dev), d = ((s.dev.setRole 4 4 hwPit).sb F.pitTwinStatus_peer_ok false).raise 269 ∧ s.dev.powered = true ∧ s.dev.role = 3 ∧ s.dev.linkState 7 = 0 ∧ d.gb F.pitTwinStatus_image_ok = true) ∧
    (∃ (s : State) (d : Dev), d = ((s.dev.setRole 4 4 hwPit).sb F.pitTwinStatus_peer_ok false).raise 269 ∧ s.dev.powered = true ∧ s.dev.role = 3 ∧ s.dev.linkState 7 = 0 ∧ d.gb F.pitTwinStatus_image_ok = false) ∧
    (∃ (s : State), s.dev.powered = true) := by
  refine ⟨⟨st (twin 1), ?_⟩,
    ⟨st (twin 1), ?_⟩,
    ⟨st { twin 2 with twin := { up.twin with open_ := some ⟨1, [], false, 0, 0⟩ } }, ⟨1, [], false, 0, 0⟩, _, _, rfl, rfl, ?_⟩,
    ⟨st (((twin 2).sb F.pitTwinStatus_lease_held true).wr R.pitTwinWitness 0x1009#64), 9, ?_⟩,
    ⟨st (twin 2), ?_⟩,
    ⟨st { (twin 2).wr R.pitTwinWitness 0x1009#64 with now := 5000000 }, _, rfl, ?_⟩,
    ⟨st ((twin 3).s (F.crlLinkStatus_state 7) 0), _, rfl, ?_⟩,
    ⟨st (((twin 3).sb F.pitTwinStatus_image_ok true).s (F.crlLinkStatus_state 7) 0), _, rfl, ?_⟩,
    ⟨st ((twin 3).s (F.crlLinkStatus_state 7) 0), _, rfl, ?_⟩,
    ⟨st up, ?_⟩⟩ <;> decide +kernel

/-- The hypotheses of TwinCommandsComplete can be met. -/
theorem witness_TwinCommandsComplete :
    (∃ (s : State) (x : W32) (d : Dev), d = (s.dev.logged (mgrWrite R.pitTwinWitness x) (1024 * b2n (decide (s.dev.rd R.pitTwinWitness = x.setWidth 64))) (s.dev.rd R.pitTwinWitness) (x.setWidth 64)).wr R.pitTwinWitness (x.setWidth 64) ∧ s.dev.ready R.pitTwinWitness = true ∧ x.toNat < 8192) ∧
    (∃ (s : State) (x : W32) (d : Dev), d = (s.dev.logged (mgrWrite R.pitTwinWitness x) (1024 * b2n (decide (s.dev.rd R.pitTwinWitness = x.setWidth 64))) (s.dev.rd R.pitTwinWitness) (x.setWidth 64)).wr R.pitTwinWitness (x.setWidth 64) ∧ s.dev.ready R.pitTwinWitness = true ∧ x.toNat < 8192 ∧ d.role ≠ 1 ∧ d.role ≠ 2) ∧
    (∃ (s : State) (x : W32) (d : Dev), d = (s.dev.logged (mgrWrite R.pitTwinWitness x) (1024 * b2n (decide (s.dev.rd R.pitTwinWitness = x.setWidth 64))) (s.dev.rd R.pitTwinWitness) (x.setWidth 64)).wr R.pitTwinWitness (x.setWidth 64) ∧ s.dev.ready R.pitTwinWitness = true ∧ x.toNat < 8192 ∧ d.role = 2 ∧ d.gb F.pitTwinStatus_lease_held = false) ∧
    (∃ (s : State) (op : Nat) (c : Instr), (op, c) ∈ [(0, Instr.twinResume .pf 15#8), (1, .twinTakeOver .pf 15#8), (2, .twinReform .pf 15#8)] ∧ s.dev.ready R.pitTwinCmd = true ∧ s.dev.twinCheck op = none) ∧
    (∃ (s : State) (op : Nat) (r : Nat) (c : Instr), (op, c) ∈ [(0, Instr.twinResume .pf 15#8), (1, .twinTakeOver .pf 15#8), (2, .twinReform .pf 15#8)] ∧ s.dev.ready R.pitTwinCmd = true ∧ s.dev.twinCheck op = some r) ∧
    (∃ (s : State) (x : W64), s.dev.ready R.pitTwinRdSeq = true) ∧
    (∃ (s : State), s.dev.reaches (R.pitTwinRdRec 7 + 4) = true) := by
  refine ⟨⟨st (twin 2), 0x1009, _, rfl, ?_⟩,
    ⟨st (twin 3), 0x1009, _, rfl, ?_⟩,
    ⟨st (twin 2), 0x1009, _, rfl, ?_⟩,
    ⟨st ((twin 2).s (F.crlLinkStatus_state 0) 0), 2, .twinReform .pf 15#8, ?_⟩,
    ⟨st up, 1, 2, .twinTakeOver .pf 15#8, ?_⟩,
    ⟨st up, 5, ?_⟩,
    ⟨st up, ?_⟩⟩ <;> decide +kernel

end Sys2Proof.Tests
end

section
/-! PROOFS. Ember (02): the manager's whole write of a row judged by its fields, and the statements ReservedEmberEncodingsRejected and UnarmedHoldBreakIsNotRecorded. -/
namespace Sys2Proof.Machine

/-! ### Numbers under a mask -/

/-- A number lies under a mask when its low part and its high part do. -/
theorem land_eq_self_iff_split (n x m : Nat) :
    x &&& m = x ↔ x % 2 ^ n &&& m % 2 ^ n = x % 2 ^ n ∧ x / 2 ^ n &&& m / 2 ^ n = x / 2 ^ n := by
  rw [← Nat.and_mod_two_pow, ← Nat.and_div_two_pow]
  constructor
  · intro h
    rw [h]
    exact ⟨rfl, rfl⟩
  · rintro ⟨hlow, hhigh⟩
    rw [← Nat.div_add_mod (x &&& m) (2 ^ n), hhigh, hlow, Nat.div_add_mod]

/-- A field of the mask of all bytes of a 32-bit word has all its bits set. -/
theorem fullMask_field {hi lo : Nat} (hh : hi < 32) : (2 ^ 32 - 1) / 2 ^ lo % 2 ^ (hi + 1 - lo) = 2 ^ (hi + 1 - lo) - 1 := by
  apply Nat.eq_of_testBit_eq
  intro i
  rw [Nat.testBit_mod_two_pow, Nat.testBit_div_two_pow, Nat.testBit_two_pow_sub_one, Nat.testBit_two_pow_sub_one]
  by_cases hi' : i < hi + 1 - lo
  · simp only [hi', decide_true, Bool.true_and, decide_eq_true_eq]
    omega
  · simp [hi']

/-! ### The manager's whole write of a 32-bit register, judged by its row (R19, R41, R576) -/

@[simp] theorem mgrWrite_mask (off : Nat) (x : W32) : (mgrWrite off x).mask = 2 ^ 32 - 1 := by
  show (byteMask 4 (BitVec.ofNat 8 15)).toNat = 2 ^ 32 - 1
  decide

@[simp] theorem mgrWrite_off (off : Nat) (x : W32) : (mgrWrite off x).off = off := rfl

@[simp] theorem mgrWrite_data_toNat (off : Nat) (x : W32) : (mgrWrite off x).data.toNat = x.toNat := by
  have hx := x.isLt
  show (x.setWidth 64).toNat = x.toNat
  rw [BitVec.toNat_setWidth, Nat.mod_eq_of_lt (by omega)]

/-- A whole write gives a field of access rw the bits written, where they are legal. -/
theorem Dev.fieldWrite_rw_whole (d : Dev) {f : FDef} (old data : Nat) (hacc : f.acc = .rw) (hh : f.hi < 32) :
    d.fieldWrite f old (2 ^ 32 - 1) data =
      if d.legal f.legal (data / 2 ^ f.lo % 2 ^ (f.hi + 1 - f.lo)) then some (data / 2 ^ f.lo % 2 ^ (f.hi + 1 - f.lo)) else none := by
  unfold Dev.fieldWrite
  simp only [fullMask_field hh, Nat.and_two_pow_sub_one_eq_mod, Nat.mod_mod, Nat.xor_self, Nat.and_zero, Nat.or_zero, hacc]

/-- A whole write carries reserved bits when what is written does not lie under the row's fields. -/
theorem resvBits_whole (fs : List FDef) (x : W32) :
    resvBits fs (2 ^ 32 - 1) x.toNat = decide (x.toNat &&& fs.foldl (fun a f => a ||| f.mask) 0 ≠ x.toNat) := by
  unfold resvBits
  rw [Nat.and_two_pow_sub_one_eq_mod, Nat.mod_eq_of_lt x.isLt]

/-- The row of a 32-bit register whose fields decide what becomes of a write: not one of those that refuse or ignore every write. -/
def RegDef.byFields (r : RegDef) (off : Nat) : Bool := !refusesAll off && !r.allRo && !r.wide && !r.allSf

/-- A whole write of such a register stores the value its fields give, and is refused where a field refuses it (R112). -/
theorem Dev.judgeTable_byFields (d : Dev) {off : Nat} {r : RegDef} (x : W32) (hrow : regAt off = some r) (hf : r.byFields off = true) :
    d.judgeTable (mgrWrite off x) = (d.regWrite r.fields (d.rd off).toNat (2 ^ 32 - 1) x.toNat).elim
      (.bad (d.rd off) (resvBits r.fields (2 ^ 32 - 1) x.toNat) (exemptReg off))
      (fun v => .ok (d.rd off) (BitVec.ofNat 64 v) (resvBits r.fields (2 ^ 32 - 1) x.toNat) (exemptReg off) (fun d => d.wr off (BitVec.ofNat 64 v))) := by
  simp only [RegDef.byFields, Bool.and_eq_true, Bool.not_eq_true'] at hf
  obtain ⟨⟨⟨hall, hro⟩, hwide⟩, hsf⟩ := hf
  simp only [Dev.judgeTable, Dev.judgeRow, mgrWrite_off, mgrWrite_mask, mgrWrite_data_toNat, hrow, hall, hro, hwide, hsf, Bool.false_and,
    Bool.false_eq_true, if_false]
  cases d.regWrite r.fields (d.rd off).toNat (2 ^ 32 - 1) x.toNat <;> rfl

/-- The manager's write that its judgement refuses leaves its rejected record and nothing else (R558). -/
theorem regWr_mgr_refused {s : State} {off : Nat} {old : W64} {rs ex : Bool} (x : W32) (hr : s.dev.ready off = true) (ha : off % 4 = 0) (hb : off < 2 ^ 24)
    (hm : regMapped off = true) (ht : off ≠ R.pitResumeToken) (hn : timeIdx off = none) (hj : s.dev.judgeOf .pf (mgrWrite off x) = .bad old rs ex) :
    regWr s .pf off 15#8 x = .next (s.after (s.dev.logged (mgrWrite off x) (1 + 4 * b2n rs) old old)) := by
  simp only [Dev.ready, Bool.and_eq_true] at hr
  obtain ⟨hreach, hroom⟩ := hr
  rw [regWr_mgr x hreach ha hb hm ht, Dev.unfrozen_of_none _ hn, hj, Dev.commitS_bad hroom]

/-- The manager's write to the Ember block is judged by emb's own judgement. -/
theorem Dev.judgeOf_emb (d : Dev) {off : Nat} (x : W32) (hb : off / 0x10000 = 2) (hh : resHalf off = false) :
    d.judgeOf .pf (mgrWrite off x) = d.judgeEmb (mgrWrite off x) := by
  simp [Dev.judgeOf, hb, hh]

/-! ### emb.trim (R74, R87) -/

/-- The row of emb.trim. -/
def embTrimRow : RegDef := ⟨R.embTrim, 0, 1, 0, 1, false, 0, ⟨false, false, false, false, true, false⟩, [⟨9, 0, .rw, .none, .trim⟩]⟩

theorem regAt_embTrim : regAt R.embTrim = some embTrimRow := by decide

/-- Every trim passes the fields; the reserved one is left to `Dev.judgeTrim`. -/
theorem Dev.regWrite_embTrim (d : Dev) (old data : Nat) : d.regWrite embTrimRow.fields old (2 ^ 32 - 1) data = some (data % 1024) := by
  simp only [embTrimRow, Dev.regWrite, d.fieldWrite_rw_whole (f := ⟨9, 0, .rw, .none, .trim⟩) old data rfl (by decide)]
  simp [Dev.legal]

theorem resvBits_embTrim (x : W32) : resvBits embTrimRow.fields (2 ^ 32 - 1) x.toNat = decide (1024 ≤ x.toNat) := by
  have hmask : embTrimRow.fields.foldl (fun a f => a ||| f.mask) 0 = 2 ^ 10 - 1 := by decide
  rw [resvBits_whole, hmask, Nat.and_two_pow_sub_one_eq_mod]
  apply decide_eq_decide.2
  omega

/-- A trim of -512 is refused (R87). -/
theorem Dev.judgeTrim_reserved (d : Dev) {x : W32} (hx : x.toNat % 1024 = 512) :
    d.judgeTrim (mgrWrite R.embTrim x) = .bad (d.rd R.embTrim) (decide (1024 ≤ x.toNat)) false := by
  have hfield : fieldOf (BitVec.ofNat 64 (x.toNat % 1024)) 9 0 = 512 := by rw [hx]; decide
  have hexempt : exemptReg R.embTrim = false := by decide
  unfold Dev.judgeTrim
  rw [d.judgeTable_byFields x regAt_embTrim (by decide), d.regWrite_embTrim, resvBits_embTrim, hexempt]
  exact if_pos hfield

theorem Dev.judgeOf_embTrim (d : Dev) (x : W32) : d.judgeOf .pf (mgrWrite R.embTrim x) = d.judgeTrim (mgrWrite R.embTrim x) := by
  rw [Dev.judgeOf_emb d x (by decide) (by decide)]
  rfl

/-! ### emb.wake (R83, R87) -/

/-- The row of emb.wake. -/
def embWakeRow : RegDef :=
  ⟨R.embWake, 0, 1, 0, 1, false, 0, ⟨false, false, false, false, true, false⟩, [⟨2, 0, .rw, .none, .range 0 5⟩, ⟨3, 3, .rw, .none, .any⟩, ⟨27, 16, .rw, .none, .any⟩]⟩

theorem regAt_embWake : regAt R.embWake = some embWakeRow := by decide

/-- A whole write of emb.wake: its unit must be one of 0 to 5. -/
theorem Dev.regWrite_embWake (d : Dev) (old data : Nat) :
    d.regWrite embWakeRow.fields old (2 ^ 32 - 1) data =
      if data % 8 ≤ 5 then some (data % 8 + (data / 2 ^ 3 % 2 * 2 ^ 3 + data / 2 ^ 16 % 2 ^ 12 * 2 ^ 16)) else none := by
  simp only [embWakeRow, Dev.regWrite, d.fieldWrite_rw_whole (f := ⟨2, 0, .rw, .none, .range 0 5⟩) old data rfl (by decide),
    d.fieldWrite_rw_whole (f := ⟨3, 3, .rw, .none, .any⟩) old data rfl (by decide),
    d.fieldWrite_rw_whole (f := ⟨27, 16, .rw, .none, .any⟩) old data rfl (by decide)]
  by_cases h : data % 8 ≤ 5 <;> simp [Dev.legal, h]

/-- The reserved bits of emb.wake are 15:4 and 31:28. -/
theorem resvBits_embWake (x : W32) : resvBits embWakeRow.fields (2 ^ 32 - 1) x.toNat = decide (x.toNat / 16 % 2 ^ 12 ≠ 0 ∨ 2 ^ 28 ≤ x.toNat) := by
  have hmask : embWakeRow.fields.foldl (fun a f => a ||| f.mask) 0 = 0x0FFF000F := by decide
  have hlow (y : Nat) : y &&& 15 = y % 2 ^ 4 := Nat.and_two_pow_sub_one_eq_mod y 4
  have hmid (y : Nat) : y &&& 4095 = y % 2 ^ 12 := Nat.and_two_pow_sub_one_eq_mod y 12
  rw [resvBits_whole, hmask]
  apply decide_eq_decide.2
  rw [ne_eq, land_eq_self_iff_split 4, land_eq_self_iff_split 12 (x.toNat / 2 ^ 4), land_eq_self_iff_split 12 (x.toNat / 2 ^ 4 / 2 ^ 12)]
  simp only [Nat.reducePow, Nat.reduceDiv, Nat.reduceMod, hlow, hmid, Nat.and_zero]
  omega

/-- A unit of 6 or 7, or a count of 0 with a unit, is refused (R87). -/
theorem Dev.judgeWake_reserved (d : Dev) {x : W32} (hx : x.toNat % 8 = 6 ∨ x.toNat % 8 = 7 ∨ (x.toNat % 8 ≠ 0 ∧ x.toNat / 2 ^ 16 % 2 ^ 12 = 0)) :
    d.judgeWake (mgrWrite R.embWake x) = .bad (d.rd R.embWake) (decide (x.toNat / 16 % 2 ^ 12 ≠ 0 ∨ 2 ^ 28 ≤ x.toNat)) false := by
  have hexempt : exemptReg R.embWake = false := by decide
  unfold Dev.judgeWake
  rw [d.judgeTable_byFields x regAt_embWake (by decide), d.regWrite_embWake, resvBits_embWake, hexempt]
  by_cases hunit : x.toNat % 8 ≤ 5
  · rw [if_pos hunit]
    apply if_pos
    simp only [fieldOf, BitVec.toNat_ofNat, Bool.and_eq_true, decide_eq_true_eq]
    omega
  · rw [if_neg hunit, Option.elim_none]

theorem Dev.judgeOf_embWake (d : Dev) (x : W32) : d.judgeOf .pf (mgrWrite R.embWake x) = d.judgeWake (mgrWrite R.embWake x) := by
  rw [Dev.judgeOf_emb d x (by decide) (by decide)]
  rfl

/-- Settles O13: the fields of emb.trim and emb.wake, then their own judgements, refuse every reserved encoding, and a refused write leaves its record only. -/
theorem reservedEmberEncodingsRejected : Obligations.ReservedEmberEncodingsRejected := by
  constructor
  · intro s x hready hx
    exact regWr_mgr_refused x hready (by decide) (by decide) (by decide) (by decide) (by decide) ((Dev.judgeOf_embTrim _ x).trans (Dev.judgeTrim_reserved _ hx))
  · intro s x hready hx
    exact regWr_mgr_refused x hready (by decide) (by decide) (by decide) (by decide) (by decide) ((Dev.judgeOf_embWake _ x).trans (Dev.judgeWake_reserved _ hx))

/-! ### The hold monitor (R79, R90) -/

theorem Dev.holdBroken_of_unarmed {d : Dev} (h : bitOf (d.bkp 58) 0 = false) : d.holdBroken = d := by
  unfold Dev.holdBroken
  simp [h]

/-- Settles O14: a monitor that is not armed leaves the device as it was. -/
theorem unarmedHoldBreakIsNotRecorded : Obligations.UnarmedHoldBreakIsNotRecorded := by
  intro s hunarmed
  calc exec .holdBreak s = .next (s.after s.dev.holdBroken) := act_next s Dev.holdBroken
    _ = .next (s.after s.dev) := by rw [Dev.holdBroken_of_unarmed hunarmed]

end Sys2Proof.Machine
end

section
/-! PROOFS. The LIC's configuration (14): the write of a core's threshold judged by its row, and the statement ReservedThresholdRejected. -/
namespace Sys2Proof.Machine

/-! ### The manager's write to block lic -/

/-- The manager's write to the LIC is judged by lic's own judgement. -/
theorem Dev.judgeOf_lic (d : Dev) {off : Nat} (x : W32) (hlo : 8 ≤ off / 0x10000) (hhi : off / 0x10000 < 0xC) (hh : resHalf off = false) :
    d.judgeOf .pf (mgrWrite off x) = d.judgeLic (mgrWrite off x) := by
  have hpit : off / 0x10000 ≠ 1 := by omega
  have hemb : off / 0x10000 ≠ 2 := by omega
  have hclg : off / 0x10000 ≠ 3 := by omega
  have hfwt : ¬ off / 0x10000 < 8 := by omega
  simp [Dev.judgeOf, hh, hpit, hemb, hclg, hfwt, hlo, hhi]

/-- A lic register without a judgement of its own: no SET or CLR word, no signal, source, binding or eoi register. -/
def licTableOnly (off : Nat) : Bool :=
  (licBankAt off).isNone && decide (off ≠ R.licSignal) && (idxIn off (R.licSrcCfg 0) 4 768).isNone &&
  (idxIn off (R.licCoreBind 0) 4 16).isNone && (idxIn off (R.licEoi 0) 8 16).isNone

/-- A write to such a register is judged by its row of the Reference table alone. -/
theorem Dev.judgeLic_tableOnly (d : Dev) {off : Nat} (x : W32) (h : licTableOnly off = true) :
    d.judgeLic (mgrWrite off x) = d.judgeTable (mgrWrite off x) := by
  simp only [licTableOnly, Bool.and_eq_true, Option.isNone_iff_eq_none, decide_eq_true_eq] at h
  obtain ⟨⟨⟨⟨hbank, hsignal⟩, hsrc⟩, hbind⟩, heoi⟩ := h
  simp only [Dev.judgeLic, mgrWrite_off, hbank, hsrc, hbind, heoi, if_neg hsignal]

/-! ### lic.core_cfg (R512, R513, R516) -/

/-- The row of the registers lic.core_cfg. -/
def licCoreCfgRow : RegDef := ⟨R.licCoreCfg 0, 4, 16, 0, 1, false, 0x10, ⟨true, false, false, true, false, false⟩, [⟨4, 0, .rw, .none, .range 0 16⟩]⟩

theorem regAt_licCoreCfg : ∀ c : Fin 16, regAt (R.licCoreCfg c.val) = some licCoreCfgRow := by decide

theorem licTableOnly_licCoreCfg : ∀ c : Fin 16, licTableOnly (R.licCoreCfg c.val) = true := by decide

/-- A whole write of lic.core_cfg: its threshold must be one of 0 to 16. -/
theorem Dev.regWrite_licCoreCfg (d : Dev) (old data : Nat) :
    d.regWrite licCoreCfgRow.fields old (2 ^ 32 - 1) data = if data % 32 ≤ 16 then some (data % 32) else none := by
  simp only [licCoreCfgRow, Dev.regWrite, d.fieldWrite_rw_whole (f := ⟨4, 0, .rw, .none, .range 0 16⟩) old data rfl (by decide)]
  by_cases h : data % 32 ≤ 16 <;> simp [Dev.legal, h]

/-- The reserved bits of lic.core_cfg are 31:5. -/
theorem resvBits_licCoreCfg (x : W32) : resvBits licCoreCfgRow.fields (2 ^ 32 - 1) x.toNat = decide (32 ≤ x.toNat) := by
  have hmask : licCoreCfgRow.fields.foldl (fun a f => a ||| f.mask) 0 = 2 ^ 5 - 1 := by decide
  rw [resvBits_whole, hmask, Nat.and_two_pow_sub_one_eq_mod]
  apply decide_eq_decide.2
  omega

/-- A threshold of 17 to 31 is refused (R513). -/
theorem Dev.judgeOf_licCoreCfg_reserved (d : Dev) (c : Fin 16) {x : W32} (hx : 17 ≤ x.toNat % 32) :
    d.judgeOf .pf (mgrWrite (R.licCoreCfg c.val) x) = .bad (d.rd (R.licCoreCfg c.val)) (decide (32 ≤ x.toNat)) false := by
  have hoff : R.licCoreCfg c.val = 0x80200 + 4 * c.val := rfl
  have hc := c.isLt
  have hhalf : ∀ c : Fin 16, resHalf (R.licCoreCfg c.val) = false := by decide
  have hbyFields : ∀ c : Fin 16, licCoreCfgRow.byFields (R.licCoreCfg c.val) = true := by decide
  have hexempt : ∀ c : Fin 16, exemptReg (R.licCoreCfg c.val) = false := by decide
  rw [d.judgeOf_lic x (by omega) (by omega) (hhalf c), d.judgeLic_tableOnly x (licTableOnly_licCoreCfg c),
    d.judgeTable_byFields x (regAt_licCoreCfg c) (hbyFields c), d.regWrite_licCoreCfg, resvBits_licCoreCfg, hexempt c,
    if_neg (by omega), Option.elim_none]

/-- The manager's write of lic.core_cfg is its write of that register of control space. -/
theorem execLicSrcCfgWrite_core (s : State) (c : Fin 16) (be : BitVec 8) (x : W32) :
    exec (.licSrcCfgWrite .pf (.core c) be (x.setWidth 64)) s = regWr s .pf (R.licCoreCfg c.val) be x := rfl

/-- Settles O15: the threshold's field refuses 17 to 31, and a refused write leaves its record only. -/
theorem reservedThresholdRejected : Obligations.ReservedThresholdRejected := by
  intro s c x hready hx
  have hoff : R.licCoreCfg c.val = 0x80200 + 4 * c.val := rfl
  have hc := c.isLt
  have hmapped : regMapped (R.licCoreCfg c.val) = true := by simp [regMapped, regAt_licCoreCfg c]
  have htime : ∀ c : Fin 16, timeIdx (R.licCoreCfg c.val) = none := by decide
  have htoken : ∀ c : Fin 16, R.licCoreCfg c.val ≠ R.pitResumeToken := by decide
  rw [execLicSrcCfgWrite_core]
  exact regWr_mgr_refused x hready (by omega) (by omega) hmapped (htoken c) (htime c) (Dev.judgeOf_licCoreCfg_reserved _ c hx)

end Sys2Proof.Machine
end

section
/-! PROOFS. Firewatch (15): the manager's acknowledgement of an event by fwt.ack, and the statement AcknowledgingIdZeroMismatches. -/
namespace Sys2Proof.Machine

/-! ### A refused write that leaves a status (R532, R558) -/

/-- A write refused with a status leaves its rejected record, and the status on top of it. -/
theorem Dev.commitS_badEff {d : Dev} {c : WCtx} {old : W64} {eff : Dev → Dev} (hroom : d.swRoom 1 = true) :
    d.commitS c (.badEff old eff) = (eff (d.logged c 1 old old), 1) := by
  unfold Dev.commitS Dev.logged
  simp [hroom]

/-- The manager's write that its judgement refuses with a status leaves its rejected record and that status. -/
theorem regWr_mgr_refusedStatus {s : State} {off : Nat} {old : W64} {eff : Dev → Dev} (x : W32) (hready : s.dev.ready off = true) (halign : off % 4 = 0)
    (hbound : off < 2 ^ 24) (hmapped : regMapped off = true) (htoken : off ≠ R.pitResumeToken) (htime : timeIdx off = none)
    (hjudge : s.dev.judgeOf .pf (mgrWrite off x) = .badEff old eff) :
    regWr s .pf off 15#8 x = .next (s.after (eff (s.dev.logged (mgrWrite off x) 1 old old))) := by
  simp only [Dev.ready, Bool.and_eq_true] at hready
  obtain ⟨hreach, hroom⟩ := hready
  rw [regWr_mgr x hreach halign hbound hmapped htoken, Dev.unfrozen_of_none _ htime, hjudge, Dev.commitS_badEff hroom]

/-! ### The judgement of fwt.ack (R532, R553) -/

/-- The manager's write to the Firewatch block is judged by fwt's own judgement. -/
theorem Dev.judgeOf_fwt (d : Dev) {off : Nat} (x : W32) (hlo : 4 ≤ off / 0x10000) (hhi : off / 0x10000 < 8) (hhalf : resHalf off = false) :
    d.judgeOf .pf (mgrWrite off x) = d.judgeFwt (mgrWrite off x) := by
  have hpit : off / 0x10000 ≠ 1 := by omega
  have hemb : off / 0x10000 ≠ 2 := by omega
  have hclg : off / 0x10000 ≠ 3 := by omega
  simp [Dev.judgeOf, hhalf, hpit, hemb, hclg, hlo, hhi]

theorem Dev.judgeOf_fwtAck (d : Dev) (x : W32) : d.judgeOf .pf (mgrWrite R.fwtAck x) = d.judgeAck (mgrWrite R.fwtAck x) := by
  rw [d.judgeOf_fwt x (by decide) (by decide) (by decide)]
  exact if_pos rfl

/-- The id of an acknowledgement is the low half of the word written, the merge count its high half. -/
theorem mgrWrite_ackFields (x : W32) :
    fieldOf (mgrWrite R.fwtAck x).data 15 0 = x.toNat % 65536 ∧ fieldOf (mgrWrite R.fwtAck x).data 31 16 = x.toNat / 65536 := by
  have hx := x.isLt
  simp only [fieldOf, mgrWrite_data_toNat]
  omega

/-- A whole acknowledgement that does not close the event is refused, and the status gives its outcome. -/
theorem Dev.judgeAck_refused (d : Dev) (x : W32) (hresult : d.ackResult (x.toNat % 65536) (x.toNat / 65536) ≠ 1) :
    d.judgeAck (mgrWrite R.fwtAck x) =
      .badEff 0#64 (fun d' => d'.s F.fwtAckStatus_result (d.ackResult (x.toNat % 65536) (x.toNat / 65536))) := by
  have hwhole : woOk (mgrWrite R.fwtAck x).be 0xFFFFFFFF = true := (by decide : woOk 15 0xFFFFFFFF = true)
  obtain ⟨hid, hmerges⟩ := mgrWrite_ackFields x
  simp only [Dev.judgeAck, hwhole, hid, hmerges, Bool.not_true, Bool.false_eq_true, if_false]
  exact if_neg hresult

/-- An acknowledgement is a write of fwt.ack in control space. -/
theorem execFwtAck_eq_regWr (pty : Party) (be : BitVec 8) (x : W32) (s : State) : exec (.fwtAck pty be x) s = regWr s pty R.fwtAck be x := rfl

/-- The manager's acknowledgement that does not close the event leaves its rejected record and its outcome (R532). -/
theorem execFwtAck_refused {s : State} {x : W32} (hready : s.dev.ready R.fwtAck = true)
    (hresult : s.dev.ackResult (x.toNat % 65536) (x.toNat / 65536) ≠ 1) :
    exec (.fwtAck .pf 15#8 x) s = .next (s.after ((s.dev.logged (mgrWrite R.fwtAck x) 1 0#64 0#64).s F.fwtAckStatus_result
      (s.dev.ackResult (x.toNat % 65536) (x.toNat / 65536)))) := by
  have hjudge := (s.dev.judgeOf_fwtAck x).trans (s.dev.judgeAck_refused x hresult)
  rw [execFwtAck_eq_regWr,
    regWr_mgr_refusedStatus x hready (by decide) (by decide) (by decide) (by decide) (by decide) hjudge]

/-- The id 0 mismatches, whether or not an event is open and whatever its merge count (R553). -/
theorem Dev.ackResult_idZero (d : Dev) (merges : Nat) : d.ackResult 0 merges = 3 := if_pos rfl

/-- Settles O16: the id 0 gives result 3, which does not close the event, so the write is refused with that status. -/
theorem acknowledgingIdZeroMismatches : Obligations.AcknowledgingIdZeroMismatches := by
  intro s x hready hid
  have hresult : s.dev.ackResult (x.toNat % 65536) (x.toNat / 65536) = 3 := by rw [hid, Dev.ackResult_idZero]
  rw [execFwtAck_refused hready (by rw [hresult]; decide), hresult]

end Sys2Proof.Machine
end

section
/-! PROOFS. The change log (16): what a record staged into a full queue does to clg.head, and the refutation of AcknowledgedRecordsAreReleased. -/
namespace Sys2Proof.Machine

/-! ### Operations of the log that leave clg.head (R567, R568) -/

theorem Dev.rd_setClg (d : Dev) (c : Clg) (off : Nat) : ({ d with clg := c } : Dev).rd off = d.rd off := rfl

theorem Dev.rd_setSto (d : Dev) (x : Sto) (off : Nat) : ({ d with sto := x } : Dev).rd off = d.rd off := rfl

theorem Dev.stoMove_rd_clgHead (d : Dev) (n : Nat) : (d.stoMove 4 n).rd R.clgHead = d.rd R.clgHead :=
  Dev.rd_wr_ne _ (by decide) (by decide) (by decide)

theorem Dev.shadowRec_rd (d : Dev) (seq : W64) (ws : List W64) (off : Nat) : (d.shadowRec seq ws).rd off = d.rd off := by
  unfold Dev.shadowRec
  split <;> rfl

theorem Dev.logHeader_rd_clgHead (d : Dev) : d.logHeader.rd R.clgHead = d.rd R.clgHead :=
  (Dev.stoMove_rd_clgHead _ 64).trans (Dev.rd_setSto ..)

theorem Dev.clearSrc_rd (d : Dev) (n off : Nat) : (d.clearSrc n).rd off = d.rd off := rfl

theorem Dev.srcCond_rd (d : Dev) (n off : Nat) (c : Bool) : (d.srcCond n c).rd off = d.rd off := by
  unfold Dev.srcCond
  split <;> rfl

theorem Dev.whenD_rd {d : Dev} {f : Dev → Dev} {off : Nat} (b : Bool) (hf : (f d).rd off = d.rd off) : (d.whenD b f).rd off = d.rd off := by
  cases b
  · rfl
  · exact hf

theorem Dev.clgLevels_rd (d : Dev) (off : Nat) : d.clgLevels.rd off = d.rd off := by
  unfold Dev.clgLevels
  split
  · exact Dev.whenD_rd _ (Dev.srcCond_rd ..)
  · exact Dev.whenD_rd _ (Dev.srcCond_rd ..)

/-! ### A record that enters the ring advances clg.head (R567) -/

/-- Under Hold, with the occupancy at or above the attention level, a record written to the ring advances the head and asks for no attention. -/
theorem Dev.ringWrite_rd_clgHead {d : Dev} (r : Rec) (hhold : d.clgHold = true) (hlevel : d.g F.clgAttnCfg_level ≤ d.clgHeld) :
    (d.ringWrite r).rd R.clgHead = d.rd R.clgHead + 1 := by
  have hquiet : (decide (d.g F.clgAttnCfg_level ≠ 0) && decide (d.clgHeld < d.g F.clgAttnCfg_level) && decide (d.g F.clgAttnCfg_level ≤ d.clgHeld + 1)) = false := by
    simp [Nat.not_lt.2 hlevel]
  unfold Dev.ringWrite
  simp only [hhold, Bool.not_true, Bool.false_and, Bool.false_eq_true, if_false, hquiet, Dev.whenD]
  rw [Dev.clgLevels_rd, Dev.logHeader_rd_clgHead, Dev.shadowRec_rd, Dev.stoMove_rd_clgHead, Dev.rd_setClg]
  calc ((d.wr R.clgHead (d.rd R.clgHead + 1)).bump F.clgRecords_count).rd R.clgHead
      = (d.wr R.clgHead (d.rd R.clgHead + 1)).rd R.clgHead := Dev.rd_wr_ne _ (by decide) (by decide) (by decide)
    _ = d.rd R.clgHead + 1 := Dev.rd_wr_same ..

/-- A record that finds the staging queue full sends the oldest staged one to the ring (log entry 7). -/
theorem Dev.stageRec_rd_clgHead_of_full {d : Dev} (r : Rec) (hfull : 16 ≤ d.clg.staged.length) (hhold : d.clgHold = true)
    (hlevel : d.g F.clgAttnCfg_level ≤ d.clgHeld) : (d.stageRec r).rd R.clgHead = d.rd R.clgHead + 1 := by
  cases hstaged : d.clg.staged with
  | nil => simp [hstaged] at hfull
  | cons oldest rest =>
    have hflush : d.flushOne = Dev.ringWrite { d with clg := { d.clg with staged := rest } } oldest := by
      simp only [Dev.flushOne, hstaged]
    unfold Dev.stageRec
    rw [if_pos hfull, hflush]
    exact Dev.ringWrite_rd_clgHead oldest hhold hlevel

/-- So does the kind 13 record for missed records, which is logged as soon as room returns (R571). -/
theorem Dev.missedRec_rd_clgHead_of_full {d : Dev} (hmissed : d.clg.missed ≠ 0) (hfull : 16 ≤ d.clg.staged.length) (hhold : d.clgHold = true)
    (hlevel : d.g F.clgAttnCfg_level ≤ d.clgHeld) : d.missedRec.rd R.clgHead = d.rd R.clgHead + 1 := by
  unfold Dev.missedRec
  rw [if_neg hmissed, Dev.clearSrc_rd]
  have hstage := Dev.stageRec_rd_clgHead_of_full (d.evRec hwClg 13 0#64 0#64 (BitVec.ofNat 64 d.clg.missed)) hfull hhold hlevel
  exact (Dev.rd_wr_ne _ (by decide) (by decide) (by decide)).trans ((Dev.rd_setClg ..).trans hstage)

/-! ### An acknowledgement that makes room in a full log (R568, R569, R571) -/

/-- The device of an acknowledgement once the records are released and before what was missed is recorded. -/
def Dev.ackReleased (d : Dev) (a : W64) : Dev := (d.release (a - d.rd R.clgTail).toNat).logHeader.clgLevels

theorem Dev.ackTo_eq_missedRec {d : Dev} {a : W64} (hroom : (d.ackReleased a).hwRoom = true) : d.ackTo a = (d.ackReleased a).missedRec :=
  if_pos hroom

/-- Any record of the log of `fullLog`; its contents play no part. -/
def loggedRec : Rec := Dev.reset.evRec hwClg 3 0#64 0#64 0#64

/-- A log of 65,536 records under Hold with no room left: 65,520 records in the ring, numbered from 0, and 16 staged. One hardware record was missed, so F250 and F251 are asserted. The host link is up. -/
def fullLog : Dev :=
  { Dev.reset with
    regs := [(R.genNodeCfg, 0x400000#64), (R.pitPitchStatus, 0x400D#64), (R.clgStatus, 0x30#64), (R.clgHead, 65520#64), (R.clgMissed, 1#64), (R.clgRecords, 65520#64)]
    pins := ⟨true, false, false, true, true⟩
    pit := { Dev.reset.pit with ready := true, sampled := true, logOpen := true }
    hst := { Dev.reset.hst with cfg := [(4, 6#32)], dlUp := true }
    fwt := { Dev.reset.fwt with raw := [(7, 0x0C000000#32)] }
    clg := { Dev.reset.clg with ring := (List.range 65520).map (fun seq => (seq, ⟨loggedRec, 0#64, false⟩)), staged := List.replicate 16 loggedRec, missed := 1 } }

/-- Not even a hardware record finds room, so one is missed (R568, R571). -/
theorem fullLog_hwRoom : fullLog.hwRoom = false := by decide

theorem fullLog_reaches_clgAck : fullLog.reaches R.clgAck = true := by decide

/-- The acknowledgement of record 0 frees one place, so the kind 13 record is logged, and a staged record moves to the ring at number 65,520. -/
theorem fullLog_ackTo_rd_clgHead : (fullLog.ackTo 1#64).rd R.clgHead = 65521#64 := by
  have hroom : (fullLog.ackReleased 1#64).hwRoom = true := by decide
  have hmissed : (fullLog.ackReleased 1#64).clg.missed ≠ 0 := by decide
  have hstaged : 16 ≤ (fullLog.ackReleased 1#64).clg.staged.length := by decide
  have hhold : (fullLog.ackReleased 1#64).clgHold = true := by decide
  have hlevel : (fullLog.ackReleased 1#64).g F.clgAttnCfg_level ≤ (fullLog.ackReleased 1#64).clgHeld := by decide
  have hhead : (fullLog.ackReleased 1#64).rd R.clgHead = 65520#64 := by decide
  rw [Dev.ackTo_eq_missedRec hroom, Dev.missedRec_rd_clgHead_of_full hmissed hstaged hhold hlevel, hhead]
  rfl

/-- Refutes O17: with the staging queue full and a record missed, an accepted acknowledgement logs the kind 13 record of R571, which drives a staged record into the ring: the head moves from 65,520 to 65,521, where the statement lets it stand. -/
theorem not_acknowledgedRecordsAreReleased : ¬ Obligations.AcknowledgedRecordsAreReleased := by
  intro h
  obtain ⟨haccepted, -⟩ := h ⟨fullLog, []⟩ 1#64 0#64 65520#64 (by decide) (by decide) fullLog_reaches_clgAck
  obtain ⟨-, -, hhead, -⟩ := haccepted (by decide) (by decide)
  have hmoved : 65521#64 = 65520#64 := fullLog_ackTo_rd_clgHead.symm.trans hhead
  exact absurd hmoved (by decide)

end Sys2Proof.Machine
end

section
/-! PROOFS. Bivouac (18): the manager's write of the resume token, whose value no record and no read shows, and the statement ResumeTokenIsKeptSecret. -/
namespace Sys2Proof.Machine

/-! ### The manager's write of pit.resume_token (R618) -/

/-- The manager's write that reaches a register passes every gate: its judgement decides (R48, R352, R557). -/
theorem Dev.regCmdS_mgr {d : Dev} {off : Nat} (wide : Bool) (be : Nat) (data old : W64) (judge : Dev → WCtx → WOut)
    (hreach : d.reaches off = true) (hmapped : regMapped off = true) :
    d.regCmdS .pf off wide be data old true judge =
      d.commitS ⟨.manager, 0, 0, off, wide, be, data⟩ (judge d ⟨.manager, 0, 0, off, wide, be, data⟩) := by
  obtain ⟨-, hmem, hwatch, hpower⟩ := Dev.reaches_host hreach
  unfold Dev.regCmdS
  simp only [hmem, hwatch, hpower, hmapped, Bool.not_true, Bool.or_false, partyOrigin]
  rfl

/-- The manager's 8-byte write of the resume token is judged once, as a write of zero that carries the token aside. -/
theorem Dev.pfWrite_resumeToken {d : Dev} (token : W64) (hreach : d.reaches R.pitResumeToken = true) :
    d.pfWrite .pf R.pitResumeToken true 255 token =
      d.commitS (mgrWrite8 R.pitResumeToken 0#64) (d.judgeToken token (mgrWrite8 R.pitResumeToken 0#64)) := by
  obtain ⟨-, hmem, -, -⟩ := Dev.reaches_host hreach
  have hmapped : regMapped R.pitResumeToken = true := by decide
  have htime : timeIdx R.pitResumeToken = none := by decide
  calc d.pfWrite .pf R.pitResumeToken true 255 token
      = d.oneWrite .pf R.pitResumeToken true 255 token := by
        unfold Dev.pfWrite
        exact if_pos (by decide)
    _ = d.regCmdS .pf R.pitResumeToken true 255 0#64 0#64 true (fun d c => d.judgeToken token c) := by
        simp only [Dev.oneWrite, Dev.whenD_timeBlock _ hmem, d.unfrozen_of_none htime, if_true, isPf]
    _ = _ := Dev.regCmdS_mgr true 255 0#64 0#64 _ hreach hmapped

/-- The device after a write of the resume token takes effect: the next seal's token, and whether there is one. -/
def Dev.withToken (d : Dev) (token : W64) : Dev :=
  ({ d with bvc := { d.bvc with token := token } } : Dev).sb F.pitResumeStatus_token_set (decide (token ≠ 0#64))

/-- A whole write of the resume token is accepted, with zero as its old and its new value. -/
theorem Dev.judgeToken_mgr (d : Dev) (token : W64) :
    d.judgeToken token (mgrWrite8 R.pitResumeToken 0#64) = .ok 0#64 0#64 false false (fun d' => d'.withToken token) := rfl

/-- The manager's write of the resume token leaves a record of an unchanged zero, and the token for the next seal. -/
theorem execResumeTokenWrite_mgr {s : State} (token : W64) (hready : s.dev.ready R.pitResumeToken = true) :
    exec (.resumeTokenWrite .pf token) s =
      .next (s.after ((s.dev.logged (mgrWrite8 R.pitResumeToken 0#64) 1024 0#64 0#64).withToken token)) := by
  simp only [Dev.ready, Bool.and_eq_true] at hready
  obtain ⟨hreach, hroom⟩ := hready
  have hhere : s.dev.partyHere .pf = true := (Dev.reaches_host hreach).1
  calc exec (.resumeTokenWrite .pf token) s
      = .next (s.after (s.dev.pfWrite .pf R.pitResumeToken true 255 token).1) := actIf_next hhere _
    _ = _ := by rw [Dev.pfWrite_resumeToken token hreach, Dev.judgeToken_mgr, Dev.commitS_ok hroom]; rfl

/-! ### What the token shows of itself (R612, R618) -/

theorem Dev.withToken_makeSeal_token (d : Dev) (token : W64) : (d.withToken token).makeSeal.token = token := rfl

theorem Dev.withToken_tokenSet (d : Dev) (token : W64) : (d.withToken token).gb F.pitResumeStatus_token_set = decide (token ≠ 0#64) :=
  Dev.gb_sb_same _ _ rfl (by decide)

/-- A write-only register that lies at an offset reads zero, whatever the device holds (R19). -/
theorem Dev.peek_writeOnly (d : Dev) {off o : Nat} {row : RegDef} (hcover : regCover off = some (row, o)) (hwo : row.allWo = true) :
    d.peek off true = some 0#64 := by
  simp [Dev.peek, hcover, hwo]

/-- The row of the register pit.resume_token. -/
def resumeTokenRow : RegDef := ⟨R.pitResumeToken, 0, 1, 0, 1, true, 0, ⟨false, true, false, false, false, false⟩, [⟨63, 0, .wo, .none, .any⟩]⟩

theorem regCover_resumeToken : regCover R.pitResumeToken = some (resumeTokenRow, R.pitResumeToken) := by decide

theorem Dev.peek_resumeToken (d : Dev) : d.peek R.pitResumeToken true = some 0#64 :=
  d.peek_writeOnly regCover_resumeToken (by decide)

/-- Settles O18: the write is judged and recorded as a write of zero, the token is kept for the next seal, and pit.resume_token is write-only. -/
theorem resumeTokenIsKeptSecret : Obligations.ResumeTokenIsKeptSecret := by
  rintro s x _ _ rfl rfl hready
  exact ⟨execResumeTokenWrite_mgr x hready, Dev.withToken_makeSeal_token _ x, Dev.withToken_tokenSet _ x, Dev.peek_resumeToken _, rfl, rfl, rfl⟩

end Sys2Proof.Machine
end

section
/-! PROOFS. The machine as a whole: every command is one change of the device under a condition, and what follows for the queue, for what no step takes back and for the soundness of the state: EveryCommandCompletes, CommandsKeepTheQueue, StepTakesNothingBack, StepKeepsSoundness. -/
namespace Sys2Proof.Machine

/-! ### The one shape of a meaning -/

/-- The outcome of a command in `s` that is one change of the device under a condition, a change that keeps what no step takes back. -/
def Meaning (s : State) (o : Host.Outcome State Fault Refusal) : Prop :=
  ∃ (c : Bool) (f : Dev → Dev), (∀ a d, Kept a d → Kept a (f d)) ∧ o = actIf s c f

section
variable {s : State} {f : Dev → Dev} {o o' : Host.Outcome State Fault Refusal}

theorem actIf_meaning {c : Bool} (hf : ∀ a d, Kept a d → Kept a (f d)) : Meaning s (actIf s c f) := ⟨c, f, hf, rfl⟩

theorem act_meaning (hf : ∀ a d, Kept a d → Kept a (f d)) : Meaning s (act s f) := ⟨true, f, hf, rfl⟩

theorem chip_meaning (hf : ∀ a d, Kept a d → Kept a (f d)) : Meaning s (chip s f) := actIf_meaning hf

theorem host_meaning (hf : ∀ a d, Kept a d → Kept a (f d)) : Meaning s (host s f) := actIf_meaning hf

theorem stutter_meaning : Meaning s (.next s) := ⟨false, id, fun _ _ h => h, rfl⟩

theorem ite_meaning {p : Prop} [Decidable p] (ho : Meaning s o) (ho' : Meaning s o') : Meaning s (if p then o else o') := by
  split
  · exact ho
  · exact ho'

theorem regWr_meaning {pty : Party} {off : Nat} {be : BitVec 8} {x : W32} : Meaning s (regWr s pty off be x) :=
  actIf_meaning (fun _ _ h => Dev.pfWrite_kept h _ _ _ _ _)

theorem regWr8_meaning {pty : Party} {off : Nat} {x : W64} : Meaning s (regWr8 s pty off x) :=
  actIf_meaning (fun _ _ h => Dev.pfWrite_kept h _ _ _ _ _)

theorem regRd_meaning {pty : Party} {off : Nat} : Meaning s (regRd s pty off) :=
  actIf_meaning (fun _ _ h => Dev.readBy_kept h _ _)

theorem timeBlk_meaning {pty : Party} {i : Nat} : Meaning s (timeBlk s pty i) := regRd_meaning

/-- A packet goes to the local design's requests or to the transport of its path. -/
theorem packet_meaning {via : Via} {vc : BitVec 3} {k : Pkt} : Meaning s (packet s via vc k) := by
  refine actIf_meaning (fun a d h => ?_)
  cases via with
  | loc p => exact Dev.localReq_kept h _ _ _
  | fabric p => exact Dev.arrive_kept h _ _ _
  | turn => exact Dev.arrive_kept h _ _ _

theorem rspPacket_meaning {via : Via} {k : Pkt} : Meaning s (rspPacket s via k) := by
  refine actIf_meaning (fun a d h => ?_)
  cases via with
  | loc p => exact Dev.localAnswer_kept (Dev.consume_kept h _ _) _ _
  | fabric p => exact Dev.arriveRsp_kept h _ _
  | turn => exact Dev.arriveRsp_kept h _ _

end

/-- Every command is such a change: one line per row of the table, by the lemma about the operation that the row performs. -/
theorem exec_meaning (c : Instr) (s : State) : Meaning s (exec c s) :=
  match c with
  | .controlWrite a => actIf_meaning (fun _ _ hk => Dev.controlWrite_kept hk a)
  | .tagAdmission r => chip_meaning (fun _ _ hk => Dev.admission_kept hk r)
  | .refclkLost => act_meaning (fun _ _ hk => Dev.refclkGone_kept hk)
  | .reffLost => act_meaning (fun _ _ hk => Dev.reffGone_kept hk)
  | .reffReturn => act_meaning (fun _ _ hk => Dev.reffBack_kept hk)
  | .crystalLoss => act_meaning (fun _ _ hk => Dev.crystalLost_kept hk)
  | .crystalGood => act_meaning (fun _ _ hk => Dev.crystalGood_kept hk)
  | .emberFreshStart rail => act_meaning (f := fun d => d.freshStart rail) (fun _ _ hk => Dev.freshStart_kept hk rail)
  | .switchToVbat => act_meaning (fun _ _ hk => Dev.switchToBat_kept hk)
  | .returnToVmain => act_meaning (fun _ _ hk => Dev.returnToMain_kept hk)
  | .emberRailAbsent rail => act_meaning (f := fun d => d.railAbsent rail) (fun _ _ hk => Dev.railAbsent_kept hk rail)
  | .secondBoundary c => act_meaning (f := fun d => d.secondBoundary c) (fun _ _ hk => Dev.secondBoundary_kept hk c)
  | .oscStop => act_meaning (fun _ _ hk => Dev.oscStop_kept hk)
  | .wallClockWrite pty reg be data => actIf_meaning (fun _ _ hk => Dev.pfWrite_kept hk pty (wallOff reg) (reg = .bin) be.toNat data)
  | .wallWriteApply atBoundary => act_meaning (f := fun d => d.wallApply atBoundary) (fun _ _ hk => Dev.wallApply_kept hk atBoundary)
  | .wctlWrite _ _ _ => regWr_meaning
  | .dstAddHour _ => regWr_meaning
  | .dstSubtractHour _ => regWr_meaning
  | .tmTallyLoRead _ => timeBlk_meaning
  | .timeBlockRead _ _ => timeBlk_meaning
  | .tmEndRead _ => timeBlk_meaning
  | .freezeLapse reader => act_meaning (f := fun d => d.freezeLapses reader.val) (fun _ _ hk => Dev.freezeLapses_kept hk reader.val)
  | .trimWrite _ _ _ => regWr_meaning
  | .trimWindowEnd offset => act_meaning (f := fun d => d.trimWindow offset.toNat) (fun _ _ hk => Dev.trimWindow_kept hk offset.toNat)
  | .switchOverSummary => act_meaning (fun _ _ hk => Dev.switchSummary_kept hk)
  | .holdBreak => act_meaning (fun _ _ hk => Dev.holdBroken_kept hk)
  | .wakeWrite _ _ _ => regWr_meaning
  | .wakeExpiry => act_meaning (fun _ _ hk => Dev.wakeExpires_kept hk)
  | .pwronPulseEnd => act_meaning (fun _ _ hk => Dev.pulseEnds_kept hk)
  | .railsGood => act_meaning (fun _ _ hk => Dev.railsGood_kept hk)
  | .strapSamplingComplete x => chip_meaning (fun _ _ hk => Dev.strapsDone_kept hk x)
  | .strapReread x => chip_meaning (fun _ _ hk => Dev.reread_kept hk x)
  | .pllLock ohms => chip_meaning (fun _ _ hk => Dev.pllLocked_kept hk ohms)
  | .storeExitComplete badA badB => chip_meaning (fun _ _ hk => Dev.storeUp_kept hk badA badB)
  | .storeAttemptFail => chip_meaning (fun _ _ hk => Dev.storeFails_kept hk)
  | .coldInitComplete ringPagesOk => chip_meaning (fun _ _ hk => Dev.coldDone_kept hk ringPagesOk)
  | .warmValidationComplete r => chip_meaning (fun _ _ hk => Dev.warmDone_kept hk r)
  | .configurationReady => chip_meaning (fun _ _ hk => Dev.configReady_kept hk)
  | .perstNAssert => act_meaning (fun _ _ hk => Dev.perstLow_kept hk)
  | .perstNRelease => act_meaning (fun _ _ hk => Dev.perstHigh_kept hk)
  | .joinTimeout => chip_meaning (fun _ _ hk => Dev.joinLate_kept hk)
  | .blockRepitch _ _ _ => regWr_meaning
  | .repitchDrainEnd block => chip_meaning (fun _ _ hk => Dev.resetBlock_kept hk block.toNat false)
  | .repitchDrainLimit block => chip_meaning (fun _ _ hk => Dev.resetBlock_kept hk block.toNat true)
  | .repitchRestoreComplete block => chip_meaning (fun _ _ hk => Dev.reopenBlock_kept hk block.toNat)
  | .scrubRead r => chip_meaning (fun _ _ hk => Dev.scrub_kept hk r)
  | .dbgRead _ => regWr_meaning
  | .dbgReadComplete poison => chip_meaning (fun _ _ hk => Dev.dbgDone_kept hk poison)
  | .storeChannelFail => chip_meaning (fun _ _ hk => Dev.channelFail_kept hk)
  | .trainingStart p => chip_meaning (fun _ _ hk => Dev.trainStart_kept hk p.val)
  | .trainingFrame p lane frame => chip_meaning (fun _ _ hk => Dev.frame_kept hk p.val lane.val frame)
  | .trainingStepTimeout p => chip_meaning (fun _ _ hk => Dev.stepTimeout_kept hk p.val)
  | .trainingIdleEnd p => chip_meaning (fun _ _ hk => Dev.trainIdleEnd_kept hk p.val)
  | .deskewEnd p => chip_meaning (fun _ _ hk => Dev.deskewed_kept hk p.val)
  | .trainingConfigEnd p => chip_meaning (fun _ _ hk => Dev.configured_kept hk p.val)
  | .switchCountEnd p => chip_meaning (fun _ _ hk => Dev.switched_kept hk p.val)
  | .dataLock p => chip_meaning (fun _ _ hk => Dev.dataLocked_kept hk p.val)
  | .fecCodeword p lane cw => chip_meaning (fun _ _ hk => Dev.codeword_kept hk p.val lane.val cw)
  | .syncBlock p lane header payload => chip_meaning (fun _ _ hk => Dev.syncBlk_kept hk p.val lane.val header.toNat payload)
  | .lockLoss p lane => chip_meaning (fun _ _ hk => Dev.laneLost_kept hk p.val lane.val)
  | .lockReturn p lane expiring => chip_meaning (fun _ _ hk => Dev.laneFound_kept hk p.val lane.val expiring)
  | .lockLossTimerExpiry p => chip_meaning (fun _ _ hk => Dev.lockTimer_kept hk p.val)
  | .retrain _ _ => regWr_meaning
  | .phycalMeasurement ohms => chip_meaning (fun _ _ hk => Dev.calService_kept hk ohms)
  | .eyeScan _ _ _ _ => regWr_meaning
  | .eyeScanComplete p width height => chip_meaning (fun _ _ hk => Dev.eyeDone_kept hk p.val width.toNat height.toNat)
  | .correctedSymbolInterval p => chip_meaning (fun _ _ hk => Dev.corrInterval_kept hk p.val)
  | .flitSlot p spillOk readBad => chip_meaning (fun _ _ hk => Dev.flitSlot_kept hk p.val spillOk readBad)
  | .dataFlit p f => chip_meaning (fun _ _ hk => Dev.dataIn_kept (Dev.takeUp_kept hk p.val) p.val f)
  | .nullFlit p f => chip_meaning (fun _ _ hk => Dev.nullIn_kept (Dev.takeUp_kept hk p.val) p.val f)
  | .initFlit p f => chip_meaning (fun _ _ hk => Dev.initCmd_kept (Dev.takeUp_kept hk p.val) p.val f)
  | .undefinedFlit p f => chip_meaning (fun _ _ hk => Dev.undefIn_kept (Dev.takeUp_kept hk p.val) p.val f)
  | .badFlit p => chip_meaning (fun _ _ hk => Dev.badIn_kept (Dev.takeUp_kept hk p.val) p.val)
  | .replayTimeout p => chip_meaning (fun _ _ hk => Dev.replayTimer_kept hk p.val)
  | .receiveDelivery p vc readBad => chip_meaning (fun _ _ hk => Dev.deliverSlot_kept hk p.val vc.val readBad)
  | .initTimeout p => chip_meaning (fun _ _ hk => Dev.initTimer_kept hk p.val)
  | .sessionLapse p => chip_meaning (fun _ _ hk => Dev.lapse_kept hk p.val)
  | .sendStall p => chip_meaning (fun _ _ hk => Dev.sendStalled_kept hk p.val)
  | .replayRateInterval p => chip_meaning (fun _ _ hk => Dev.replayInterval_kept hk p.val)
  | .hello p h => chip_meaning (fun _ _ hk => Dev.helloCmd_kept (Dev.consumeRaw_kept hk p.val (helloBytes h)) p.val h)
  | .helloInterval p => chip_meaning (fun _ _ hk => Dev.sendHello_kept hk p.val)
  | .neighbourDead p => chip_meaning (fun _ _ hk => Dev.nbrDead_kept hk p.val)
  | .lsa p hdr l => chip_meaning (fun _ _ hk => Dev.lsaCmd_kept (Dev.consumeRaw_kept hk p.val (lsaBytes hdr l)) p.val hdr l)
  | .networkAck p hdr keys => chip_meaning (fun _ _ hk => Dev.ackCmd_kept (Dev.consumeRaw_kept hk p.val (keysBytes hdr false keys)) p.val hdr keys)
  | .summary p hdr last keys => chip_meaning (fun _ _ hk => Dev.summaryCmd_kept (Dev.consumeRaw_kept hk p.val (keysBytes hdr last keys)) p.val hdr last keys)
  | .networkRequest p hdr keys => chip_meaning (fun _ _ hk => Dev.requestCmd_kept (Dev.consumeRaw_kept hk p.val (keysBytes hdr false keys)) p.val hdr keys)
  | .requestResend p => chip_meaning (fun _ _ hk => Dev.requestAgain_kept hk p.val)
  | .lsaResend p => chip_meaning (fun _ _ hk => Dev.lsaAgain_kept hk p.val)
  | .lsaOrigination => chip_meaning (fun _ _ hk => Dev.originateCmd_kept hk)
  | .lsaDeletion serial => chip_meaning (fun _ _ hk => Dev.deleteLsa_kept hk serial)
  | .routeRun => chip_meaning (fun _ _ hk => Dev.routeRun_kept hk)
  | .routeInstall => chip_meaning (fun _ _ hk => Dev.routeInstall_kept hk)
  | .packetForward via vc k => actIf_meaning (fun _ _ hk => kept_ite (Dev.arriveRsp_kept hk via k) (Dev.arrive_kept hk via vc.toNat k))
  | .escapeMove p vc => chip_meaning (fun _ _ hk => Dev.escapeMove_kept hk p.val vc.toNat)
  | .dampingEnd p => chip_meaning (fun _ _ hk => Dev.undamp_kept hk p.val)
  | .rd _ _ _ => packet_meaning
  | .wrp _ _ _ => packet_meaning
  | .wra _ _ _ => packet_meaning
  | .fadd _ _ _ => packet_meaning
  | .swap _ _ _ => packet_meaning
  | .cas _ _ _ => packet_meaning
  | .msg _ _ _ => packet_meaning
  | .msga _ _ _ => packet_meaning
  | .fence _ _ _ => packet_meaning
  | .probe _ _ _ => packet_meaning
  | .hacq _ _ _ => packet_meaning
  | .hrel _ _ _ => packet_meaning
  | .hrenew _ _ _ => packet_meaning
  | .hquery _ _ _ => packet_meaning
  | .hdrop _ _ _ => packet_meaning
  | .rsp _ _ _ => ite_meaning rspPacket_meaning packet_meaning
  | .undefinedOpcode _ _ _ => ite_meaning packet_meaning stutter_meaning
  | .gapSkip node flow => chip_meaning (fun _ _ hk => Dev.gapSkipLane_kept hk (node.toNat * 65536 + flow.toNat))
  | .sourceLaneFree node flow => chip_meaning (fun _ _ hk => Dev.pump_kept (Dev.freeSrcLane_kept hk (node.toNat * 65536 + flow.toNat)))
  | .busyRetry tag => chip_meaning (fun _ _ hk => Dev.retryTag_kept hk tag.toNat)
  | .endToEndTimeout tag => chip_meaning (fun _ _ hk => Dev.tagExpired_kept hk tag.toNat)
  | .localTagTimeout p tag => chip_meaning (fun _ _ hk => Dev.localTagExpired_kept hk (p.val * 4096 + tag.val))
  | .holdExpiry home addr => chip_meaning (fun _ _ hk => Dev.tickHold_kept hk home.toNat addr)
  | .configWrite fn off be data => host_meaning (fun _ _ hk => Dev.cfgWrite_kept hk fn.toNat off.toNat be.toNat data)
  | .pfFlr => host_meaning (fun _ d hk => Dev.cfgWrite_kept hk 0 cfgDevCtl 2 (d.cfgW 0 cfgDevCtl ||| 0x8000#32))
  | .vfFlr n => actIf_meaning (fun _ d hk => Dev.cfgWrite_kept hk n.toNat cfgDevCtl 2 (d.cfgW n.toNat cfgDevCtl ||| 0x8000#32))
  | .vfEnableSet => host_meaning (fun _ d hk => Dev.cfgWrite_kept hk 0 cfgSriovCtl 1 (d.cfgW 0 cfgSriovCtl ||| 1#32))
  | .vfEnableClear => host_meaning (fun _ d hk => Dev.cfgWrite_kept hk 0 cfgSriovCtl 1 (d.cfgW 0 cfgSriovCtl &&& 0xFFFFFFFE#32))
  | .hotReset => chip_meaning (fun _ _ hk => Dev.hotReset_kept hk)
  | .dlDown => chip_meaning (fun _ _ hk => Dev.dlDown_kept hk)
  | .hostBar2Write fn off bytes be ep => host_meaning (fun _ _ hk => Dev.hostWrite2_kept hk fn.toNat off.toNat bytes be ep)
  | .hostBar2Read fn reqTag off length => host_meaning (fun _ _ hk => Dev.hostNp2_kept hk 1 fn.toNat reqTag off.toNat length [] 0)
  | .hostBar2Atomic fn reqTag off kind width operands => host_meaning (fun _ _ hk => Dev.hostAtomic2_kept hk fn.toNat reqTag off.toNat kind width operands)
  | .msixTableWrite fn off size8 be data => host_meaning (fun _ _ hk => Dev.msixWrite_kept hk fn.toNat off.toNat size8 be.toNat data)
  | .hostMessage fn x => host_meaning (fun _ _ hk => Dev.hostMsg_kept hk fn.toNat x)
  | .cplLimitExpiry fn reqTag => chip_meaning (fun _ _ hk => Dev.cplLimit_kept hk fn.toNat reqTag)
  | .hostCompletion htag status data => host_meaning (fun _ _ hk => Dev.hostCpl_kept hk htag.toNat status data)
  | .completionTimeout htag => chip_meaning (fun _ _ hk => Dev.hostCplTimeout_kept hk htag.toNat)
  | .l1Exit => chip_meaning (fun _ _ hk => Dev.l1Leave_kept hk)
  | .hostCorrectedInterval => chip_meaning (fun _ _ hk => Dev.hostCorrEnd_kept hk)
  | .winCommit _ _ => regWr_meaning
  | .winRead _ _ => regWr_meaning
  | .winDisable _ _ => regWr_meaning
  | .wcLineTimeout fn off => chip_meaning (fun _ _ hk => Dev.lineTimeout_kept hk fn.toNat off.toNat)
  | .localRequest p vc k => actIf_meaning (fun _ _ hk => Dev.localReq_kept hk p vc.toNat k)
  | .localGapSkip p inst dst key => chip_meaning (fun _ _ hk => Dev.localSkip_kept hk p.val (streamKey p.val dst.toNat inst.toNat key.toNat))
  | .cread p x => chip_meaning (fun _ _ hk => Dev.ctlMsg_kept hk p { x with typ := 0x20#8 })
  | .cwrite p x => chip_meaning (fun _ _ hk => Dev.ctlMsg_kept hk p { x with typ := 0x21#8 })
  | .raise p x => chip_meaning (fun _ _ hk => Dev.ctlMsg_kept hk p { x with typ := 0x30#8 })
  | .insPitch _ _ => regWr_meaning
  | .insResize _ _ => regWr_meaning
  | .insDestroy _ _ => regWr_meaning
  | .insRead _ _ => regWr_meaning
  | .flrComplete n => chip_meaning (fun _ _ hk => Dev.flrFinish_kept hk n.toNat)
  | .inboxRing _ _ _ => regWr_meaning
  | .outboxRing n mask => actIf_meaning (fun _ _ hk => Dev.vfWrite_kept hk n.toNat 0x240 false 15 (mask.setWidth 64))
  | .mailboxSlotWrite pty n slot data => actIf_meaning (fun _ _ hk => Dev.slotCmd_kept hk pty n slot.val data)
  | .msgConsWrite pty n be cons => actIf_meaning (fun _ _ hk => Dev.consCmd_kept hk pty n be.toNat cons)
  | .commonsAccess pty off write length bytes be => actIf_meaning (fun _ _ hk => Dev.commons_kept hk pty off.toNat write length bytes be)
  | .bucketRefill => chip_meaning (fun _ _ hk => Dev.refill_kept hk)
  | .bucketLimitWrite _ _ _ _ _ => regWr_meaning
  | .egressVisit e => chip_meaning (fun _ _ hk => Dev.visit_kept hk e.val)
  | .dlStart _ _ => regWr_meaning
  | .dlSwitch _ _ => regWr_meaning
  | .dlStop _ _ => regWr_meaning
  | .dlRead _ _ => regWr_meaning
  | .dlSwitchDrainDone t => chip_meaning (fun _ _ hk => Dev.dlFinish_kept hk t.toNat)
  | .dlWordWrite t half word => chip_meaning (fun _ _ hk => Dev.dlWriteDue_kept hk t.toNat half word)
  | .signal _ _ _ => regWr_meaning
  | .pendSet _ _ _ _ => regWr_meaning
  | .pendClr _ _ _ _ => regWr_meaning
  | .maskSet _ _ _ _ => regWr_meaning
  | .maskClr _ _ _ _ => regWr_meaning
  | .licSrcCfgWrite pty r be data => actIf_meaning (fun _ _ hk => Dev.pfWrite_kept hk pty (licCfgOff r) (licCfgWide r) be.toNat data)
  | .coreBindWrite _ _ _ _ => regWr_meaning
  | .claimRead pty c => actIf_meaning (fun _ _ hk => Dev.claimRead_kept hk pty c)
  | .eoi _ _ _ _ => regWr_meaning
  | .deliverCredit c => chip_meaning (fun _ _ hk => Dev.deliverPrep_kept hk c.val)
  | .deliverCreditWait p => chip_meaning (fun _ _ hk => Dev.deliverWaits_kept hk p.val)
  | .licGateEntry => chip_meaning (fun _ _ hk => Dev.gateEntry_kept hk)
  | .licWake accessWaits => chip_meaning (fun _ _ hk => Dev.licWakeUp_kept hk accessWaits)
  | .licRestoreComplete crcOk => chip_meaning (fun _ _ hk => Dev.licRestored_kept hk crcOk)
  | .sourceRaise n level port => chip_meaning (fun _ _ hk => Dev.sourceAsserts_kept hk n.val level port.val)
  | .guylineBroken n => chip_meaning (fun _ _ hk => Dev.guyBroken_kept hk n.val)
  | .guylineMended n asserted => chip_meaning (fun _ _ hk => Dev.guyMended_kept hk n.val asserted)
  | .escalationStep => chip_meaning (fun _ _ hk => Dev.escalate_kept hk)
  | .graveChipReset => chip_meaning (fun _ _ hk => Dev.graveReset_kept hk)
  | .fwtAck _ _ _ => regWr_meaning
  | .forceSet _ _ _ _ => regWr_meaning
  | .forceClr _ _ _ _ => regWr_meaning
  | .fwtSrcCfgWrite _ _ _ _ => regWr_meaning
  | .wearMeasurement slowdowns => chip_meaning (fun _ _ hk => Dev.wearAll_kept hk (slowdowns.map (fun x => x.toNat)))
  | .errRelease => chip_meaning (fun _ _ hk => Dev.errReleased_kept hk)
  | .recordWrite => chip_meaning (fun _ _ hk => Dev.flushOne_kept hk)
  | .clgAck _ _ => regWr8_meaning
  | .rdSeqWrite _ _ => regWr8_meaning
  | .rdRecAdvance _ => regRd_meaning
  | .snapshotTaken bad => chip_meaning (fun _ _ hk => Dev.snapTaken_kept hk bad)
  | .pushBatch => chip_meaning (fun _ _ hk => Dev.pushBatch_kept hk)
  | .pushConsWrite _ _ => regWr8_meaning
  | .pdOff _ _ _ => regWr_meaning
  | .pdOn _ _ _ => regWr_meaning
  | .pdDrainEnd => chip_meaning (fun _ _ hk => Dev.pdDrained_kept hk false)
  | .pdDrainLimit => chip_meaning (fun _ _ hk => Dev.pdDrained_kept hk true)
  | .lostWriteRecord domain => chip_meaning (fun _ _ hk => Dev.lostRecord_kept hk domain.val)
  | .pdPowerOffComplete => chip_meaning (fun _ _ hk => Dev.pdOffDone_kept hk)
  | .pdPowerOnComplete => chip_meaning (fun _ _ hk => Dev.pdOnDone_kept hk)
  | .powerGoodTimeout => chip_meaning (fun _ _ hk => Dev.pdTimeout_kept hk)
  | .autoRetainEntry domain => chip_meaning (fun _ _ hk => Dev.retainEntry_kept hk domain.val)
  | .retainWake domain crcOk => chip_meaning (fun _ _ hk => Dev.retainWake_kept hk domain.val crcOk)
  | .pwrfailNLow => act_meaning (f := fun d => d.bvcTrigger 0) (fun _ _ hk => Dev.bvcTrigger_kept hk 0)
  | .monitorTrip _ => act_meaning (f := fun d => d.bvcTrigger 1) (fun _ _ hk => Dev.bvcTrigger_kept hk 1)
  | .bivouacDrainEnd bad => act_meaning (f := fun d => d.bvcDrained false bad) (fun _ _ hk => Dev.bvcDrained_kept hk false bad)
  | .bivouacBudgetExpiry bad => act_meaning (f := fun d => d.bvcDrained true bad) (fun _ _ hk => Dev.bvcDrained_kept hk true bad)
  | .returnWithoutLoss => act_meaning (fun _ _ hk => Dev.returnNoLoss_kept hk)
  | .resumeTokenWrite _ _ => regWr8_meaning
  | .resume _ _ => regWr8_meaning
  | .resumeDiscard _ _ => regWr_meaning
  | .resumptionComplete => chip_meaning (fun _ _ hk => Dev.resumeDone_kept hk)
  | .discardComplete => chip_meaning (fun _ _ hk => Dev.discardDone_kept hk)
  | .shadowHello h => chip_meaning (fun _ _ hk => Dev.twinHello_kept hk h)
  | .delta version epoch entries => chip_meaning (fun _ _ hk => Dev.shadowDelta_kept hk version epoch entries)
  | .commit c => chip_meaning (fun _ _ hk => Dev.shadowCommit_kept hk c)
  | .shadowAck version epoch rejected => chip_meaning (fun _ _ hk => Dev.shadowAck_kept hk version epoch rejected)
  | .twinHelloInterval => chip_meaning (fun _ _ hk => Dev.twinHelloTime_kept hk)
  | .twinCreditTimeout => chip_meaning (fun _ _ hk => Dev.twinNoCredit_kept hk)
  | .epochClose => chip_meaning (fun _ _ hk => Dev.closeEpoch_kept hk)
  | .twinRenew => chip_meaning (fun _ _ hk => Dev.twinRenew_kept hk)
  | .orphan => chip_meaning (fun _ _ hk => Dev.orphaned_kept hk)
  | .activeLost => chip_meaning (fun _ _ hk => Dev.activeLost_kept hk)
  | .witnessQuietEnd => chip_meaning (fun _ _ hk => Dev.quietEnds_kept hk)
  | .twinWitnessWrite _ _ _ => regWr_meaning
  | .twinResume _ _ => regWr_meaning
  | .twinTakeOver _ _ => regWr_meaning
  | .twinReform _ _ => regWr_meaning
  | .twinRdSeqWrite _ _ => regWr8_meaning
  | .twinRdRecAdvance _ => regRd_meaning
  | .pwrfailNGlitch => chip_meaning (fun _ _ hk => Dev.pwrGlitch_kept hk)
  | .railReading mv => chip_meaning (fun _ _ hk => Dev.railsRead_kept hk mv)
  | .vbatMeasurement mv => chip_meaning (fun _ _ hk => Dev.vbatRead_kept hk mv)
  | .tempReading temps => chip_meaning (fun _ _ hk => Dev.tempsRead_kept hk temps)
  | .refclkReturn => act_meaning (fun _ _ hk => Dev.refclkBack_kept hk)
  | .hostLinkUp speed width flit => chip_meaning (fun _ _ hk => Dev.hostLinkUp_kept hk speed.toNat width.toNat flit)
  | .aspmL1Entry sub => chip_meaning (fun _ _ hk => Dev.l1Entry_kept hk sub)
  | .hostLinkError e fn => host_meaning (fun _ _ hk => Dev.hostError_kept hk e fn.toNat)
  | .convergence => chip_meaning (fun _ _ hk => Dev.convergenceCmd_kept hk)
  | .dampingCountReset p => chip_meaning (fun _ _ hk => Dev.s_kept hk (F.netNbrCost_downs p.val) 0)
  | .deliveryStreamFree p src inst key => chip_meaning (fun _ _ hk => Dev.pumpLocal_kept (Dev.freeStream_kept hk (streamKey p.val src.toNat inst.toNat key.toNat)))
  | .insCmdComplete => chip_meaning (fun _ _ hk => Dev.insDone_kept hk)
  | .winCmdComplete => chip_meaning (fun _ _ hk => Dev.winDone_kept hk)
  | .mainPowerLoss => act_meaning (fun _ _ hk => Dev.powerLost_kept hk)

theorem step_meaning (s : State) : Meaning { s with pending := s.pending.tail } (step s) := by
  unfold step
  split
  case h_1 h =>
    have hs : ({ s with pending := s.pending.tail } : State) = s := by rw [h, List.tail_nil, ← h]
    rw [hs]
    exact act_meaning (fun _ _ hk => Dev.tick_kept hk)
  case h_2 c rest h =>
    rw [h]
    exact exec_meaning c _

/-! ### What such a change answers -/

/-- It answers a next state, with the queue as it was and nothing taken back. -/
theorem Meaning.answers {s : State} {o : Host.Outcome State Fault Refusal} (h : Meaning s o) :
    ∃ t, o = .next t ∧ t.pending = s.pending ∧ Kept s.dev t.dev := by
  obtain ⟨c, f, hf, rfl⟩ := h
  cases c with
  | true => exact ⟨_, act_next s f, State.after_pending _ _, after_kept (hf _ _ (Kept.refl _))⟩
  | false => exact ⟨s, rfl, rfl, Kept.refl _⟩

theorem Meaning.next {s t : State} {o : Host.Outcome State Fault Refusal} (h : Meaning s o) (ht : o = .next t) :
    t.pending = s.pending ∧ Kept s.dev t.dev := by
  obtain ⟨t', ho, hkept⟩ := h.answers
  cases ho.symm.trans ht
  exact hkept

/-- Settles O3: every command is a change of the device under a condition, and such a change answers a next state. -/
theorem everyCommandCompletes : Obligations.EveryCommandCompletes := by
  intro c s
  obtain ⟨t, ht, -⟩ := (exec_meaning c s).answers
  exact ⟨t, ht⟩

/-- Settles O4: a change of the device leaves the queue; a step takes its front before it runs the command. -/
theorem commandsKeepTheQueue : Obligations.CommandsKeepTheQueue :=
  ⟨fun c s _ h => ((exec_meaning c s).next h).1, fun s _ h => ((step_meaning s).next h).1⟩

/-- Settles O8: the change of every command keeps what no step takes back, and so does what follows it. -/
theorem stepTakesNothingBack : Obligations.StepTakesNothingBack :=
  ⟨fun c s _ h => ((exec_meaning c s).next h).2, fun s _ h => ((step_meaning s).next h).2⟩

/-- Settles O6: what no step takes back includes the canonical form of the registers and of the commons memory. -/
theorem stepKeepsSoundness : Obligations.StepKeepsSoundness :=
  fun s _ hsound h => ((step_meaning s).next h).2.sound hsound

end Sys2Proof.Machine
end

section
/-! PROOFS. What does not happen: nothing follows a quiet effect, no command of the host arrives while its link is down, a write of the commons changes its bytes only: QuietEffectsStay, HostCommandsNeedTheLink, CommonsWriteFrame. -/
namespace Sys2Proof.Machine

/-! ### What follows a command, where it is void (log entry 10) -/

theorem Dev.fwtRun_of_noRaise {d : Dev} (h : d.fwt.queue.isEmpty = true) (fuel : Nat) : d.fwtRun fuel = d := by
  cases fuel with
  | zero => rfl
  | succ f => simp [Dev.fwtRun, h]

theorem Dev.twinAnswers_of_none {d : Dev} (h : d.twin.answers.isEmpty = true) : d.twinAnswers = d := by
  unfold Dev.twinAnswers
  exact if_pos h

theorem Dev.pumpFences_of_none {d : Dev} (hf : d.trn.fences.isEmpty = true) (hb : d.trn.behind.isEmpty = true) : d.pumpFences = d := by
  unfold Dev.pumpFences
  exact if_pos (by rw [hf, hb]; rfl)

theorem Dev.gcLines_of_noneSending {d : Dev} (h : d.win.lines.any (fun l => l.sending) = false) : d.gcLines = d := by
  unfold Dev.gcLines
  exact if_neg (by rw [h]; exact Bool.false_ne_true)

theorem Dev.stallRun_of_none {d : Dev} (h : d.win.stalled.isEmpty = true) : d.stallRun = d := by
  unfold Dev.stallRun
  exact if_pos (by rw [h]; rfl)

theorem Dev.heldRun_of_allWait {d : Dev} (h : d.held.all d.heldWaits = true) : d.heldRun = d := by
  unfold Dev.heldRun
  exact if_pos h

/-- No step of the pitch is due where the node is not converged, or the pitch has seen that it is. -/
theorem Dev.pitchHook_of_notDue {d : Dev}
    (h : ((d.pitStep = 12 || d.complete) && d.gb F.netStatus_converged && !d.gb F.pitPitchStatus_converged) = false) : d.pitchHook = d := by
  unfold Dev.pitchHook
  cases hc : d.gb F.netStatus_converged
  · simp
  · cases hp : d.gb F.pitPitchStatus_converged
    · simp only [hc, hp, Bool.not_false, Bool.and_true, Bool.or_eq_false_iff, decide_eq_false_iff_not] at h
      simp [h]
    · simp

theorem Dev.licChoose_of_idle {d : Dev} (h : (d.licGated || d.pdSt 50 ≠ .on || !d.licBusy) = true) : d.licChoose = d := by
  unfold Dev.licChoose
  exact if_pos h

theorem Dev.closeEpoch_of_notActive {d : Dev} (h : d.role ≠ 2) : d.closeEpoch = d := by
  unfold Dev.closeEpoch
  split
  · rfl
  · exact if_pos h

/-- An open epoch gathers nothing and does not close unless the member is active or an orphan. -/
theorem Dev.shadow_of_passive {d : Dev} (old : Dev) (h : (d.twin.open_.isNone || (d.role ≠ 2 && d.role ≠ 5)) = true) :
    (d.shadowUnits old).epochFull = d := by
  cases hopen : d.twin.open_ with
  | none => simp [Dev.shadowUnits, Dev.epochFull, hopen]
  | some e =>
    simp only [hopen, Option.isNone_some, Bool.false_or, Bool.and_eq_true, decide_eq_true_eq] at h
    obtain ⟨hactive, horphan⟩ := h
    simp [Dev.shadowUnits, Dev.epochFull, hopen, hactive, horphan, Dev.closeEpoch_of_notActive]

/-- Nothing follows an effect that is quiet. -/
theorem Dev.settle_of_quiet {d : Dev} (old : Dev) (h : d.quiet = true) : d.settle old = d := by
  simp only [Dev.quiet, Bool.and_eq_true, Bool.not_eq_true'] at h
  obtain ⟨⟨⟨⟨⟨⟨⟨⟨⟨hraise, hanswers⟩, hfences⟩, hbehind⟩, hlines⟩, hstalled⟩, hheld⟩, hpitch⟩, hlic⟩, hepoch⟩ := h
  unfold Dev.settle
  simp only [Dev.fwtRun_of_noRaise hraise, Dev.twinAnswers_of_none hanswers, Dev.pumpFences_of_none hfences hbehind,
    Dev.gcLines_of_noneSending hlines, Dev.stallRun_of_none hstalled, Dev.heldRun_of_allWait hheld, Dev.pitchHook_of_notDue hpitch,
    Dev.licChoose_of_idle hlic, Dev.shadow_of_passive old hepoch]

theorem State.after_of_quiet (s : State) {d : Dev} (h : d.quiet = true) : s.after d = { s with dev := d } := by
  unfold State.after
  rw [Dev.settle_of_quiet s.dev h]

/-- Settles O5: each part of what follows a command is void on a quiet device. -/
theorem quietEffectsStay : Obligations.QuietEffectsStay := fun s _ h => State.after_of_quiet s h

/-! ### The host link (R338, log entry 2) -/

theorem host_stutter {s : State} (h : s.dev.hostHere = false) (f : Dev → Dev) : host s f = .next s := actIf_stutter h f

/-- The manager's write of a register cannot arrive. -/
theorem regWr_stutter {s : State} (h : s.dev.hostHere = false) (off : Nat) (be : BitVec 8) (x : W32) : regWr s .pf off be x = .next s :=
  actIf_stutter (c := s.dev.partyHere .pf) h _

theorem regWr8_stutter {s : State} (h : s.dev.hostHere = false) (off : Nat) (x : W64) : regWr8 s .pf off x = .next s :=
  actIf_stutter (c := s.dev.partyHere .pf) h _

theorem execVfFlr_stutter {s : State} (h : s.dev.hostHere = false) (n : InstNo) : exec (.vfFlr n) s = .next s :=
  actIf_stutter (c := s.dev.hostHere && n ≠ 0#12) (by rw [h]; rfl) _

theorem execControlWrite_stutter {s : State} (h : s.dev.hostHere = false) {a : Access} (hparty : a.pty = .pf) : exec (.controlWrite a) s = .next s :=
  actIf_stutter (c := s.dev.partyHere a.pty) (by rw [hparty]; exact h) _

/-- Settles O9: each of these commands has its effect under the condition that the host link is up. -/
theorem hostCommandsNeedTheLink : Obligations.HostCommandsNeedTheLink := by
  intro s h
  exact ⟨fun _ _ _ _ => host_stutter h _, host_stutter h _, execVfFlr_stutter h, host_stutter h _, host_stutter h _,
    fun _ _ _ _ _ => host_stutter h _, fun _ _ _ _ => host_stutter h _, fun _ _ _ _ _ _ => host_stutter h _,
    fun _ _ _ _ _ => host_stutter h _, fun _ _ => host_stutter h _, fun _ _ _ => host_stutter h _, fun _ _ => host_stutter h _,
    fun _ => regWr_stutter h _ _ _, fun _ => regWr_stutter h _ _ _, fun _ _ => regWr_stutter h _ _ _, fun _ _ => regWr_stutter h _ _ _,
    fun _ => regWr8_stutter h _ _, fun _ => regWr8_stutter h _ _, fun _ => execControlWrite_stutter h⟩

/-! ### A table read after an entry is removed or put -/

section
variable {α : Type}

theorem SMap.find?_of_below {m : SMap α} {lo k : Nat} (h : m.rising lo = true) (hk : k < lo) : m.find? k = none := by
  cases m with
  | nil => rfl
  | cons e t =>
    obtain ⟨j, w⟩ := e
    simp only [SMap.rising, Bool.and_eq_true, decide_eq_true_eq] at h
    simp only [SMap.find?]
    rw [if_neg (by omega), if_pos (by omega)]

/-- The key removed from a table in canonical form is found no more, and every other key is found as before. -/
theorem SMap.find?_del {m : SMap α} {lo : Nat} (h : m.rising lo = true) (k j : Nat) : (m.del k).find? j = if j = k then none else m.find? j := by
  induction m generalizing lo with
  | nil => simp [SMap.del, SMap.find?]
  | cons e t ih =>
    obtain ⟨i, w⟩ := e
    simp only [SMap.rising, Bool.and_eq_true, decide_eq_true_eq] at h
    simp only [SMap.del]
    split
    case isTrue hlt =>
      split
      · subst j
        simp only [SMap.find?]
        rw [if_neg (by omega), if_pos hlt]
      · rfl
    case isFalse hlt =>
      split
      case isTrue heq =>
        subst i
        split
        · subst j
          exact SMap.find?_of_below h.2 (by omega)
        · simp only [SMap.find?]
          rw [if_neg (by omega)]
          split
          · exact SMap.find?_of_below h.2 (by omega)
          · rfl
      case isFalse hne =>
        simp only [SMap.find?, ih h.2]
        split
        · rw [if_neg (by omega)]
        · split
          · simp
          · rfl

/-- A table with a value for every key reads the value put, and every other key as before. -/
theorem SMap.lk_put [DecidableEq α] {m : SMap α} {dv : α} (h : m.wf = true) (k j : Nat) (v : α) :
    (m.put dv k v).lk dv j = if j = k then v else m.lk dv j := by
  unfold SMap.put SMap.lk
  split
  · rw [SMap.find?_del h]
    split <;> simp [*]
  · split
    · subst j
      rw [SMap.find?_ins_self, Option.getD_some]
    · rw [SMap.find?_ins_ne v ‹_›]

end

/-! ### The commons memory, byte by byte (R427, R433) -/

theorem Memory.wf_put {m : List Host.Cell} (h : Memory.wf m = true) (a : Nat) (b : Byte) : Memory.wf (SMap.put m 0#8 a b) = true :=
  SMap.put_canon a b h

theorem Dev.memRd_memWr {d : Dev} (h : Memory.wf d.ins.mem = true) (a x : Nat) (b : Byte) : (d.memWr a b).memRd x = if x = a then b else d.memRd x := by
  simp only [Memory.wf, SMap.canon, Bool.and_eq_true] at h
  exact SMap.lk_put h.1 a x b

/-- Bytes written one after another are read back, and every other byte as before. -/
theorem Dev.memRd_memWrites {d : Dev} (h : Memory.wf d.ins.mem = true) (a x : Nat) (bs : List Byte) :
    (d.memWrites a bs).memRd x = if a ≤ x ∧ x < a + bs.length then bs.getD (x - a) 0#8 else d.memRd x := by
  induction bs generalizing d a with
  | nil =>
    rw [if_neg (by rw [List.length_nil]; omega)]
    rfl
  | cons b t ih =>
    have hwrites : (d.memWrites a (b :: t)) = (d.memWr a b).memWrites (a + 1) t := rfl
    rw [hwrites, ih (Memory.wf_put h a b), Dev.memRd_memWr h, List.length_cons]
    by_cases hx : x = a
    · subst x
      rw [if_neg (by omega), if_pos rfl, if_pos (by omega), Nat.sub_self]
      rfl
    · by_cases hin : a + 1 ≤ x ∧ x < a + 1 + t.length
      · rw [if_pos hin, if_pos (by omega), show x - a = x - (a + 1) + 1 by omega]
        rfl
      · rw [if_neg hin, if_neg hx, if_neg (by omega)]

/-- A store of the commons is its byte writes, its count of bytes moved, and the Store's errors it mends. -/
theorem Dev.memStore_memRd (d : Dev) (a x : Nat) (bs : List Byte) : (d.memStore a bs).memRd x = (d.memWrites a bs).memRd x := by
  unfold Dev.memStore
  dsimp only
  split <;> rfl

theorem Dev.memWrites_frame (d : Dev) (a : Nat) (bs : List Byte) :
    (d.memWrites a bs).regs = d.regs ∧ (d.memWrites a bs).out = d.out ∧ (d.memWrites a bs).hst = d.hst := by
  induction bs generalizing d a with
  | nil => exact ⟨rfl, rfl, rfl⟩
  | cons b t ih => exact ih (d.memWr a b) (a + 1)

/-- It changes no register but the byte counter of class 2 of the Store (R190), sends nothing and leaves the host port alone. -/
theorem Dev.memStore_frame (d : Dev) (a : Nat) (bs : List Byte) :
    (∀ x, x ≠ R.stoBwBytes 2 → (d.memStore a bs).regs.find? x = d.regs.find? x) ∧ (d.memStore a bs).out = d.out ∧ (d.memStore a bs).hst = d.hst := by
  obtain ⟨hregs, hout, hhst⟩ := d.memWrites_frame a bs
  have hstored : ∃ v, (d.memStore a bs).regs = (d.memWrites a bs).regs.ins (R.stoBwBytes 2) v ∧
      (d.memStore a bs).out = (d.memWrites a bs).out ∧ (d.memStore a bs).hst = (d.memWrites a bs).hst := by
    unfold Dev.memStore
    dsimp only
    split <;> exact ⟨_, rfl, rfl, rfl⟩
  obtain ⟨v, hr, ho, hh⟩ := hstored
  refine ⟨fun x hx => ?_, ho.trans hout, hh.trans hhst⟩
  rw [hr, hregs, SMap.find?_ins_ne v hx]

theorem Dev.memRd_memStore {d : Dev} (h : d.sound = true) (a x : Nat) (b : List Byte) :
    (d.memStore a b).memRd x = if a ≤ x ∧ x < a + b.length then b.getD (x - a) 0#8 else d.memRd x := by
  simp only [Dev.sound, Bool.and_eq_true] at h
  rw [Dev.memStore_memRd, Dev.memRd_memWrites h.2]

/-- A tenant's write of whole bytes to its commons page, once its function, the page's domain and its descriptor answer, is a store of those bytes. -/
theorem Dev.commons_store {d : Dev} {n : InstNo} {off : Nat} {b : List Byte} (hmem : d.hostMem n.toNat = true) (hwatch : d.onlyWatch = false)
    (hpower : d.powerOf 0xF00000 = Power.on) (hstate : d.istate n.toNat ≠ 0) (hlo : 0x10000 ≤ off) (hhi : off < 0x20000) (hlen : b.length ≤ 0x20000 - off) :
    d.commons (.vf n) off true b.length b (List.replicate b.length true) = d.memStore (n.toNat * 0x10000 + off % 0x10000) b := by
  have hat : d.commonsAt (.vf n) off = some (n.toNat, n.toNat, off % 0x10000) := if_pos ⟨hlo, hhi⟩
  have hmin : min b.length (0x10000 - off % 0x10000) = b.length := by omega
  simp [Dev.commons, hat, hmem, hwatch, hpower, hstate, hmin, Dev.memEnabled]

/-- Settles O10: on a sound state the bytes of a store are read back and no other byte changes; a tenant's write of its commons page is such a store, and the registers, the host port and what has left the device stay. -/
theorem commonsWriteFrame : Obligations.CommonsWriteFrame := by
  refine ⟨fun d a x b h => Dev.memRd_memStore h a x b, ?_⟩
  intro s n o b t hsound hhere hmem hwatch hpower _ hstate hlo hhi hlen hquiet hexec
  have hnext : exec (.commonsAccess (.vf n) o true b.length b (List.replicate b.length true)) s =
      .next { s with dev := s.dev.memStore (n.toNat * 0x10000 + o.toNat % 0x10000) b } := by
    rw [← State.after_of_quiet s hquiet, ← Dev.commons_store hmem hwatch hpower hstate hlo hhi hlen]
    exact actIf_next (c := s.dev.partyHere (.vf n)) hhere (fun d => d.commons (.vf n) o.toNat true b.length b (List.replicate b.length true))
  cases hnext.symm.trans hexec
  obtain ⟨hregs, hout, hhst⟩ := s.dev.memStore_frame (n.toNat * 0x10000 + o.toNat % 0x10000) b
  refine ⟨hregs, hout, hhst, fun i hi => ?_, fun a ha => ?_⟩
  · rw [Dev.memRd_memStore hsound, if_pos (by omega), Nat.add_sub_cancel_left]
  · rw [Dev.memRd_memStore hsound, if_neg (by omega)]

end Sys2Proof.Machine
end

section
/-! PROOFS. The manager's writes of control space (R39, R558): what the machine answers for each outcome of a judgement, and the statements RefusedWriteLeavesOnlyItsRecord and ControlWriteCompletes. -/
namespace Sys2Proof.Machine

/-! ### The outcome of a manager's write, by its judgement -/

theorem Dev.unfrozen_swRoom (d : Dev) (off n : Nat) : (d.unfrozen off).swRoom n = d.swRoom n := by
  unfold Dev.unfrozen
  split <;> rfl

section
variable {s : State} {off : Nat} {x : W32} {old new : W64} {rs : Bool} {eff : Dev → Dev}

/-- The manager's 4-byte write of a register outside the time block takes the outcome of its judgement. -/
theorem regWr_mgr_judged {o : WOut} (hreach : s.dev.reaches off = true) (halign : off % 4 = 0) (hbound : off < 2 ^ 24) (hmapped : regMapped off = true)
    (htoken : off ≠ R.pitResumeToken) (htime : timeIdx off = none) (hjudge : s.dev.judgeOf .pf (mgrWrite off x) = o) :
    regWr s .pf off 15#8 x = .next (s.after (s.dev.commitS (mgrWrite off x) o).1) := by
  rw [regWr_mgr x hreach halign hbound hmapped htoken, Dev.unfrozen_of_none _ htime, hjudge]

/-- Accepted: the record, then the effect. -/
theorem regWr_mgr_accepted (hready : s.dev.ready off = true) (halign : off % 4 = 0) (hbound : off < 2 ^ 24) (hmapped : regMapped off = true)
    (htoken : off ≠ R.pitResumeToken) (htime : timeIdx off = none) (hjudge : s.dev.judgeOf .pf (mgrWrite off x) = .ok old new rs false eff) :
    regWr s .pf off 15#8 x =
      .next (s.after (eff (s.dev.logged (mgrWrite off x) (4 * b2n rs + 1024 * b2n (decide (old = new))) old new))) := by
  simp only [Dev.ready, Bool.and_eq_true] at hready
  obtain ⟨hreach, hroom⟩ := hready
  rw [regWr_mgr_judged hreach halign hbound hmapped htoken htime hjudge, Dev.commitS_ok hroom]
  rfl

/-- Accepted with nothing reserved set and no value changed: the record says so. -/
theorem regWr_mgr_accepted_same (hready : s.dev.ready off = true) (halign : off % 4 = 0) (hbound : off < 2 ^ 24) (hmapped : regMapped off = true)
    (htoken : off ≠ R.pitResumeToken) (htime : timeIdx off = none) (hjudge : s.dev.judgeOf .pf (mgrWrite off x) = .ok old old false false eff) :
    regWr s .pf off 15#8 x = .next (s.after (eff (s.dev.logged (mgrWrite off x) 1024 old old))) := by
  rw [regWr_mgr_accepted hready halign hbound hmapped htoken htime hjudge, decide_eq_true rfl]
  rfl

/-- Accepted and exempt from a record: the effect alone (R560). -/
theorem regWr_mgr_exempt (hreach : s.dev.reaches off = true) (halign : off % 4 = 0) (hbound : off < 2 ^ 24) (hmapped : regMapped off = true)
    (htoken : off ≠ R.pitResumeToken) (htime : timeIdx off = none) (hjudge : s.dev.judgeOf .pf (mgrWrite off x) = .ok old new rs true eff) :
    regWr s .pf off 15#8 x = .next (s.after (eff s.dev)) := by
  rw [regWr_mgr_judged hreach halign hbound hmapped htoken htime hjudge]
  rfl

/-- Accepted with a group of records: its records, then its effect (R561). -/
theorem regWr_mgr_group {sp tgt : Nat} {olds news : List W64} (hreach : s.dev.reaches off = true) (hroom : s.dev.swRoom news.length = true)
    (halign : off % 4 = 0) (hbound : off < 2 ^ 24) (hmapped : regMapped off = true) (htoken : off ≠ R.pitResumeToken) (htime : timeIdx off = none)
    (hjudge : s.dev.judgeOf .pf (mgrWrite off x) = .group sp tgt olds news eff) :
    regWr s .pf off 15#8 x = .next (s.after (eff (s.dev.logGroup .manager sp tgt news.length 0 olds news))) := by
  rw [regWr_mgr_judged hreach halign hbound hmapped htoken htime hjudge]
  simp only [Dev.commitS, hroom, Bool.not_true, Bool.and_false, Bool.false_eq_true, if_false]
  rfl

end

section
variable {s : State} {off : Nat} {x old new : W64} {rs : Bool} {eff : Dev → Dev}

/-- The manager's 8-byte write of a 64-bit register, accepted: the record, then the effect. -/
theorem regWr8_mgr_accepted (hready : s.dev.ready off = true) (hbound : off < 2 ^ 24) (hwide : oneWide off = true) (hmapped : regMapped off = true)
    (htoken : off ≠ R.pitResumeToken) (htime : timeIdx off = none) (hjudge : s.dev.judgeOf .pf (mgrWrite8 off x) = .ok old new rs false eff) :
    regWr8 s .pf off x =
      .next (s.after (eff (s.dev.logged (mgrWrite8 off x) (4 * b2n rs + 1024 * b2n (decide (old = new))) old new))) := by
  simp only [Dev.ready, Bool.and_eq_true] at hready
  obtain ⟨hreach, hroom⟩ := hready
  rw [regWr8_mgr x hreach hbound hwide hmapped htoken, Dev.unfrozen_of_none _ htime, hjudge, Dev.commitS_ok hroom]
  rfl

/-- Accepted and exempt from a record: the effect alone (R560). -/
theorem regWr8_mgr_exempt (hreach : s.dev.reaches off = true) (hbound : off < 2 ^ 24) (hwide : oneWide off = true) (hmapped : regMapped off = true)
    (htoken : off ≠ R.pitResumeToken) (htime : timeIdx off = none) (hjudge : s.dev.judgeOf .pf (mgrWrite8 off x) = .ok old new rs true eff) :
    regWr8 s .pf off x = .next (s.after (eff s.dev)) := by
  rw [regWr8_mgr x hreach hbound hwide hmapped htoken, Dev.unfrozen_of_none _ htime, hjudge]
  rfl

end

/-! ### The record of a write at the end of the staged ones (R567, R568) -/

/-- Room for a software record is room for any record. -/
theorem Dev.hwRoom_of_swRoom {d : Dev} (h : d.swRoom 1 = true) : d.hwRoom = true := by
  unfold Dev.swRoom at h
  unfold Dev.hwRoom
  cases hhold : d.clgHold
  · rfl
  · simp only [hhold, Bool.not_true, Bool.false_or, decide_eq_true_eq] at h ⊢
    omega

theorem Dev.missedRec_of_none {d : Dev} (h : d.clg.missed = 0) : d.missedRec = d := if_pos h

theorem Dev.stageRec_of_room {d : Dev} (r : Rec) (h : d.clg.staged.length < 16) :
    d.stageRec r = { d with clg := { d.clg with staged := d.clg.staged ++ [r] } } := by
  unfold Dev.stageRec
  rw [if_neg (by omega)]

/-- With the log open, nothing missed and room, a record joins the staged ones and nothing else changes. -/
theorem Dev.log_staged {d : Dev} (r : Rec) (hlimited : d.limited = false) (hopen : d.pit.logOpen = true) (hmissed : d.clg.missed = 0)
    (hstaged : d.clg.staged.length < 16) (hroom : d.hwRoom = true) : d.log r = { d with clg := { d.clg with staged := d.clg.staged ++ [r] } } := by
  unfold Dev.log
  simp only [hlimited, hopen, hroom, Dev.missedRec_of_none hmissed, Dev.stageRec_of_room r hstaged, Bool.not_true, Bool.false_eq_true, if_false, if_true]

/-! ### The general control write (R39, R355) -/

/-- The manager's whole 4-byte access to BAR0 below the commons viewport. -/
def mgrAccess (fn : InstNo) (off : BitVec 24) (x : W32) : Access := ⟨.pf, .bar0, fn, off, false, 15#8, x.setWidth 64, false⟩

/-- Below the commons viewport it is a write of the register it names. -/
theorem Dev.controlWrite_mgrAccess (d : Dev) (fn : InstNo) {off : BitVec 24} (x : W32) (hbound : off.toNat < 0xF00000) :
    d.controlWrite (mgrAccess fn off x) = (d.pfWrite .pf off.toNat false 15 (x.setWidth 64)).1 := by
  show d.barWrite .pf off.toNat false 15 (x.setWidth 64) = _
  unfold Dev.barWrite
  exact if_neg (by omega)

theorem execControlWrite_mgrAccess {s : State} (fn : InstNo) {off : BitVec 24} (x : W32) (hreach : s.dev.reaches off.toNat = true)
    (halign : off.toNat % 4 = 0) (hbound : off.toNat < 0xF00000) (hmapped : regMapped off.toNat = true) (htoken : off.toNat ≠ R.pitResumeToken) :
    exec (.controlWrite (mgrAccess fn off x)) s = .next (s.after
      ((s.dev.unfrozen off.toNat).commitS (mgrWrite off.toNat x) ((s.dev.unfrozen off.toNat).judgeOf .pf (mgrWrite off.toNat x))).1) := by
  have hhere : s.dev.partyHere .pf = true := (Dev.reaches_host hreach).1
  calc exec (.controlWrite (mgrAccess fn off x)) s
      = .next (s.after (s.dev.controlWrite (mgrAccess fn off x))) := actIf_next hhere (fun d => d.controlWrite (mgrAccess fn off x))
    _ = _ := by rw [Dev.controlWrite_mgrAccess _ fn x hbound, Dev.pfWrite_mgr x hreach halign (by omega) hmapped htoken]

/-- Settles O12: a refused write leaves its record, which joins the staged ones; a write to the time block has ended the host's freeze before it is judged. -/
theorem refusedWriteLeavesOnlyItsRecord : Obligations.RefusedWriteLeavesOnlyItsRecord := by
  intro s fn off x old rs hready halign hbound hmapped htoken hjudge hlimited hopen hmissed hstaged
  simp only [Dev.ready, Bool.and_eq_true] at hready
  obtain ⟨hreach, hroom⟩ := hready
  have hroom' : (s.dev.unfrozen off.toNat).swRoom 1 = true := (s.dev.unfrozen_swRoom _ 1).trans hroom
  have hframe : (s.dev.unfrozen off.toNat).limited = s.dev.limited ∧ (s.dev.unfrozen off.toNat).pit = s.dev.pit ∧
      (s.dev.unfrozen off.toNat).clg = s.dev.clg ∧ ∀ c n o v, (s.dev.unfrozen off.toNat).recOf c n o v = s.dev.recOf c n o v := by
    unfold Dev.unfrozen
    split <;> exact ⟨rfl, rfl, rfl, fun _ _ _ _ => rfl⟩
  obtain ⟨hl, hp, hc, hrec⟩ := hframe
  have hexec := execControlWrite_mgrAccess fn x hreach halign hbound hmapped htoken
  rw [hjudge, Dev.commitS_bad hroom'] at hexec
  unfold Dev.logged at hexec
  rw [Dev.log_staged _ (hl.trans hlimited) (by rw [hp, hopen]) (by rw [hc, hmissed]) (by rw [hc]; exact hstaged) (Dev.hwRoom_of_swRoom hroom'), hrec, hc] at hexec
  exact hexec

/-- Settles O24: the access goes to the space it names, a poisoned one to BAR0 or BAR4 to the report of poison. -/
theorem controlWriteCompletes : Obligations.ControlWriteCompletes := by
  refine ⟨fun s fn off x hreach halign hbound hmapped htoken => execControlWrite_mgrAccess fn x hreach halign hbound hmapped htoken, ?_, ?_, ?_⟩
  · intro s fn off be x ep hhere
    have hcfg : s.dev.controlWrite ⟨.pf, .cfg, fn, off, false, be, x, ep⟩ = s.dev.cfgWrite fn.toNat (off.toNat % 4096) be.toNat (x.setWidth 32) := by
      cases ep <;> rfl
    exact (actIf_next (c := s.dev.partyHere .pf) hhere (fun d => d.controlWrite ⟨.pf, .cfg, fn, off, false, be, x, ep⟩)).trans (by rw [hcfg])
  · intro s fn off w be x hhere
    exact actIf_next (c := s.dev.partyHere .pf) hhere (fun d => d.controlWrite ⟨.pf, .bar4, fn, off, w, be, x, false⟩)
  · intro s a hparty hpoison hspace hhere
    have hto : s.dev.controlWrite a = s.dev.hostPoison (if a.space = .bar4 then a.fn.toNat else 0) := by
      simp [Dev.controlWrite, hparty, hpoison, hspace, partyFn]
    exact (actIf_next (c := s.dev.partyHere a.pty) (by rw [hparty]; exact hhere) (fun d => d.controlWrite a)).trans (by rw [hto])

end Sys2Proof.Machine
end

section
/-! PROOFS. The pitch (03, 04): what each of its steps does from the state in which it is due, and the statements PitchStepsComplete and BlockRepitchCompletes. -/
namespace Sys2Proof.Machine

/-! ### A command of the chip, by what its operation does -/

theorem chip_next_of {s : State} {f : Dev → Dev} {e : Dev} (h : s.dev.powered = true) (he : f s.dev = e) : chip s f = .next (s.after e) :=
  (chip_next h f).trans (by rw [he])

/-- What every change of a list keeps, the whole list keeps. -/
theorem Dev.each_keeps {α β : Type} (P : Dev → β) {f : Dev → α → Dev} (hf : ∀ d x, P (f d x) = P d) (d : Dev) (l : List α) : P (d.each l f) = P d := by
  unfold Dev.each
  induction l generalizing d with
  | nil => rfl
  | cons x t ih => exact (ih (f d x)).trans (hf d x)

/-! ### Fields read over a tally stamp (R156) -/

theorem Dev.toStep_pitStep (d : Dev) {n : Nat} (hn : n < 16) : (d.toStep n).pitStep = n :=
  (Dev.g_s_same d n (f := F.pitPitchStatus_step) (by decide) (by decide)).trans (Nat.mod_eq_of_lt hn)

/-- A field of a register that is no pit.step_end keeps its value over a stamp of step 1 to 15. -/
theorem Dev.gb_stamp (d : Dev) (n : Nat) {f : Fld} (hf : ∀ i, f.off ≠ R.pitStepEnd i) : (d.stamp n).gb f = d.gb f := by
  unfold Dev.stamp
  split
  · rfl
  · have hsize : R.pitStepEnd (n - 1) ≠ R.genSizeCfg := by unfold R.pitStepEnd R.genSizeCfg; omega
    have hnode : R.pitStepEnd (n - 1) ≠ R.genNodeCfg := by unfold R.pitStepEnd R.genNodeCfg; omega
    unfold Dev.gb Dev.g
    rw [Dev.rd_wr_ne _ hsize hnode (hf (n - 1))]

theorem pitchStatus_notStepEnd (i : Nat) : R.pitPitchStatus ≠ R.pitStepEnd i := by
  unfold R.pitPitchStatus R.pitStepEnd
  omega

theorem Dev.limited_stamp (d : Dev) (n : Nat) : (d.stamp n).limited = d.limited := d.gb_stamp n pitchStatus_notStepEnd

/-! ### Steps 3 to 9 (R99, R129, R134, R137, R180) -/

section
variable {d : Dev}

theorem Dev.strapsDone_pitStep (x : StrapSamples) (h : d.pitStep = 3) : (d.strapsDone x).pitStep = 4 := by
  unfold Dev.strapsDone
  rw [if_neg (not_not_intro h)]
  exact Dev.toStep_pitStep _ (by decide)

theorem Dev.reread_prev (x : StrapPass) (h : d.pit.sampled = true) : (d.reread x).pit.prev = some x := by
  unfold Dev.reread
  rw [h]
  rfl

theorem Dev.raiseLvl_grave (d : Dev) (n : Nat) : (d.raiseLvl n).fwt.grave = d.fwt.grave := rfl

theorem Dev.clearSrc_grave (d : Dev) (n : Nat) : (d.clearSrc n).fwt.grave = d.fwt.grave := rfl

/-- A PHYCAL reading leaves Firewatch's Grave latch. -/
theorem Dev.calPitch_grave (d : Dev) (r : Nat) : (d.calPitch r).fwt.grave = d.fwt.grave := by
  have hports : ∀ bad, (d.each (List.range 12) (fun d p => (d.s (F.crlPhycal_ohms p) r).sb (F.crlPhycal_out_of_range p) bad)).fwt.grave = d.fwt.grave :=
    fun bad => Dev.each_keeps (fun d => d.fwt.grave) (by intro d p; rfl) d (List.range 12)
  show (d.phycal r).fwt.grave = d.fwt.grave
  unfold Dev.phycal Dev.srcCond
  dsimp only
  split
  · exact (Dev.raiseLvl_grave _ _).trans (hports _)
  · exact (Dev.clearSrc_grave _ _).trans (hports _)

theorem Dev.stamp_fwt (d : Dev) (n : Nat) : (d.stamp n).fwt = d.fwt := by
  unfold Dev.stamp
  split <;> rfl

/-- The clocks start, and the Grave latch decides whether the ports train or the pitch is limited. -/
theorem Dev.pllLocked_due (r : Nat) (hstep : d.pitStep = 4) (hreff : d.pins.reff = true) :
    d.pllLocked r = if d.fwt.grave then (((d.stamp 4).toStep 5).calPitch r).goLimited
      else (((d.stamp 4).toStep 5).calPitch r).each (List.range 12) Dev.trainStart := by
  have hgrave : (((d.stamp 4).toStep 5).calPitch r).fwt.grave = d.fwt.grave :=
    (Dev.calPitch_grave _ r).trans (congrArg Fwt.grave (d.stamp_fwt 4))
  unfold Dev.pllLocked
  simp only [hstep, hreff, hgrave, ne_eq, not_true, decide_false, Bool.not_true, Bool.or_false, Bool.false_eq_true, if_false]

theorem Dev.storeUp_pitStep (a b : Bool) (hstep : d.pitStep = 5) (hlimited : d.limited = false) : (d.storeUp a b).pitStep = 7 := by
  unfold Dev.storeUp
  simp only [hstep, hlimited, ne_eq, not_true, decide_false, Bool.or_false, Bool.false_eq_true, if_false]
  exact Dev.toStep_pitStep _ (by decide)

/-- A failed attempt is counted, and the third limits the pitch. -/
theorem Dev.storeFails_due (hstep : d.pitStep = 5) (hlimited : d.limited = false) :
    d.storeFails = if d.g F.pitPitchStatus_store_attempts + 1 < 3 then d.s F.pitPitchStatus_store_attempts (d.g F.pitPitchStatus_store_attempts + 1)
      else (((d.s F.pitPitchStatus_store_attempts (d.g F.pitPitchStatus_store_attempts + 1)).each (List.range 12) (fun d p => d.toIdle p)).goLimited).raise 49 := by
  unfold Dev.storeFails
  simp only [hstep, hlimited, ne_eq, not_true, decide_false, Bool.or_false, Bool.false_eq_true, if_false]

theorem Dev.coldDone_due (ok : Bool) (hstep : d.pitStep = 7) (hcold : d.gb F.pitPitchStatus_warm = false) :
    d.coldDone ok = (((({ (d.whenD (d.sto.hdrLevel.isSome && !ok) (fun d => d.raise 46)).clearTables with
      sto := { (d.whenD (d.sto.hdrLevel.isSome && !ok) (fun d => d.raise 46)).clearTables.sto with sealA := none, sealB := none, snap0 := none, snap1 := none } } : Dev).ringStart
        (d.ringGood ok)).logHeader.whenD (!d.ringGood ok) (fun d => d.raise 253)).stamp 7).startLog := by
  unfold Dev.coldDone
  rw [if_neg (by simp [hstep, hcold])]

/-- A warm validation that fails turns the pitch cold with reason 8, once what it met is acted on. -/
theorem Dev.warmDone_fails {x : Seal} {r : WarmReads} (hstep : d.pitStep = 7) (hwarm : d.gb F.pitPitchStatus_warm = true) (hseal : d.sto.cur = some x)
    (hbad : d.warmGood x r = false) : d.warmDone r = (d.warmMeets r).goCold 8 := by
  unfold Dev.warmDone
  rw [if_neg (by simp [hstep, hwarm])]
  simp only [hseal, hbad, Bool.not_false, if_true]

theorem Dev.warmDone_passes {x : Seal} {r : WarmReads} (hstep : d.pitStep = 7) (hwarm : d.gb F.pitPitchStatus_warm = true) (hseal : d.sto.cur = some x)
    (hgood : d.warmGood x r = true) :
    d.warmDone r = ((((((((d.warmMeets r).setBkp 58 (setBit ((d.warmMeets r).bkp 58) 3 false)).suspendAll).holdsWarm.imageBack).twinWarm x).ringStart true).logHeader).stamp 7).startLog := by
  unfold Dev.warmDone
  rw [if_neg (by simp [hstep, hwarm])]
  simp only [hseal, hgood, Bool.not_true, Bool.false_eq_true, if_false]

/-- Step 9, where the pitch is not limited, is a stamp and no step of its own. -/
theorem Dev.configReady_due (hready : d.pit.ready = false) (hperst : d.pins.perst = false) (hrefclk : d.pins.refclk = true) (hlog : d.pit.logOpen = true)
    (hlimited : d.limited = false) :
    d.configReady = (({ d with pit := { d.pit with ready := true } } : Dev).sb F.pitPitchStatus_config_ready true).stamp 9 := by
  have hsame : (({ d with pit := { d.pit with ready := true } } : Dev).sb F.pitPitchStatus_config_ready true).limited = d.limited :=
    congrArg (fun n => n != 0) (Dev.g_s_disjoint (d := ({ d with pit := { d.pit with ready := true } } : Dev)) (b2n true) (k := F.pitPitchStatus_limited)
      (f := F.pitPitchStatus_config_ready) rfl (by decide) (by decide) (by decide) (by decide))
  unfold Dev.configReady
  rw [if_neg (by simp [hready, hperst, hrefclk, hlog])]
  simp only [hsame, hlimited, Dev.whenD, Bool.false_eq_true, if_false]

theorem Dev.joinLate_due (h : d.pitStep = 12) : d.joinLate = (d.raise 198).pitchDone true := if_pos h

end

/-- Settles O25: each step of the sequencer, taken where it is due. -/
theorem pitchStepsComplete : Obligations.PitchStepsComplete := by
  refine ⟨?_, ?_, ?_, ?_, ?_, ?_, ?_, ?_, ?_, ?_, ?_, ?_⟩
  · intro s x hp hstep
    exact ⟨chip_next hp (fun d => d.strapsDone x), Dev.strapsDone_pitStep x hstep⟩
  · intro s x hp hsampled
    exact ⟨chip_next hp (fun d => d.reread x), Dev.reread_prev x hsampled⟩
  · intro s r hp hstep hreff hgrave
    exact chip_next_of hp ((Dev.pllLocked_due r hstep hreff).trans (by rw [hgrave]; rfl))
  · intro s r hp hstep hreff hgrave
    exact chip_next_of hp ((Dev.pllLocked_due r hstep hreff).trans (if_pos hgrave))
  · intro s a b hp hstep hlimited
    exact ⟨chip_next hp (fun d => d.storeUp a b), Dev.storeUp_pitStep a b hstep hlimited⟩
  · intro s hp hstep hlimited hattempts
    exact chip_next_of hp ((Dev.storeFails_due hstep hlimited).trans (if_pos (by omega)))
  · intro s hp hstep hlimited hattempts
    exact chip_next_of hp ((Dev.storeFails_due hstep hlimited).trans (by rw [hattempts, if_neg (by decide)]))
  · intro s ok d hp hstep hcold hd
    subst hd
    exact chip_next_of hp (Dev.coldDone_due ok hstep hcold)
  · intro s r x hp hstep hwarm hseal hbad
    exact chip_next_of hp (Dev.warmDone_fails hstep hwarm hseal hbad)
  · intro s r x d hp hstep hwarm hseal hgood hd
    subst hd
    exact chip_next_of hp (Dev.warmDone_passes hstep hwarm hseal hgood)
  · intro s hp hready hperst hrefclk hlog hlimited
    exact chip_next_of hp (Dev.configReady_due hready hperst hrefclk hlog hlimited)
  · intro s hp hstep
    exact chip_next_of hp (Dev.joinLate_due hstep)

/-! ### The manager's write to block pit -/

/-- The manager's write to pit is judged by pit's own judgement. -/
theorem Dev.judgeOf_pit (d : Dev) {c : WCtx} (hblock : c.off / 0x10000 = 1) (hhalf : resHalf c.off = false) : d.judgeOf .pf c = d.judgePit c := by
  simp [Dev.judgeOf, hblock, hhalf]

/-- An operand of at most 32 bits, as the manager writes it in a 32-bit register. -/
theorem mgrWrite_setWidth_toNat {w : Nat} (off : Nat) (k : BitVec w) (hw : w ≤ 32) : (mgrWrite off (k.setWidth 32)).data.toNat = k.toNat := by
  rw [mgrWrite_data_toNat, BitVec.toNat_setWidth, Nat.mod_eq_of_lt (Nat.lt_of_lt_of_le k.isLt (Nat.pow_le_pow_right (by decide) hw))]

theorem mgrWrite_masked (off : Nat) (x : W32) : (mgrWrite off x).data.toNat &&& (mgrWrite off x).mask = x.toNat := by
  rw [mgrWrite_mask, mgrWrite_data_toNat, Nat.and_two_pow_sub_one_eq_mod, Nat.mod_eq_of_lt x.isLt]

/-! ### Block re-pitch (R145, R153, R154, R526) -/

theorem setWidth8_toNat (k : BitVec 8) : (k.setWidth 32).toNat = k.toNat := by
  rw [BitVec.toNat_setWidth]
  exact Nat.mod_eq_of_lt (by omega)

/-- The register's row: BLOCK_REPITCH is a write of pit.repitch. -/
theorem exec_blockRepitch (s : State) (k : BitVec 8) : exec (.blockRepitch .pf 15#8 k) s = regWr s .pf R.pitRepitch 15#8 (k.setWidth 32) := rfl

section
variable {d : Dev} {k : BitVec 8}

/-- The whole write of a legal block code comes to the checks of R153. -/
theorem Dev.judgeOf_repitch (hlegal : blockLegal k.toNat = true) :
    d.judgeOf .pf (mgrWrite R.pitRepitch (k.setWidth 32)) = (d.repitchCheck k.toNat).elim
      (.ok 0#64 0#64 false false (fun d =>
        (((d.sb F.pitRepitchStatus_busy true).s F.pitRepitchStatus_last_block k.toNat).setReset k.toNat (some ⟨k.toNat, 3, false, false, false⟩)).blockCloses k.toNat))
      (fun r => .badEff 0#64 (fun d => (d.s F.pitRepitchStatus_result r).s F.pitRepitchStatus_last_block k.toNat)) := by
  have hcode : (mgrWrite R.pitRepitch (k.setWidth 32)).data.toNat % 256 = k.toNat := by
    rw [mgrWrite_setWidth_toNat _ k (by decide)]
    exact Nat.mod_eq_of_lt k.isLt
  have hresv : decide (256 ≤ (mgrWrite R.pitRepitch (k.setWidth 32)).data.toNat &&& (mgrWrite R.pitRepitch (k.setWidth 32)).mask) = false := by
    rw [mgrWrite_masked, setWidth8_toNat, decide_eq_false_iff_not]
    omega
  have hwhole : woOk (mgrWrite R.pitRepitch (k.setWidth 32)).be 0xFF = true := (by decide : woOk 15 0xFF = true)
  rw [d.judgeOf_pit (c := mgrWrite R.pitRepitch (k.setWidth 32)) (show R.pitRepitch / 0x10000 = 1 by decide) (show resHalf R.pitRepitch = false by decide)]
  unfold Dev.judgePit Dev.judgeRepitch
  simp only [mgrWrite_off, hcode, hresv, hwhole, hlegal, if_true, Bool.not_true, Bool.or_false, Bool.false_eq_true, if_false]
  cases d.repitchCheck k.toNat <;> rfl

theorem Dev.judgeOf_repitch_accepted (hlegal : blockLegal k.toNat = true) (hcheck : d.repitchCheck k.toNat = none) :
    d.judgeOf .pf (mgrWrite R.pitRepitch (k.setWidth 32)) = .ok 0#64 0#64 false false (fun d =>
      (((d.sb F.pitRepitchStatus_busy true).s F.pitRepitchStatus_last_block k.toNat).setReset k.toNat (some ⟨k.toNat, 3, false, false, false⟩)).blockCloses k.toNat) :=
  (Dev.judgeOf_repitch hlegal).trans (by rw [hcheck]; rfl)

theorem Dev.judgeOf_repitch_refused {r : Nat} (hlegal : blockLegal k.toNat = true) (hcheck : d.repitchCheck k.toNat = some r) :
    d.judgeOf .pf (mgrWrite R.pitRepitch (k.setWidth 32)) =
      .badEff 0#64 (fun d => (d.s F.pitRepitchStatus_result r).s F.pitRepitchStatus_last_block k.toNat) :=
  (Dev.judgeOf_repitch hlegal).trans (by rw [hcheck]; rfl)

end

/-- The end or the limit of the drain, where it is reached, resets the block. -/
theorem Dev.resetBlock_due {d : Dev} {blk : Nat} {limit : Bool} {r : BReset} (hreset : d.resetOf blk = some r) (hstep : r.step = 3) (hdrain : d.blockEmpty blk = !limit) :
    d.resetBlock blk limit =
      ((((((d.workEnd blk 3).1.goneSynth (d.workEnd blk 3).2).nextGens blk).logEv r.org 4 (d.generation blk).toNat
        ((((d.workEnd blk 3).1.goneSynth (d.workEnd blk 3).2).nextGens blk).generation blk).toNat blk).setReset blk (some { r with step := 5, limit := limit })).restoreState blk) := by
  have hdue : (r.step ≠ 3 || (d.blockEmpty blk == limit)) = false := by
    rw [hstep, hdrain]
    cases limit <;> rfl
  unfold Dev.resetBlock
  simp only [hreset, hdue, Bool.false_eq_true, if_false]

/-- A block that no second reset waits for reopens with its record; the manager's re-pitch reports how it ended (R145, R526). -/
theorem Dev.reopenBlock_due {d : Dev} {k : BitVec 8} {r : BReset} (hreset : d.resetOf k.toNat = some r) (hstep : r.step = 5) (honce : r.again = false) :
    d.reopenBlock k.toNat = (((if r.fwt then d.setReset k.toNat none
      else ((d.setReset k.toNat none).sb F.pitRepitchStatus_busy false).s F.pitRepitchStatus_result (if r.limit then 5 else 1)).logEv r.org 9 0
        (if r.fwt then 1 else if r.limit then 5 else 1) k.toNat).portsTrain k.toNat).whenD (k = 0x30#8) Dev.applyCaptures := by
  have hlic : decide (k.toNat = 0x30) = decide (k = 0x30#8) := decide_eq_decide.2 (by rw [← BitVec.toNat_inj]; rfl)
  unfold Dev.reopenBlock
  simp only [hreset, hstep, honce, hlic, ne_eq, not_true, if_false, Bool.false_eq_true]
  cases hfwt : r.fwt <;> simp

/-- Settles O26: the write is judged by the checks of R153; a reset runs by its two steps. -/
theorem blockRepitchCompletes : Obligations.BlockRepitchCompletes := by
  refine ⟨?_, ?_, ?_, ?_, ?_, ?_⟩
  · intro s k hready hlegal hcheck
    rw [exec_blockRepitch]
    have haccepted := regWr_mgr_accepted_same hready (by decide) (by decide) (by decide) (by decide) (by decide) (Dev.judgeOf_repitch_accepted hlegal hcheck)
    exact haccepted
  · intro s k r hready hlegal hcheck
    rw [exec_blockRepitch]
    have hrefused := regWr_mgr_refusedStatus _ hready (by decide) (by decide) (by decide) (by decide) (by decide) (Dev.judgeOf_repitch_refused hlegal hcheck)
    exact hrefused
  · intro s k r hp hreset hstep hempty
    exact ⟨chip_next hp (fun d => d.resetBlock k.toNat false), Dev.resetBlock_due hreset hstep hempty⟩
  · intro s k r hp hreset hstep hbusy
    exact ⟨chip_next hp (fun d => d.resetBlock k.toNat true), Dev.resetBlock_due hreset hstep hbusy⟩
  · intro s k r hp hreset hstep hfwt honce
    exact chip_next_of hp ((Dev.reopenBlock_due hreset hstep honce).trans (by simp [hfwt]))
  · intro s k r hp hreset hstep hfwt honce
    exact chip_next_of hp ((Dev.reopenBlock_due hreset hstep honce).trans (by simp [hfwt]))

end Sys2Proof.Machine
end

section
/-! PROOFS. The step and the registers: the front command, the tick, the state after reset, the frame of a register write; the statements StepRunsFrontCommand, IdleStepTicks, ResetIsSound and RegisterWritesFrame. -/
namespace Sys2Proof.Machine

/-- Settles O1: `step` takes the front of the queue by definition. -/
theorem stepRunsFrontCommand : Obligations.StepRunsFrontCommand := by
  intro s c rest hpending
  unfold step
  rw [hpending]

/-- A tick advances the clock by one before anything else of it happens, and nothing in it sets the clock back. -/
theorem Dev.tick_now (d : Dev) : d.now + 1 ≤ d.tick.now := by
  have hkept : Kept ({ d with now := d.now + 1 } : Dev) d.tick :=
    Dev.stallTick_kept (Dev.calTick_kept (Dev.pdLeaving_kept (Dev.eventTick_kept (Dev.emberTick_kept (Kept.refl _)))))
  exact hkept.now

/-- Settles O2: the step is the tick, and what follows it never sets the clock back. -/
theorem idleStepTicks : Obligations.IdleStepTicks := by
  intro s hpending
  refine ⟨?_, (State.after_pending _ s).trans hpending, ?_⟩
  · unfold step
    rw [hpending]
    exact act_next s Dev.tick
  · rw [State.after_dev]
    exact Nat.le_trans (Dev.tick_now s.dev) (Dev.settle_kept (Kept.refl _) _).now

/-- Settles O7: the reset state is written out. -/
theorem resetIsSound : Obligations.ResetIsSound :=
  ⟨rfl, rfl, rfl, rfl, rfl, rfl, fun _ => rfl⟩

/-- A register after the write of one register. -/
theorem Dev.wr_regs_find? (d : Dev) (off x : Nat) (v : W64) : (d.wr off v).regs.find? x = if x = off then some v else d.regs.find? x := by
  rw [Dev.wr_regs]
  split
  · next h => rw [h, SMap.find?_ins_self]
  · next h => exact SMap.find?_ins_ne v h

/-- Settles O11: a register write is an insertion in the table of the registers, a field write one of a word with one field replaced. -/
theorem registerWritesFrame : Obligations.RegisterWritesFrame := by
  refine ⟨fun d off x v => ⟨d.wr_regs_find? off x v, rfl⟩, fun d f g n hf hf64 hg hg64 => ⟨?_, ?_, ?_, ?_, rfl⟩⟩
  · unfold Dev.s
    rw [Dev.wr_regs_find?, if_pos rfl]
  · exact fieldOf_setField_same _ n hf hf64
  · exact fieldOf_setField_disjoint _ n hf hf64 hg
  · intro x hx
    unfold Dev.s
    rw [Dev.wr_regs_find?, if_neg hx]

end Sys2Proof.Machine
end

section
/-! PROOFS. Ember (02): the rails and the crystal, the events; the statements EmberSupplyCommandsComplete and EmberEventsComplete. -/
namespace Sys2Proof.Machine

/-! ### The keys of a table -/

theorem SMap.mem_keys_ins {α : Type} (m : SMap α) (k j : Nat) (v : α) : j ∈ (m.ins k v).keys ↔ j = k ∨ j ∈ m.keys := by
  induction m with
  | nil => simp [SMap.ins, SMap.keys]
  | cons e t ih =>
    simp only [SMap.keys] at ih ⊢
    unfold SMap.ins
    split
    · simp
    · split
      · next heq => simp [heq]
      · simp only [List.map_cons, List.mem_cons, ih]
        exact or_left_comm

/-- The keys of a table of which part is dropped by key. -/
theorem SMap.mem_keys_filter {α : Type} (m : SMap α) (keep : Nat → Bool) (j : Nat) :
    j ∈ SMap.keys (m.filter (fun e => keep e.1)) ↔ j ∈ SMap.keys m ∧ keep j = true := by
  simp only [SMap.keys, List.mem_map, List.mem_filter]
  constructor
  · rintro ⟨e, ⟨he, hk⟩, rfl⟩
    exact ⟨⟨e, he, rfl⟩, hk⟩
  · rintro ⟨⟨e, he, rfl⟩, hk⟩
    exact ⟨e, ⟨he, hk⟩, rfl⟩

/-! ### The rails (R55, R60, R76, R78) -/

section
variable {d : Dev}

/-- The device of a fresh start, before the battery bit shows the rail. -/
theorem Dev.freshStart_keys (r : Rail) (hdead : d.embAlive = false) (off : Nat) :
    off ∈ SMap.keys (d.freshStart r).regs ↔ off = R.embStatus ∨ (off ∈ SMap.keys d.regs ∧ ¬(0x20000 ≤ off ∧ off < 0x30000)) := by
  have hkeep : off ∈ SMap.keys (d.regs.filter (fun e : Nat × W64 => !(0x20000 ≤ e.1 && e.1 < 0x30000))) ↔ off ∈ SMap.keys d.regs ∧ ¬(0x20000 ≤ off ∧ off < 0x30000) := by
    rw [SMap.mem_keys_filter d.regs (fun k => !(0x20000 ≤ k && k < 0x30000))]
    simp only [Bool.not_eq_true', Bool.and_eq_false_iff, decide_eq_false_iff_not, Decidable.not_and_iff_not_or_not]
  rw [← hkeep, ← SMap.mem_keys_ins]
  unfold Dev.freshStart
  rw [if_neg (by simp [hdead])]
  dsimp only
  split <;> rfl

theorem Dev.freshStart_emb (r : Rail) (hdead : d.embAlive = false) :
    (d.freshStart r).emb = ⟨0, 0, 0, 0, 0, false, 0#10, none, [], decide (r = .vbat), !decide (r = .vbat), decide (r = .vbat), true, false, false, false⟩ := by
  unfold Dev.freshStart
  rw [if_neg (by simp [hdead])]
  dsimp only
  split <;> rfl

theorem Dev.freshStart_holdOk (r : Rail) (hdead : d.embAlive = false) : (d.freshStart r).pins.holdOk = false := by
  unfold Dev.freshStart
  rw [if_neg (by simp [hdead])]
  dsimp only
  split <;> rfl

theorem Dev.freshStart_tally (r : Rail) (hdead : d.embAlive = false) : (d.freshStart r).tally = 0#64 := by
  unfold Dev.tally
  rw [Dev.freshStart_emb r hdead]
  simp only [Nat.zero_mul, Nat.add_zero]

/-- What the change to VBAT leaves in Ember's registers. -/
theorem Dev.toBattery_regs (d : Dev) :
    d.toBattery.emb.onVbat = true ∧ d.toBattery.gb F.embStatus_on_battery = true ∧
    d.toBattery.g F.embSwCount_count = min (d.g F.embSwCount_count + 1) (2 ^ 16 - 1) ∧
    (d.g F.embSwCount_count = 0 → d.toBattery.rd R.embSwFirstBat = d.tally) := by
  refine ⟨?_, ?_, ?_, ?_⟩
  · unfold Dev.toBattery
    dsimp only
    split <;> rfl
  · unfold Dev.toBattery
    exact Dev.gb_sb_same _ true rfl (by decide)
  · unfold Dev.toBattery Dev.sb
    rw [Dev.g_s_off _ (by decide) (by decide) (by decide), Dev.g_bump _ (by decide) (by decide)]
    dsimp only
    split
    · unfold Dev.g
      rw [Dev.rd_wr_ne _ (by decide) (by decide) (by decide)]
      rfl
    · rfl
  · intro hfirst
    unfold Dev.toBattery
    simp only [hfirst, if_true]
    unfold Dev.sb Dev.bump Dev.bumpBy Dev.s
    rw [Dev.rd_wr_ne _ (by decide) (by decide) (by decide), Dev.rd_wr_ne _ (by decide) (by decide) (by decide), Dev.rd_wr_same]
    rfl

/-- A pulse of PWRON_N changes emb.pwr only. -/
theorem Dev.rd_pwrTrigger (d : Dev) {off : Nat} (hoff : off ≠ R.embPwr) : d.pwrTrigger.rd off = d.rd off := by
  have hbump : (d.bump F.embPwr_pwron_pulses).rd off = d.rd off := Dev.rd_wr_ne _ (by decide) (by decide) hoff
  unfold Dev.pwrTrigger
  split
  · exact (Dev.rd_wr_ne _ (by decide) (by decide) hoff).trans hbump
  · split
    · exact hbump
    · rfl

theorem Dev.pwrTrigger_emb (d : Dev) : d.pwrTrigger.emb = d.emb := by
  unfold Dev.pwrTrigger
  split
  · rfl
  · split <;> rfl

/-- What the return to VMAIN_EMB leaves in Ember's registers. -/
theorem Dev.toMain_regs (d : Dev) :
    d.toMain.emb.onVbat = false ∧ d.toMain.gb F.embStatus_on_battery = false ∧ d.toMain.rd R.embSwLastMain = d.tally := by
  have hpwr (e : Dev) (b : Bool) {off : Nat} (hoff : off ≠ R.embPwr) : (e.whenD b Dev.pwrTrigger).rd off = e.rd off := Dev.whenD_rd b (e.rd_pwrTrigger hoff)
  refine ⟨?_, ?_, ?_⟩
  · unfold Dev.toMain Dev.whenD
    dsimp only
    split
    · rw [Dev.pwrTrigger_emb]
      rfl
    · rfl
  · unfold Dev.toMain
    dsimp only
    unfold Dev.gb Dev.g
    rw [hpwr _ _ (by decide)]
    exact Dev.gb_sb_same _ false rfl (by decide)
  · unfold Dev.toMain
    dsimp only
    rw [hpwr _ _ (by decide)]
    unfold Dev.sb Dev.s
    rw [Dev.rd_wr_ne _ (by decide) (by decide) (by decide), Dev.rd_wr_same]
    rfl

theorem Dev.railAbsent_vmain (hmain : d.emb.onVbat = false) (hbat : d.emb.vbat = true) :
    d.railAbsent .vmain = ({ d with emb := { d.emb with vmain := false } } : Dev).toBattery := by
  have hmoves : (!d.emb.onVbat && d.emb.vbat) = true := by rw [hmain, hbat]; rfl
  exact if_pos hmoves

theorem Dev.railAbsent_vbat (hbat : d.emb.onVbat = true) (hmain : d.emb.vmain = true) :
    d.railAbsent .vbat = ({ d with emb := { d.emb with vbat := false } } : Dev).toMain := by
  have hmoves : (d.emb.onVbat && d.emb.vmain) = true := by rw [hmain, hbat]; rfl
  exact if_pos hmoves

theorem Dev.crystalLost_first (hmain : d.pins.main = true) (hsubst : d.emb.subst = false) :
    d.crystalLost = (({ d with emb := { d.emb with xtal := false, subst := true, goodPend := false, winOk := false } } : Dev).substBits).raiseLvl 2 := by
  unfold Dev.crystalLost
  rw [if_neg (by simp [hmain])]
  simp only [hsubst, Dev.whenD, Bool.not_false, if_true]

theorem Dev.crystalLost_again (hmain : d.pins.main = true) (hsubst : d.emb.subst = true) :
    d.crystalLost = { d with emb := { d.emb with xtal := false, goodPend := false, winOk := false } } := by
  unfold Dev.crystalLost
  rw [if_neg (by simp [hmain])]
  simp [hsubst, Dev.whenD]

end

/-- Settles O19: each change of a supply, taken where it is due. -/
theorem emberSupplyCommandsComplete : Obligations.EmberSupplyCommandsComplete := by
  refine ⟨?_, ?_, ?_, ?_, ?_, ?_, ?_, ?_, ?_⟩
  · intro s hmain hsubst
    exact (act_next s Dev.crystalLost).trans (by rw [Dev.crystalLost_first hmain hsubst])
  · intro s hmain hsubst
    exact (act_next s Dev.crystalLost).trans (by rw [Dev.crystalLost_again hmain hsubst])
  · exact fun s => act_next s Dev.crystalGood
  · intro s r hmain hbat
    have hdead : s.dev.embAlive = false := by rw [Dev.embAlive, hmain, hbat]; rfl
    refine ⟨act_next s (fun d => d.freshStart r), Dev.freshStart_tally r hdead, by rw [Dev.freshStart_emb r hdead], Dev.freshStart_holdOk r hdead, fun off hlo hhi hstatus => ?_, fun off hout => ?_⟩
    · rw [Dev.freshStart_keys r hdead]
      exact fun hkey => hkey.elim hstatus (fun hkept => hkept.2 ⟨hlo, hhi⟩)
    · have hstatus : off ≠ R.embStatus := by unfold R.embStatus; omega
      rw [Dev.freshStart_keys r hdead]
      have houtside : ¬(0x20000 ≤ off ∧ off < 0x30000) := by omega
      exact ⟨fun hkey => hkey.elim (absurd · hstatus) And.left, fun hkey => .inr ⟨hkey, houtside⟩⟩
  · intro s halive hmain
    exact ⟨(act_next s Dev.switchToBat).trans (by unfold Dev.switchToBat; rw [if_neg (by simp [halive, hmain])]), s.dev.toBattery_regs⟩
  · intro s halive hbat
    exact ⟨(act_next s Dev.returnToMain).trans (by unfold Dev.returnToMain; rw [if_neg (by simp [halive, hbat])]), s.dev.toMain_regs⟩
  · exact fun s hmain hbat => (act_next s (fun d => d.railAbsent .vmain)).trans (by rw [Dev.railAbsent_vmain hmain hbat])
  · exact fun s hvbat hmain => (act_next s (fun d => d.railAbsent .vbat)).trans (by rw [Dev.railAbsent_vbat hvbat hmain])
  · intro s halive
    refine (act_next s Dev.oscStop).trans ?_
    unfold Dev.oscStop
    rw [if_neg (by simp [halive])]

/-- Settles O20: each event, taken where it is due. -/
theorem emberEventsComplete : Obligations.EmberEventsComplete := by
  refine ⟨fun s => act_next s Dev.pulseEnds, ?_, ?_, ?_⟩
  · intro s hsince hmain
    refine (act_next s Dev.switchSummary).trans ?_
    unfold Dev.switchSummary
    rw [if_pos (by simp [hsince, hmain])]
    rfl
  · intro s halive harmed hfirst
    refine (act_next s Dev.holdBroken).trans ?_
    unfold Dev.holdBroken
    rw [if_neg (by simp [halive, harmed, hfirst])]
  · intro s halive hunit hmain
    have hmain' : (s.dev.whenD (s.dev.gb F.embStatus_wake_ev) (fun d => d.bump F.embWakeOvr_count)).pins.main = true := by
      unfold Dev.whenD
      split <;> exact hmain
    refine (act_next s Dev.wakeExpires).trans ?_
    unfold Dev.wakeExpires
    rw [if_neg (by simp [halive, hunit])]
    dsimp only
    rw [Dev.sb_pins, if_pos hmain']

end Sys2Proof.Machine
end

section
/-! PROOFS. Ember (02): the clocks, their setting by the manager and the time block; the statements EmberClockCommandsComplete and TimeBlockReadsComplete. -/
namespace Sys2Proof.Machine

/-! ### A whole write that stores what is written -/

/-- Accepted with nothing reserved set: the record shows only whether the value changed. -/
theorem regWr_mgr_plain {s : State} {off : Nat} {x : W32} {old new : W64} {eff : Dev → Dev} (hready : s.dev.ready off = true) (halign : off % 4 = 0)
    (hbound : off < 2 ^ 24) (hmapped : regMapped off = true) (htoken : off ≠ R.pitResumeToken) (htime : timeIdx off = none)
    (hjudge : s.dev.judgeOf .pf (mgrWrite off x) = .ok old new false false eff) :
    regWr s .pf off 15#8 x = .next (s.after (eff (s.dev.logged (mgrWrite off x) (1024 * b2n (decide (old = new))) old new))) := by
  rw [regWr_mgr_accepted hready halign hbound hmapped htoken htime hjudge]
  simp only [b2n, Nat.mul_zero, Nat.zero_add, Bool.false_eq_true, if_false]

/-- A row that takes the whole word as it is written, without a reserved bit, stores it. -/
theorem Dev.judgeTable_stores {d : Dev} {off : Nat} {r : RegDef} {x : W32} (hrow : regAt off = some r) (hfields : r.byFields off = true)
    (hvalue : d.regWrite r.fields (d.rd off).toNat (2 ^ 32 - 1) x.toNat = some x.toNat) (hresv : resvBits r.fields (2 ^ 32 - 1) x.toNat = false) :
    d.judgeTable (mgrWrite off x) = .ok (d.rd off) (x.setWidth 64) false (exemptReg off) (fun d => d.wr off (x.setWidth 64)) := by
  rw [d.judgeTable_byFields x hrow hfields, hvalue, hresv, Option.elim_some, BitVec.ofNat_toNat]

/-- A whole write of a field that software may only leave as it is (R41). -/
theorem Dev.fieldWrite_sf_whole (d : Dev) {f : FDef} (old data : Nat) (hacc : f.acc = .sf) (hh : f.hi < 32) :
    d.fieldWrite f old (2 ^ 32 - 1) data =
      if data / 2 ^ f.lo % 2 ^ (f.hi + 1 - f.lo) = old / 2 ^ f.lo % 2 ^ (f.hi + 1 - f.lo) then some (old / 2 ^ f.lo % 2 ^ (f.hi + 1 - f.lo)) else none := by
  unfold Dev.fieldWrite
  simp only [fullMask_field hh, Nat.and_two_pow_sub_one_eq_mod, Nat.mod_mod, Nat.xor_self, Nat.and_zero, Nat.or_zero, hacc]

/-! ### emb.wctl, emb.trim and emb.wake (R67, R74, R83, R91) -/

/-- The row of emb.wctl. -/
def embWctlRow : RegDef :=
  ⟨R.embWctl, 0, 1, 0, 1, false, 0, ⟨false, false, false, false, true, true⟩, [⟨0, 0, .rw, .none, .any⟩, ⟨1, 1, .rw, .none, .any⟩, ⟨2, 2, .sf, .none, .any⟩]⟩

theorem regAt_embWctl : regAt R.embWctl = some embWctlRow := by decide

/-- A whole write of emb.wctl in calendar mode that keeps the mode stores its two control bits. -/
theorem Dev.regWrite_embWctl {d : Dev} {x : W32} (hx : x.toNat < 4) (hmode : d.g F.embWctl_mode = 0) :
    d.regWrite embWctlRow.fields (d.rd R.embWctl).toNat (2 ^ 32 - 1) x.toNat = some x.toNat := by
  have hold : (d.rd R.embWctl).toNat / 2 ^ 2 % 2 ^ (2 + 1 - 2) = 0 := hmode
  have hdata : x.toNat / 2 ^ 2 % 2 ^ (2 + 1 - 2) = 0 := by omega
  simp only [embWctlRow, Dev.regWrite, d.fieldWrite_rw_whole (f := ⟨0, 0, .rw, .none, .any⟩) _ x.toNat rfl (by decide),
    d.fieldWrite_rw_whole (f := ⟨1, 1, .rw, .none, .any⟩) _ x.toNat rfl (by decide), d.fieldWrite_sf_whole (f := ⟨2, 2, .sf, .none, .any⟩) _ x.toNat rfl (by decide),
    hold, hdata, if_true, Dev.legal, Option.some.injEq]
  omega

theorem resvBits_embWctl {x : W32} (hx : x.toNat < 4) : resvBits embWctlRow.fields (2 ^ 32 - 1) x.toNat = false := by
  have hmask : embWctlRow.fields.foldl (fun a f => a ||| f.mask) 0 = 2 ^ 3 - 1 := by decide
  rw [resvBits_whole, hmask, Nat.and_two_pow_sub_one_eq_mod, decide_eq_false_iff_not, Decidable.not_not, Nat.mod_eq_of_lt (by omega)]

/-- A write of emb.wctl that lets the wall clock run is stored, and tm_end shows that it is not halted. -/
theorem Dev.judgeOf_embWctl_runs {d : Dev} {x : W32} (heven : x.toNat % 2 = 0) (hx : x.toNat < 4) (hmode : d.g F.embWctl_mode = 0) :
    d.judgeOf .pf (mgrWrite R.embWctl x) =
      .ok (d.rd R.embWctl) (x.setWidth 64) false false (fun d => (d.wr R.embWctl (x.setWidth 64)).sb F.embTmEnd_halted false) := by
  have hexempt : exemptReg R.embWctl = false := by decide
  have hhalt : fieldOf (x.setWidth 64) 0 0 ≠ 1 := by
    have hdata : (x.setWidth 64).toNat = x.toNat := mgrWrite_data_toNat R.embWctl x
    rw [fieldOf, hdata]
    omega
  calc d.judgeOf .pf (mgrWrite R.embWctl x) = d.judgeWctl (mgrWrite R.embWctl x) := Dev.judgeOf_emb d x (by decide) (by decide)
    _ = _ := by
      unfold Dev.judgeWctl
      rw [Dev.judgeTable_stores regAt_embWctl (by decide) (Dev.regWrite_embWctl hx hmode) (resvBits_embWctl hx), hexempt]
      simp only [hhalt, decide_false, if_false, mgrWrite_off]

/-- A trim within the register that is not the reserved one is stored. -/
theorem Dev.judgeOf_embTrim_stores {d : Dev} {x : W32} (hx : x.toNat < 1024) (hlegal : x.toNat ≠ 512) :
    d.judgeOf .pf (mgrWrite R.embTrim x) = .ok (d.rd R.embTrim) (x.setWidth 64) false false (fun d => d.wr R.embTrim (x.setWidth 64)) := by
  have hvalue : d.regWrite embTrimRow.fields (d.rd R.embTrim).toNat (2 ^ 32 - 1) x.toNat = some x.toNat := by
    rw [d.regWrite_embTrim, Nat.mod_eq_of_lt hx]
  have hresv : resvBits embTrimRow.fields (2 ^ 32 - 1) x.toNat = false := by
    rw [resvBits_embTrim, decide_eq_false_iff_not]
    omega
  have hexempt : exemptReg R.embTrim = false := by decide
  have hfield : fieldOf (x.setWidth 64) 9 0 ≠ 512 := by
    have hdata : (x.setWidth 64).toNat = x.toNat := mgrWrite_data_toNat R.embTrim x
    rw [fieldOf, hdata]
    omega
  rw [Dev.judgeOf_embTrim]
  unfold Dev.judgeTrim
  rw [Dev.judgeTable_stores regAt_embTrim (by decide) hvalue hresv, hexempt]
  exact if_neg hfield

/-- A wake without a unit and without a reserved bit is stored. -/
theorem Dev.judgeOf_embWake_stores {d : Dev} {x : W32} (hunit : x.toNat % 8 = 0) (hx : x.toNat < 2 ^ 28) (hgap : x.toNat / 16 % 2 ^ 12 = 0) :
    d.judgeOf .pf (mgrWrite R.embWake x) = .ok (d.rd R.embWake) (x.setWidth 64) false false (fun d => d.wr R.embWake (x.setWidth 64)) := by
  have hvalue : d.regWrite embWakeRow.fields (d.rd R.embWake).toNat (2 ^ 32 - 1) x.toNat = some x.toNat := by
    rw [d.regWrite_embWake, if_pos (by omega), Option.some.injEq]
    omega
  have hresv : resvBits embWakeRow.fields (2 ^ 32 - 1) x.toNat = false := by
    rw [resvBits_embWake, decide_eq_false_iff_not]
    omega
  have hexempt : exemptReg R.embWake = false := by decide
  have hfield : fieldOf (x.setWidth 64) 2 0 = 0 := by
    have hdata : (x.setWidth 64).toNat = x.toNat := mgrWrite_data_toNat R.embWake x
    rw [fieldOf, hdata]
    omega
  rw [Dev.judgeOf_embWake]
  unfold Dev.judgeWake
  rw [Dev.judgeTable_stores regAt_embWake (by decide) hvalue hresv, hexempt]
  simp only [hfield, ne_eq, not_true, decide_false, Bool.false_and, Bool.false_eq_true, if_false]

/-! ### Daylight saving (R69, R70) -/

/-- A daylight-saving command while the clock runs and none is pending is set pending, with no record yet. -/
theorem Dev.judgeOf_embDst {d : Dev} {x : W32} (hcmd : x = 1#32 ∨ x = 2#32) (hpending : d.gb F.embDst_pending = false) :
    d.judgeOf .pf (mgrWrite R.embDst x) = .ok (setField (d.rd R.embDst) 1 0 0) (setField (d.rd R.embDst) 1 0 0) false true (fun d =>
      if !d.swRoom 1 then d.holdRefuse else if d.halted then d.dstApply (decide (x.toNat = 1)) d.wallWord else (d.s F.embDst_cmd x.toNat).sb F.embDst_pending true) := by
  calc d.judgeOf .pf (mgrWrite R.embDst x) = d.judgeDst (mgrWrite R.embDst x) := Dev.judgeOf_emb d x (by decide) (by decide)
    _ = _ := by
      have hwhole : woOk (mgrWrite R.embDst x).be 3 = true := (by decide : woOk 15 3 = true)
      unfold Dev.judgeDst
      rcases hcmd with rfl | rfl <;> simp [hwhole, hpending]

theorem regWr_embDst {s : State} {x : W32} (hcmd : x = 1#32 ∨ x = 2#32) (hready : s.dev.ready R.embDst = true) (hruns : s.dev.halted = false)
    (hpending : s.dev.gb F.embDst_pending = false) :
    regWr s .pf R.embDst 15#8 x = .next (s.after ((s.dev.s F.embDst_cmd x.toNat).sb F.embDst_pending true)) := by
  simp only [Dev.ready, Bool.and_eq_true] at hready
  obtain ⟨hreach, hroom⟩ := hready
  rw [regWr_mgr_exempt hreach (by decide) (by decide) (by decide) (by decide) (by decide) (Dev.judgeOf_embDst hcmd hpending)]
  simp only [hroom, hruns, Bool.not_true, Bool.false_eq_true, if_false]

/-! ### A write of the wall clock (R66, R71) -/

/-- The row of tm_cal_time. -/
def embTmCalTimeRow : RegDef :=
  ⟨R.embTmCalTime, 0, 1, 0, 1, false, 0x6000000, ⟨false, false, false, false, true, false⟩,
    [⟨5, 0, .rw, .none, .range 0 59⟩, ⟨13, 8, .rw, .none, .range 0 59⟩, ⟨20, 16, .rw, .none, .range 0 23⟩, ⟨26, 24, .rw, .none, .range 1 7⟩]⟩

theorem regAt_embTmCalTime : regAt R.embTmCalTime = some embTmCalTimeRow := by decide

/-- A time of day within its ranges passes the fields. -/
theorem Dev.regWrite_embTmCalTime (d : Dev) (old : Nat) {x : W32} (hsec : x.toNat % 64 ≤ 59) (hmin : x.toNat / 2 ^ 8 % 64 ≤ 59) (hhour : x.toNat / 2 ^ 16 % 32 ≤ 23)
    (hdow : x.toNat / 2 ^ 24 % 8 ≠ 0) : ∃ v, d.regWrite embTmCalTimeRow.fields old (2 ^ 32 - 1) x.toNat = some v := by
  have hdow' : 1 ≤ x.toNat / 2 ^ 24 % 8 ∧ x.toNat / 2 ^ 24 % 8 ≤ 7 := by omega
  simp only [embTmCalTimeRow, Dev.regWrite, d.fieldWrite_rw_whole (f := ⟨5, 0, .rw, .none, .range 0 59⟩) old x.toNat rfl (by decide),
    d.fieldWrite_rw_whole (f := ⟨13, 8, .rw, .none, .range 0 59⟩) old x.toNat rfl (by decide),
    d.fieldWrite_rw_whole (f := ⟨20, 16, .rw, .none, .range 0 23⟩) old x.toNat rfl (by decide),
    d.fieldWrite_rw_whole (f := ⟨26, 24, .rw, .none, .range 1 7⟩) old x.toNat rfl (by decide)]
  simp only [Nat.reducePow] at hmin hhour hdow'
  simp [Dev.legal, hsec, hmin, hhour, hdow']

/-- In calendar mode a legal time of day is accepted; it crosses to Ember and is logged when it takes effect. -/
theorem Dev.judgeOf_embTmCalTime (d : Dev) {x : W32} (hmode : d.binMode = false) (hsec : x.toNat % 64 ≤ 59) (hmin : x.toNat / 2 ^ 8 % 64 ≤ 59)
    (hhour : x.toNat / 2 ^ 16 % 32 ≤ 23) (hdow : x.toNat / 2 ^ 24 % 8 ≠ 0) :
    ∃ old new rs, d.judgeOf .pf (mgrWrite R.embTmCalTime x) = .ok old new rs true (fun d =>
      if !d.swRoom 1 then d.holdRefuse
      else { d.wallApply false with emb := { (d.wallApply false).emb with wall := some ⟨.calTime, 15#8, x.setWidth 64⟩ } }) := by
  obtain ⟨v, hv⟩ := d.regWrite_embTmCalTime (d.rd R.embTmCalTime).toNat hsec hmin hhour hdow
  refine ⟨d.rd R.embTmCalTime, BitVec.ofNat 64 v, resvBits embTmCalTimeRow.fields (2 ^ 32 - 1) x.toNat, ?_⟩
  have hrow : d.judgeRow embTmCalTimeRow (mgrWrite R.embTmCalTime x) (d.rd R.embTmCalTime) (fun v d => d.wr R.embTmCalTime v) =
      .ok (d.rd R.embTmCalTime) (BitVec.ofNat 64 v) (resvBits embTmCalTimeRow.fields (2 ^ 32 - 1) x.toNat) false (fun d => d.wr R.embTmCalTime (BitVec.ofNat 64 v)) := by
    unfold Dev.judgeRow
    simp only [mgrWrite_mask, mgrWrite_data_toNat, hv]
    rfl
  calc d.judgeOf .pf (mgrWrite R.embTmCalTime x) = d.judgeWall .calTime 15#8 (mgrWrite R.embTmCalTime x) := Dev.judgeOf_emb d x (by decide) (by decide)
    _ = _ := by
      unfold Dev.judgeWall
      simp only [mgrWrite_off, regAt_embTmCalTime, hrow, hmode]
      rfl

/-- The manager's legal write of the time of day waits for Ember; it has ended the host's freeze (R66, R71). -/
theorem regWr_embTmCalTime {s : State} {x : W32} (hready : s.dev.ready R.embTmCalTime = true) (hmode : s.dev.binMode = false) (hwall : s.dev.emb.wall = none)
    (hsec : x.toNat % 64 ≤ 59) (hmin : x.toNat / 2 ^ 8 % 64 ≤ 59) (hhour : x.toNat / 2 ^ 16 % 32 ≤ 23) (hdow : x.toNat / 2 ^ 24 % 8 ≠ 0) :
    regWr s .pf R.embTmCalTime 15#8 x = .next (s.after { s.dev with emb := { (s.dev.endFreeze 0).emb with wall := some ⟨.calTime, 15#8, x.setWidth 64⟩ } }) := by
  simp only [Dev.ready, Bool.and_eq_true] at hready
  obtain ⟨hreach, hroom⟩ := hready
  have hfreeze : s.dev.unfrozen R.embTmCalTime = s.dev.endFreeze 0 := if_pos (by decide)
  have hroom' : (s.dev.endFreeze 0).swRoom 1 = true := hroom
  have hnone : (s.dev.endFreeze 0).wallApply false = s.dev.endFreeze 0 := by
    unfold Dev.wallApply
    have : (s.dev.endFreeze 0).emb.wall = none := hwall
    rw [this]
  obtain ⟨old, new, rs, hjudge⟩ := (s.dev.endFreeze 0).judgeOf_embTmCalTime (x := x) hmode hsec hmin hhour hdow
  rw [regWr_mgr x hreach (by decide) (by decide) (by decide) (by decide), hfreeze, hjudge, Dev.commitS_ok hroom']
  simp only [if_true, hroom', Bool.not_true, Bool.false_eq_true, if_false, hnone]
  rfl

/-! ### The clocks themselves (R57, R65, R75) -/

theorem Dev.secondBoundary_tally {d : Dev} (hcounts : d.embCounts = true) : d.secondBoundary .tally = ({ d with emb := { d.emb with tallyPre := 0 } } : Dev).tallyBoundary := by
  unfold Dev.secondBoundary
  rw [if_neg (by simp [hcounts])]
  rfl

theorem Dev.secondBoundary_wall {d : Dev} (hcounts : d.embCounts = true) (hruns : d.halted = false) :
    d.secondBoundary .wall = ({ d with emb := { d.emb with wallPre := 0 } } : Dev).wallBoundary := by
  unfold Dev.secondBoundary
  simp [hcounts, hruns]

theorem Dev.trimWindow_measured {d : Dev} (offset : Nat) (hcounts : d.embCounts = true) (hwin : d.emb.winOk = true) (hmain : d.pins.main = true)
    (hreff : d.pins.reff = true) (hxtal : d.emb.xtal = true) :
    d.trimWindow offset = ((d.s F.embXtalMeas_offset offset).sb F.embXtalMeas_valid true).windowRoll := by
  unfold Dev.trimWindow Dev.windowEnd
  rw [if_neg (by simp [hcounts])]
  simp only [hwin, hmain, hreff, hxtal, Bool.and_true, Dev.whenD, if_true]

/-- Settles O21: the clocks by their boundaries, the settings by their judgements. -/
theorem emberClockCommandsComplete : Obligations.EmberClockCommandsComplete := by
  refine ⟨?_, ?_, ?_, ?_, ?_, ?_, ?_, ?_, ?_, ?_⟩
  · exact fun s hcounts => (act_next s (fun d => d.secondBoundary .tally)).trans (by rw [Dev.secondBoundary_tally hcounts]; rfl)
  · exact fun s hcounts hruns => (act_next s (fun d => d.secondBoundary .wall)).trans (by rw [Dev.secondBoundary_wall hcounts hruns])
  · exact fun s x hready hmode hwall hsec hmin hhour hdow => regWr_embTmCalTime hready hmode hwall hsec hmin hhour hdow
  · exact fun s b w _ => act_next s (fun d => d.wallApply b)
  · intro s x hready heven hx hmode
    have hstored := regWr_mgr_plain hready (by decide) (by decide) (by decide) (by decide) (by decide) (Dev.judgeOf_embWctl_runs heven hx hmode)
    exact hstored
  · exact fun s hready hruns hpending => regWr_embDst (.inl rfl) hready hruns hpending
  · exact fun s hready hruns hpending => regWr_embDst (.inr rfl) hready hruns hpending
  · intro s x hready hx hlegal
    have hstored := regWr_mgr_plain hready (by decide) (by decide) (by decide) (by decide) (by decide) (Dev.judgeOf_embTrim_stores hx hlegal)
    exact hstored
  · exact fun s o hcounts hwin hmain hreff hxtal =>
      (act_next s (fun d => d.trimWindow o.toNat)).trans (by rw [Dev.trimWindow_measured o.toNat hcounts hwin hmain hreff hxtal])
  · intro s x hready hunit hx hgap
    have hstored := regWr_mgr_plain hready (by decide) (by decide) (by decide) (by decide) (by decide) (Dev.judgeOf_embWake_stores hunit hx hgap)
    exact hstored

/-! ### The time block (R71 to R73) -/

/-- The registers of the time block: word i of it, in Ember's domain, no register of another kind of read. -/
theorem timeBlock_offsets : ∀ i : Fin 8, timeIdx (R.embTmTallyLo + 4 * i.val) = some i.val ∧ regDomain (R.embTmTallyLo + 4 * i.val) = 0 ∧
    ¬ (R.clgRdRec 0 ≤ R.embTmTallyLo + 4 * i.val) ∧ idxIn (R.embTmTallyLo + 4 * i.val) (R.licClaim 0) 8 16 = none ∧
    (regCover (R.embTmTallyLo + 4 * i.val)).isNone = false ∧ R.embTmTallyLo + 4 * i.val < 0x40000 := by decide

section
variable {s : State} {d : Dev}

theorem Dev.powerOf_timeBlock (d : Dev) (i : Fin 8) : d.powerOf (R.embTmTallyLo + 4 * i.val) = d.powerOf R.embTmTallyLo := by
  obtain ⟨-, hdomain, -⟩ := timeBlock_offsets i
  unfold Dev.powerOf
  rw [hdomain]
  rfl

theorem Dev.readWaits_timeBlock (i : Fin 8) (hpower : d.powerOf R.embTmTallyLo = .on) : d.readWaits (R.embTmTallyLo + 4 * i.val) = false := by
  obtain ⟨-, -, hrec, -⟩ := timeBlock_offsets i
  unfold Dev.readWaits Dev.recBusy
  rw [d.powerOf_timeBlock i, hpower, decide_eq_false hrec]
  rfl

/-- A read of word i of the time block by the host answers with the low half of what the reader's freeze gives. -/
theorem timeBlk_host (i : Fin 8) (hreach : s.dev.reaches R.embTmTallyLo = true) :
    timeBlk s .pf i.val = .next (s.after ((s.dev.timeRead 0 i.val).1.emit
      (.rdata 0 (bytesLE 4 (BitVec.ofNat 64 ((s.dev.timeRead 0 i.val).2.toNat % 2 ^ 32)).toNat) false))) := by
  obtain ⟨hhost, hmem, hwatch, hpower⟩ := Dev.reaches_host hreach
  obtain ⟨hidx, hdomain, -⟩ := timeBlock_offsets i
  have hread : s.dev.readBy .pf (R.embTmTallyLo + 4 * i.val) = s.dev.hostRead (R.embTmTallyLo + 4 * i.val) false := by
    unfold Dev.readBy
    rw [Dev.readWaits_timeBlock i hpower]
    simp
  have hanswer : s.dev.hostRead (R.embTmTallyLo + 4 * i.val) false = (s.dev.timeRead 0 i.val).1.emit
      (.rdata 0 (bytesLE 4 (BitVec.ofNat 64 ((s.dev.timeRead 0 i.val).2.toNat % 2 ^ 32)).toNat) false) := by
    unfold Dev.hostRead Dev.readEff
    simp [hmem, hdomain, s.dev.powerOf_timeBlock i, hpower, hidx]
  exact (actIf_next (c := s.dev.partyHere .pf) hhost (fun d => d.readBy .pf (R.embTmTallyLo + 4 * i.val))).trans (by rw [hread, hanswer])

/-- A read of word i of the time block by a local design does to its own freeze what the read gives. -/
theorem timeBlk_local (p : LPort) (c : Option (Fin 16)) (i : Fin 8) (hp : s.dev.powered = true) (hopen : s.dev.portOpen (8 + p.val) = true)
    (hpower : s.dev.powerOf R.embTmTallyLo = .on) : timeBlk s (.lp p c) i.val = .next (s.after (s.dev.timeRead (1 + p.val) i.val).1) := by
  obtain ⟨hidx, -, -, hclaim, hcover, hlow⟩ := timeBlock_offsets i
  have hview : viewOf p.val (R.embTmTallyLo + 4 * i.val) = 1 := if_pos hlow
  have hread : s.dev.readBy (.lp p c) (R.embTmTallyLo + 4 * i.val) = (s.dev.timeRead (1 + p.val) i.val).1 := by
    unfold Dev.readBy Dev.localPeek Dev.readEff
    simp only [Dev.readWaits_timeBlock i hpower, hview, hcover, hclaim, hidx, s.dev.powerOf_timeBlock i, hpower, Bool.and_false, Bool.false_and, Bool.or_false,
      Nat.one_ne_zero, decide_false, Bool.false_eq_true, if_false]
  have hhere : s.dev.partyHere (.lp p c) = true := by simp only [Dev.partyHere, hp, hopen, Bool.and_self]
  exact (actIf_next hhere (fun d => d.readBy (.lp p c) (R.embTmTallyLo + 4 * i.val))).trans (by rw [hread])

theorem Dev.frzWord_of {r i : Nat} {f : Frz} (hfrz : d.emb.frz.find? r = some f) : d.frzWord r i = nth f.snap i 0#32 := by
  unfold Dev.frzWord
  rw [hfrz]

theorem Dev.frozen_same {r : Nat} {f : Frz} (hfrz : d.emb.frz.find? r = some f) : d.frozen r false = d := by
  unfold Dev.frozen
  rw [hfrz]
  rfl

theorem Dev.frozen_captures {r : Nat} (hfrz : d.emb.frz.find? r = none) : d.frozen r false = d.capture8 r false := by
  unfold Dev.frozen
  rw [hfrz]
  rfl

theorem Dev.frozen_byLo (r : Nat) : d.frozen r true = d.capture8 r true := by
  unfold Dev.frozen
  simp

theorem Dev.capture8_frz (r : Nat) (byLo : Bool) : (d.capture8 r byLo).emb.frz.find? r = some ⟨d.timeBlock, byLo⟩ := SMap.find?_ins_self _ _ _

/-- A word of the time block but tm_end: the snapshot at hand stays, and the low half of what is read is its word. -/
theorem Dev.timeRead_word {e : Dev} {r i : Nat} {f : Frz} (hend : i ≠ 7) (hfrozen : d.frozen r (i = 0) = e) (hfrz : e.emb.frz.find? r = some f) :
    (d.timeRead r i).1 = e ∧ (BitVec.ofNat 64 ((d.timeRead r i).2.toNat % 2 ^ 32)).toNat = (nth f.snap i 0#32).toNat := by
  have hlow (w : W32) (n : Nat) : (BitVec.ofNat 64 ((BitVec.ofNat 64 (w.toNat + n * 2 ^ 32)).toNat % 2 ^ 32)).toNat = w.toNat := by
    have hw := w.isLt
    simp only [BitVec.toNat_ofNat]
    omega
  unfold Dev.timeRead
  simp only [hfrozen, Dev.frzWord_of hfrz, if_neg hend]
  split
  · exact ⟨rfl, hlow _ _⟩
  · refine ⟨rfl, ?_⟩
    have hzero := hlow (nth f.snap i 0#32) 0
    rwa [Nat.zero_mul, Nat.add_zero, BitVec.ofNat_toNat] at hzero

/-- tm_end ends the freeze and says whether tm_tally_lo began it. -/
theorem Dev.timeRead_end {r : Nat} {f : Frz} (hfrz : d.emb.frz.find? r = some f) :
    d.timeRead r 7 = (d.endFreeze r, BitVec.ofNat 64 ((nth f.snap 7 0#32).toNat + 8 * b2n f.byLo)) := by
  unfold Dev.timeRead
  simp only [show decide (7 = 0) = false from rfl, Dev.frozen_same hfrz, Dev.frzWord_of hfrz, hfrz]
  rfl

end

/-- Settles O22: every read of the block is a read of its word through the reader's freeze. -/
theorem timeBlockReadsComplete : Obligations.TimeBlockReadsComplete := by
  refine ⟨?_, ?_, ?_, ?_, ?_, ?_, ?_, ?_, ?_⟩
  · intro s hreach
    obtain ⟨hdev, hword⟩ := Dev.timeRead_word (d := s.dev) (r := 0) (i := 0) (by decide) (Dev.frozen_byLo 0) (Dev.capture8_frz 0 true)
    exact (timeBlk_host 0 hreach).trans (by rw [Fin.val_zero, hdev, hword])
  · intro s i f hreach hlo hend hfrz
    obtain ⟨hdev, hword⟩ := Dev.timeRead_word hend ((congrArg (s.dev.frozen 0) (decide_eq_false hlo)).trans (Dev.frozen_same hfrz)) hfrz
    exact (timeBlk_host i hreach).trans (by rw [hdev, hword])
  · intro s i hreach hlo hend hfrz
    obtain ⟨hdev, hword⟩ := Dev.timeRead_word hend ((congrArg (s.dev.frozen 0) (decide_eq_false hlo)).trans (Dev.frozen_captures hfrz)) (Dev.capture8_frz 0 false)
    exact (timeBlk_host i hreach).trans (by rw [hdev, hword])
  · intro s f hreach hfrz
    have hword : (BitVec.ofNat 64 ((BitVec.ofNat 64 ((nth f.snap 7 0#32).toNat + 8 * b2n f.byLo)).toNat % 2 ^ 32)).toNat = ((nth f.snap 7 0#32).toNat + 8 * b2n f.byLo) % 2 ^ 32 := by
      simp only [BitVec.toNat_ofNat]
      omega
    exact (timeBlk_host 7 hreach).trans (by rw [show ((7 : Fin 8) : Nat) = 7 from rfl, Dev.timeRead_end hfrz, hword])
  · intro s p c hp hopen hpower
    obtain ⟨hdev, -⟩ := Dev.timeRead_word (d := s.dev) (r := 1 + p.val) (i := 0) (by decide) (Dev.frozen_byLo _) (Dev.capture8_frz _ true)
    exact (timeBlk_local p c 0 hp hopen hpower).trans (by rw [Fin.val_zero, hdev])
  · intro s p c i hp hopen hpower hlo hend
    refine ⟨fun hfrz => ?_, fun hfrz => ?_⟩
    · obtain ⟨hdev, -⟩ := Dev.timeRead_word hend ((congrArg (s.dev.frozen (1 + p.val)) (decide_eq_false hlo)).trans (Dev.frozen_captures hfrz)) (Dev.capture8_frz _ false)
      exact (timeBlk_local p c i hp hopen hpower).trans (by rw [hdev])
    · obtain ⟨f, hf⟩ := Option.isSome_iff_exists.1 hfrz
      obtain ⟨hdev, -⟩ := Dev.timeRead_word hend ((congrArg (s.dev.frozen (1 + p.val)) (decide_eq_false hlo)).trans (Dev.frozen_same hf)) hf
      exact (timeBlk_local p c i hp hopen hpower).trans (by rw [hdev])
  · intro s p c hp hopen hpower hfrz
    obtain ⟨f, hf⟩ := Option.isSome_iff_exists.1 hfrz
    exact (timeBlk_local p c 7 hp hopen hpower).trans (by rw [show ((7 : Fin 8) : Nat) = 7 from rfl, Dev.timeRead_end hf])
  · exact fun s x => ⟨rfl, rfl⟩
  · intro s r f hfrz
    refine (act_next s (fun d => d.freezeLapses r.val)).trans ?_
    unfold Dev.freezeLapses
    rw [hfrz]
    rfl

end Sys2Proof.Machine
end

section
/-! PROOFS. Pins, supplies and measurements (19) and the Store (05): the statements PinCommandsComplete and StoreCommandsComplete. -/
namespace Sys2Proof.Machine

/-- A command without a condition, by what its operation does. -/
theorem act_next_of {s : State} {f : Dev → Dev} {e : Dev} (he : f s.dev = e) : act s f = .next (s.after e) :=
  (act_next s f).trans (by rw [he])

section
variable {d : Dev}

theorem Dev.powered_main (hp : d.powered = true) : d.pins.main = true := by
  simp only [Dev.powered, Bool.and_eq_true] at hp
  exact hp.1

/-! ### Reference clocks (R34, R151) -/

theorem Dev.refclkGone_due (hp : d.powered = true) (href : d.pins.refclk = true) :
    d.refclkGone = ((({ d with pins := { d.pins with refclk := false } } : Dev)).whenD d.hst.dlUp Dev.linkDown208).raiseLvl 0 := by
  unfold Dev.refclkGone
  rw [if_neg (by simp [hp, href])]

theorem Dev.reffGone_service (hp : d.powered = true) (href : d.pins.reff = true) (hphase : d.bvc.phase = BvcPhase.none) :
    d.reffGone = (((({ d with pins := { d.pins with reff := false }, emb := { d.emb with winOk := false } } : Dev)).substBits).raiseLvl 1).storePark := by
  have hdrain : ¬ (((({ d with pins := { d.pins with reff := false }, emb := { d.emb with winOk := false } } : Dev)).substBits).raiseLvl 1).bvc.phase = BvcPhase.drain := by
    show ¬ d.bvc.phase = BvcPhase.drain
    rw [hphase]
    decide
  unfold Dev.reffGone
  rw [if_neg (by simp [hp, href])]
  exact if_neg hdrain

/-! ### Main power (R125, R660, R663) -/

theorem Dev.railsGood_pitStep (hoff : d.pins.main = false) : d.railsGood.pitStep = 3 := by
  unfold Dev.railsGood
  rw [if_neg (by simp [hoff])]
  exact Dev.toStep_pitStep _ (by decide)

/-- A field of an Ember register is stored in Ember's part of the table. -/
theorem Dev.substBits_keys {e : Dev} (hkeys : ∀ off ∈ SMap.keys e.regs, 0x20000 ≤ off ∧ off < 0x30000) : ∀ off ∈ SMap.keys e.substBits.regs, 0x20000 ≤ off ∧ off < 0x30000 := by
  intro off hoff
  have hstatus : 0x20000 ≤ R.embStatus ∧ R.embStatus < 0x30000 := by decide
  rcases (SMap.mem_keys_ins _ R.embStatus off _).1 hoff with rfl | hoff'
  · exact hstatus
  · rcases (SMap.mem_keys_ins e.regs R.embStatus off _).1 hoff' with rfl | hin
    · exact hstatus
    · exact hkeys off hin

/-- A pitch start keeps the registers of Ember and no other. -/
theorem Dev.pitchClear_keys (off : Nat) (hoff : off ∈ SMap.keys d.pitchClear.regs) : 0x20000 ≤ off ∧ off < 0x30000 := by
  have hkept := ((SMap.mem_keys_filter d.regs (fun k => 0x20000 ≤ k && k < 0x30000) off).1 hoff).2
  simpa using hkept

/-- The device at the loss of main power, before the Store's contents are judged (R660). -/
def Dev.watchLost (d : Dev) : Dev :=
  ({ d.pitchClear with fwt := Dev.reset.fwt, pd := Dev.reset.pd, clg := { d.pitchClear.clg with watch := [], missed := 0 },
                       pins := { d.pitchClear.pins with main := false },
                       emb := { d.pitchClear.emb with subst := false, goodPend := false, winOk := false, frz := [], wall := none } } : Dev).substBits

/-- The loss of main power, by whether HOLD_OK keeps the Store (R663). -/
theorem Dev.powerLost_due (hmain : d.pins.main = true) :
    d.powerLost = if d.pins.holdOk then d.watchLost else { d.watchLost with sto := { d.watchLost.sto with held := false, live := false } } := by
  unfold Dev.powerLost
  rw [if_neg (by simp [hmain])]
  rfl

theorem Dev.powerLost_main (hmain : d.pins.main = true) : d.powerLost.pins.main = false := by
  rw [Dev.powerLost_due hmain]
  split <;> rfl

theorem Dev.powerLost_regs (hmain : d.pins.main = true) : d.powerLost.regs = d.watchLost.regs := by
  rw [Dev.powerLost_due hmain]
  split <;> rfl

theorem Dev.powerLost_live (hmain : d.pins.main = true) (hhold : d.pins.holdOk = false) : d.powerLost.sto.live = false := by
  rw [Dev.powerLost_due hmain, if_neg (by simp [hhold])]

/-! ### PERST_N (R126, R149) -/

/-- PERST_N newly low with main power on and no Bivouac running. -/
theorem Dev.perstLow_new (hhigh : d.pins.perst = false) (hmain : d.pins.main = true) (hphase : d.bvc.phase = BvcPhase.none) :
    ¬ (d.pins.perst || !d.pins.main || decide (d.bvc.phase ≠ BvcPhase.none)) = true := by
  simp [hhigh, hmain, hphase]

theorem Dev.perstLow_pitch (hhigh : d.pins.perst = false) (hmain : d.pins.main = true) (hphase : d.bvc.phase = BvcPhase.none) (hlimited : d.limited = false)
    (hpitch : d.complete = false) : d.perstLow = ({ d with pins := { d.pins with perst := true } } : Dev).hostPortReset := by
  have hfull : ¬ d.limited = true := by simp [hlimited]
  have hruns : (!d.complete) = true := by simp [hpitch]
  exact (if_neg (Dev.perstLow_new hhigh hmain hphase)).trans ((if_neg hfull).trans (if_pos hruns))

theorem Dev.perstLow_service {e : Dev} (he : e = { d with pins := { d.pins with perst := true } }) (hhigh : d.pins.perst = false) (hmain : d.pins.main = true)
    (hphase : d.bvc.phase = BvcPhase.none) (hlimited : d.limited = false) (hservice : d.complete = true) (hseal : e.sealBarred = false) :
    d.perstLow = (({ e with hst := { e.hst with dlUp := false } } : Dev).sb F.hstStatus_dl_up false).bvcStart 2 := by
  subst he
  have hfull : ¬ d.limited = true := by simp [hlimited]
  have hruns : ¬ (!d.complete) = true := by simp [hservice]
  have hsealed : ¬ ({ d with pins := { d.pins with perst := true } } : Dev).sealBarred = true := by rw [hseal]; decide
  exact (if_neg (Dev.perstLow_new hhigh hmain hphase)).trans ((if_neg hfull).trans ((if_neg hruns).trans (if_neg hsealed)))

/-! ### The rails (R656, R685) -/

theorem genRail_ne {j k : Nat} (h : k ≠ j) : R.genRail k ≠ R.genRail j ∧ R.genRail j ≠ R.genSizeCfg ∧ R.genRail j ≠ R.genNodeCfg := by
  unfold R.genRail R.genSizeCfg R.genNodeCfg
  omega

/-- The reading of another rail leaves a rail's register. -/
theorem Dev.railRead_rd_ne (d : Dev) (mv : Nat) {j k : Nat} (h : k ≠ j) : (d.railRead j mv).rd (R.genRail k) = d.rd (R.genRail k) := by
  obtain ⟨hne, hsize, hnode⟩ := genRail_ne h
  exact (Dev.rd_wr_ne _ hsize hnode hne).trans (Dev.rd_wr_ne _ hsize hnode hne)

/-- A rail's register after its own reading. -/
theorem Dev.railRead_same (d : Dev) (k : Nat) {mv : Nat} (hmv : mv < 8192) :
    (d.railRead k mv).g (F.genRail_mv k) = mv ∧ (d.railRead k mv).gb (F.genRail_out_of_tol k) = railOut k mv := by
  constructor
  · calc (d.railRead k mv).g (F.genRail_mv k) = (d.s (F.genRail_mv k) mv).g (F.genRail_mv k) :=
          Dev.g_s_disjoint (f := F.genRail_out_of_tol k) (k := F.genRail_mv k) _ rfl (Nat.le_refl 16) (show 16 < 64 by decide) (Nat.zero_le 12) (.inl (show 12 < 16 by decide))
      _ = mv % 2 ^ 13 := Dev.g_s_same d mv (f := F.genRail_mv k) (Nat.zero_le 12) (show 12 < 64 by decide)
      _ = mv := Nat.mod_eq_of_lt hmv
  · exact Dev.gb_sb_same _ _ rfl (show 16 < 64 by decide)

/-- The readings of a list of rails leave the register of a rail that is not among them. -/
theorem Dev.railReads_rd_ne (xs : List (Nat × Nat)) (k : Nat) (d : Dev) (h : ∀ e ∈ xs, k ≠ e.1) :
    (d.each xs (fun d e => d.railRead e.1 (e.2 % 8192))).rd (R.genRail k) = d.rd (R.genRail k) := by
  unfold Dev.each
  induction xs generalizing d with
  | nil => rfl
  | cons e t ih =>
    rw [List.foldl_cons, ih _ (fun x hx => h x (List.mem_cons_of_mem e hx))]
    exact Dev.railRead_rd_ne d _ (h e (List.mem_cons_self ..))

/-- Each rail read in ascending order: what its register holds at the end. -/
theorem Dev.railReads_same (mv : List Nat) (lo k : Nat) (d : Dev) (hlo : lo ≤ k) (hk : k < lo + mv.length) (hmv : ∀ x ∈ mv, x < 8192) :
    (d.each (List.zip (List.range' lo mv.length) mv) (fun d e => d.railRead e.1 (e.2 % 8192))).g (F.genRail_mv k) = nth mv (k - lo) 0 ∧
    (d.each (List.zip (List.range' lo mv.length) mv) (fun d e => d.railRead e.1 (e.2 % 8192))).gb (F.genRail_out_of_tol k) = railOut k (nth mv (k - lo) 0) := by
  induction mv generalizing lo d with
  | nil => simp only [List.length_nil, Nat.add_zero] at hk; omega
  | cons m t ih =>
    rw [List.length_cons, List.range'_succ, List.zip_cons_cons]
    have hfirst : ∀ (e : Dev), Dev.each d ((lo, m) :: List.zip (List.range' (lo + 1) t.length) t) (fun d e => d.railRead e.1 (e.2 % 8192)) =
        (d.railRead lo (m % 8192)).each (List.zip (List.range' (lo + 1) t.length) t) (fun d e => d.railRead e.1 (e.2 % 8192)) := fun _ => rfl
    rw [hfirst d]
    by_cases hkey : k = lo
    · have hm : m < 8192 := hmv m (List.mem_cons_self ..)
      have hkeep : ((d.railRead lo (m % 8192)).each (List.zip (List.range' (lo + 1) t.length) t) (fun d e => d.railRead e.1 (e.2 % 8192))).rd (R.genRail k) =
          (d.railRead lo (m % 8192)).rd (R.genRail k) := by
        refine Dev.railReads_rd_ne _ k _ (fun e he => ?_)
        have hmem := (List.of_mem_zip (a := e.1) (b := e.2) he).1
        rw [List.mem_range'_1] at hmem
        omega
      obtain ⟨hvalue, hout⟩ := Dev.railRead_same d lo hm
      rw [Nat.mod_eq_of_lt hm] at hkeep ⊢
      subst hkey
      rw [Nat.sub_self]
      exact ⟨(congrArg (fun w => fieldOf w 12 0) hkeep).trans hvalue, (congrArg (fun w => fieldOf w 16 16 != 0) hkeep).trans hout⟩
    · have hrest := ih (lo + 1) (d.railRead lo (m % 8192)) (by omega) (by simp only [List.length_cons] at hk; omega) (fun x hx => hmv x (List.mem_cons_of_mem m hx))
      have hindex : nth (m :: t) (k - lo) 0 = nth t (k - (lo + 1)) 0 := by
        rw [show k - lo = (k - (lo + 1)) + 1 by omega]
        rfl
      rw [hindex]
      exact hrest

theorem Dev.each_rd {α : Type} {f : Dev → α → Dev} {off : Nat} (hf : ∀ d x, (f d x).rd off = d.rd off) (d : Dev) (l : List α) : (d.each l f).rd off = d.rd off :=
  Dev.each_keeps (fun d => d.rd off) hf d l

/-- The sources raised or cleared by a reading of the rails leave the registers. -/
theorem Dev.railsRead_rd (hmain : d.pins.main = true) (mv : List Nat) (off : Nat) :
    (d.railsRead mv).rd off = (d.each (List.zip (List.range 7) mv) (fun d e => d.railRead e.1 (e.2 % 8192))).rd off := by
  unfold Dev.railsRead
  rw [if_neg (by simp [hmain])]
  exact (Dev.srcCond_rd ..).trans (Dev.each_rd (fun _ _ => Dev.srcCond_rd ..) _ _)

theorem Dev.railsRead_rail (hmain : d.pins.main = true) {mv : List Nat} (hlen : mv.length = 7) (hmv : ∀ x ∈ mv, x < 8192) {k : Nat} (hk : k < 7) :
    (d.railsRead mv).g (F.genRail_mv k) = nth mv k 0 ∧ (d.railsRead mv).gb (F.genRail_out_of_tol k) = railOut k (nth mv k 0) := by
  have hreads := Dev.railReads_same mv 0 k d (Nat.zero_le k) (by omega) hmv
  rw [hlen, ← List.range_eq_range', Nat.sub_zero] at hreads
  have hkeep := Dev.railsRead_rd hmain mv (R.genRail k)
  exact ⟨(congrArg (fun w => fieldOf w 12 0) hkeep).trans hreads.1, (congrArg (fun w => fieldOf w 16 16 != 0) hkeep).trans hreads.2⟩

/-! ### VBAT and the temperatures (R671, R684) -/

theorem Dev.vbatRead_due (hmain : d.pins.main = true) (mv : Nat) :
    d.vbatRead mv = (if 1800 ≤ mv then ({ ((d.s (F.genRail_mv 7) mv).sb (F.genRail_out_of_tol 7) (mv < 2200)) with emb := { d.emb with vbat := true } } : Dev)
      else (d.s (F.genRail_mv 7) mv).sb (F.genRail_out_of_tol 7) (mv < 2200)).srcCond 22 (mv < 2200) := by
  unfold Dev.vbatRead
  rw [if_neg (by simp [hmain])]
  rfl

theorem Dev.tempSrc_rd (d : Dev) (n : Nat) (on off x : Int) (r : Nat) : (d.tempSrc n on off x).rd r = d.rd r := by
  unfold Dev.tempSrc
  split
  · rfl
  · split <;> rfl

/-- The device once a temperature reading is stored and its highest value is acted on. -/
def Dev.tempTop (d : Dev) (temps : List Int) (first : Bool) : Dev := match d.hottest temps with
  | none => d
  | some h => (((d.s F.genTempMax_temp ((if first then h else max (signedOf 12 (d.g F.genTempMax_temp)) h) % 4096).toNat).tempSrc 23 880 840 h).tempSrc 24 1000 960 h).tempSrc 25 1080 1040 h

/-- A temperature reading while main power is on. -/
theorem Dev.tempsRead_due (hmain : d.pins.main = true) (temps : List Int) :
    d.tempsRead temps = if ((d.tempStore temps).tempTop temps (!d.gb (F.genTemp_valid 0))).gb (F.genTemp_excluded 7) then
        ((d.tempStore temps).tempTop temps (!d.gb (F.genTemp_valid 0))).sb F.stoStatus_hot true
      else if 840 < nth temps 7 0 then (((d.tempStore temps).tempTop temps (!d.gb (F.genTemp_valid 0))).sb F.stoStatus_hot (680 < nth temps 7 0)).raiseLvl 50
      else if nth temps 7 0 < 800 then (((d.tempStore temps).tempTop temps (!d.gb (F.genTemp_valid 0))).sb F.stoStatus_hot (680 < nth temps 7 0)).clearSrc 50
      else ((d.tempStore temps).tempTop temps (!d.gb (F.genTemp_valid 0))).sb F.stoStatus_hot (680 < nth temps 7 0) := by
  unfold Dev.tempsRead
  rw [if_neg (by simp [hmain])]
  rfl

/-- The highest reading and its sources leave every other register. -/
theorem Dev.tempTop_rd (d : Dev) (temps : List Int) (first : Bool) {off : Nat} (hoff : off ≠ R.genTempMax) : (d.tempTop temps first).rd off = d.rd off := by
  unfold Dev.tempTop
  split
  · rfl
  · rw [Dev.tempSrc_rd, Dev.tempSrc_rd, Dev.tempSrc_rd]
    exact Dev.rd_wr_ne _ (by decide) (by decide) hoff

/-- The Store's hot bit follows its sensor, while the sensor counts. -/
theorem Dev.tempsRead_hot (hmain : d.pins.main = true) (temps : List Int) (hcounts : (d.tempStore temps).gb (F.genTemp_excluded 7) = false) :
    (d.tempsRead temps).gb F.stoStatus_hot = decide (680 < nth temps 7 0) := by
  have hkeep (first : Bool) : ((d.tempStore temps).tempTop temps first).gb (F.genTemp_excluded 7) = (d.tempStore temps).gb (F.genTemp_excluded 7) := by
    unfold Dev.gb Dev.g
    rw [Dev.tempTop_rd _ _ _ (show (F.genTemp_excluded 7).off ≠ R.genTempMax by decide)]
  have hstored (e : Dev) : (e.sb F.stoStatus_hot (decide (680 < nth temps 7 0))).gb F.stoStatus_hot = decide (680 < nth temps 7 0) :=
    Dev.gb_sb_same _ _ rfl (by decide)
  rw [Dev.tempsRead_due hmain, hkeep, hcounts, if_neg Bool.false_ne_true]
  split
  · exact hstored _
  · split
    · exact hstored _
    · exact hstored _

end

/-- Settles O23: each pin, supply or measurement, taken where it is due. -/
theorem pinCommandsComplete : Obligations.PinCommandsComplete := by
  refine ⟨?_, ?_, ?_, ?_, ?_, ?_, ?_, ?_, ?_, ?_, ?_, ?_, ?_, ?_, ?_⟩
  · exact fun s hp href => (act_next s Dev.refclkGone).trans (by rw [Dev.refclkGone_due hp href])
  · exact fun s hp => act_next_of (f := Dev.refclkBack) (if_pos hp)
  · exact fun s hp href hphase => (act_next s Dev.reffGone).trans (by rw [Dev.reffGone_service hp href hphase])
  · exact fun s hp => act_next_of (f := Dev.reffBack) (if_pos hp)
  · exact fun s hoff => ⟨act_next s Dev.railsGood, Dev.railsGood_pitStep hoff⟩
  · intro s hmain
    refine ⟨act_next s Dev.powerLost, Dev.powerLost_main hmain, ?_, Dev.powerLost_live hmain⟩
    rw [Dev.powerLost_regs hmain]
    exact Dev.substBits_keys Dev.pitchClear_keys
  · exact fun s hhigh hmain hphase hlimited hpitch => (act_next s Dev.perstLow).trans (by rw [Dev.perstLow_pitch hhigh hmain hphase hlimited hpitch])
  · exact fun s d hd hhigh hmain hphase hlimited hservice hseal =>
      (act_next s Dev.perstLow).trans (by rw [Dev.perstLow_service hd hhigh hmain hphase hlimited hservice hseal])
  · exact fun s => act_next s Dev.perstHigh
  · intro s mv hp hlen hmv
    exact ⟨chip_next hp (fun d => d.railsRead mv), fun k hk => Dev.railsRead_rail (Dev.powered_main hp) hlen hmv hk⟩
  · intro s mv hp hmv
    refine chip_next_of hp ((Dev.vbatRead_due (Dev.powered_main hp) mv).trans ?_)
    rw [if_neg (by omega), decide_eq_true (show mv < 2200 by omega)]
    rfl
  · intro s mv hp hlo hhi
    refine chip_next_of hp ((Dev.vbatRead_due (Dev.powered_main hp) mv).trans ?_)
    rw [if_pos hlo, decide_eq_true hhi]
    rfl
  · intro s mv hp hlo hhi
    refine chip_next_of hp ((Dev.vbatRead_due (Dev.powered_main hp) mv).trans ?_)
    rw [if_pos (by omega), decide_eq_false (show ¬ mv < 2200 by omega)]
    rfl
  · exact fun s t hp => ⟨chip_next hp (fun d => d.tempsRead t), Dev.tempsRead_hot (Dev.powered_main hp) t⟩
  · exact fun s hp => chip_next_of hp (if_pos (Dev.powered_main hp))

/-! ### The Store (R168, R180, R187, R190) -/

section
variable {d : Dev}

/-- The scrub reads its unit, moves to the next and reports the range and the pass. -/
theorem Dev.scrub_due (x : UnitRead) {n : Nat} {e : Dev} (hn : n = (d.sto.scrubPos + 1) % stoUnits) (he : e = (d.unitRead (64 * d.sto.scrubPos) x).stoMove 6 64)
    (hon : d.gb F.stoStatus_scrub_on = true) :
    d.scrub x = (({ e with sto := { e.sto with scrubPos := n } } : Dev).whenD (n / 0x100000 ≠ d.sto.scrubPos / 0x100000)
      (fun d => d.s F.stoScrubStatus_progress (n / 0x100000))).whenD (n = 0) (fun d => d.bump F.stoScrubStatus_passes) := by
  subst hn he
  unfold Dev.scrub Dev.whenD
  rw [if_neg (by simp [hon])]
  by_cases hrange : (d.sto.scrubPos + 1) % stoUnits / 0x100000 = d.sto.scrubPos / 0x100000
  · simp only [hrange, if_true, ne_eq, not_true, decide_false, Bool.false_eq_true, if_false, decide_eq_true_eq]
  · simp only [hrange, if_false, ne_eq, not_false_eq_true, decide_true, if_true, decide_eq_true_eq]

/-- The row of sto.dbg_ctl. -/
def stoDbgCtlRow : RegDef :=
  ⟨R.stoDbgCtl, 0, 1, 0, 1, false, 0, ⟨true, false, false, false, false, false⟩, [⟨0, 0, .w1s, .none, .any⟩, ⟨1, 1, .ro, .none, .any⟩, ⟨2, 2, .ro, .none, .any⟩]⟩

theorem regAt_stoDbgCtl : regAt R.stoDbgCtl = some stoDbgCtlRow := by decide

/-- Go written where none runs starts a read of the unit that dbg_addr names. -/
theorem Dev.judgeOf_stoDbgCtl (hidle : d.rd R.stoDbgCtl = 0#64) :
    d.judgeOf .pf (mgrWrite R.stoDbgCtl 1#32) = .ok 0#64 1#64 false true (fun d =>
      { (d.wr R.stoDbgCtl 1#64).sb F.stoDbgCtl_busy true with sto := { d.sto with dbgAt := (d.rd R.stoDbgAddr).toNat / 64 * 64 } }) := by
  have hvalue : d.regWrite stoDbgCtlRow.fields 0 (2 ^ 32 - 1) 1 = some 1 := rfl
  have hresv : resvBits stoDbgCtlRow.fields (2 ^ 32 - 1) 1 = false := by decide
  calc d.judgeOf .pf (mgrWrite R.stoDbgCtl 1#32) = d.judgeDbg (mgrWrite R.stoDbgCtl 1#32) := rfl
    _ = _ := by
      unfold Dev.judgeDbg Dev.judgeRow
      simp only [mgrWrite_off, regAt_stoDbgCtl, mgrWrite_mask, mgrWrite_data_toNat, hidle]
      rfl

theorem Dev.dbgDone_laidOut {ws : List W64} (p : Bool) (hbusy : d.gb F.stoDbgCtl_busy = true) (hwords : d.unitWords d.sto.dbgAt = some ws) :
    d.dbgDone p = (((((List.zip (List.range 8) ws).foldl (fun (d : Dev) e => d.wr (R.stoDbgData e.1) e.2) d).sb F.stoDbgCtl_go false).sb F.stoDbgCtl_busy false).sb F.stoDbgCtl_poison
        (p || ((List.zip (List.range 8) ws).foldl (fun (d : Dev) e => d.wr (R.stoDbgData e.1) e.2) d).knownBad d.sto.dbgAt)).stoMove 7 64 := by
  unfold Dev.dbgDone
  rw [if_neg (by simp [hbusy])]
  simp only [hwords]

theorem Dev.dbgDone_free {e : Dev} (p : Bool) (hbusy : d.gb F.stoDbgCtl_busy = true) (hwords : d.unitWords d.sto.dbgAt = none)
    (he : e = (List.zip (List.range 8) (d.takeFrees 8).1).foldl (fun (d : Dev) e => d.wr (R.stoDbgData e.1) e.2) (d.takeFrees 8).2) :
    d.dbgDone p = (((e.sb F.stoDbgCtl_go false).sb F.stoDbgCtl_busy false).sb F.stoDbgCtl_poison (p || e.knownBad d.sto.dbgAt)).stoMove 7 64 := by
  subst he
  unfold Dev.dbgDone
  rw [if_neg (by simp [hbusy])]
  simp only [hwords]

end

/-- Settles O27: the scrub, the diagnostic read and the loss of a channel, each taken where it is due. -/
theorem storeCommandsComplete : Obligations.StoreCommandsComplete := by
  refine ⟨?_, ?_, ?_, ?_, ?_⟩
  · exact fun s x n d hn hd hp hon => chip_next_of hp (Dev.scrub_due x hn hd hon)
  · rintro s _ hready hidle rfl
    simp only [Dev.ready, Bool.and_eq_true] at hready
    have hstarted := regWr_mgr_exempt hready.1 (by decide) (by decide) (by decide) (by decide) (by decide) (Dev.judgeOf_stoDbgCtl hidle)
    exact hstarted
  · exact fun s p ws hp hbusy hwords => chip_next_of hp (Dev.dbgDone_laidOut p hbusy hwords)
  · exact fun s p d hp hbusy hwords hd => chip_next_of hp (Dev.dbgDone_free p hbusy hwords hd)
  · exact fun s hp hready => chip_next_of hp (if_pos hready)

end Sys2Proof.Machine
end

section
/-! PROOFS. The physical layer (06): training, lock and measurement; the statements TrainingCommandsComplete and LockAndMeasurementCommandsComplete. -/
namespace Sys2Proof.Machine

/-! ### crl.phy_status (R218) -/

section
variable (d : Dev) (p : Nat)

theorem Dev.phyState_s_state {n : Nat} (hn : n < 8) : (d.s (F.crlPhyStatus_state p) n).phyState p = n :=
  (Dev.g_s_same d n (f := F.crlPhyStatus_state p) (Nat.zero_le 2) (show 2 < 64 by decide)).trans (Nat.mod_eq_of_lt hn)

/-- Another field of crl.phy_status leaves the state. -/
theorem Dev.phyState_s_status {f : Fld} (n : Nat) (hoff : f.off = R.crlPhyStatus p) (hlo : 2 < f.lo) (hl : f.lo ≤ f.hi) (hh : f.hi < 64) :
    (d.s f n).phyState p = d.phyState p :=
  Dev.g_s_disjoint (k := F.crlPhyStatus_state p) n hoff.symm hl hh (Nat.zero_le 2) (.inl hlo)

/-- A field of another register leaves the state. -/
theorem Dev.phyState_s_other {f : Fld} (n : Nat) (hoff : R.crlPhyStatus p ≠ f.off) (hsize : f.off ≠ R.genSizeCfg) (hnode : f.off ≠ R.genNodeCfg) :
    (d.s f n).phyState p = d.phyState p :=
  Dev.g_s_off (k := F.crlPhyStatus_state p) n hsize hnode hoff

theorem crlPhyCfg_ne : R.crlPhyStatus p ≠ R.crlPhyCfg p ∧ R.crlPhyCfg p ≠ R.genSizeCfg ∧ R.crlPhyCfg p ≠ R.genNodeCfg := by
  unfold R.crlPhyStatus R.crlPhyCfg R.genSizeCfg R.genNodeCfg
  omega

theorem crlLaneStatus_ne {l : Nat} (hl : l < 8) :
    R.crlPhyStatus p ≠ R.crlLaneStatus p l ∧ R.crlLaneStatus p l ≠ R.genSizeCfg ∧ R.crlLaneStatus p l ≠ R.genNodeCfg := by
  unfold R.crlPhyStatus R.crlLaneStatus R.genSizeCfg R.genNodeCfg
  omega

/-- Frames sent leave every register. -/
theorem Dev.sendFrame_rd (count off : Nat) : (d.sendFrame p count).rd off = d.rd off := by
  show (Dev.each _ _ _).rd off = d.rd off
  exact Dev.each_rd (by intro e k; rfl) d _

theorem Dev.sendFrames_rd (off : Nat) : (d.sendFrames p).rd off = d.rd off := by
  unfold Dev.sendFrames
  split
  · exact d.sendFrame_rd p 0 off
  · rfl

theorem Dev.sendFrames_phyState : (d.sendFrames p).phyState p = d.phyState p :=
  congrArg (fun w => fieldOf w 2 0) (d.sendFrames_rd p (R.crlPhyStatus p))

/-- An attempt starts in Sync. -/
theorem Dev.attempt_phyState : (d.attempt p).phyState p = 1 := by
  obtain ⟨hcfg, hsize, hnode⟩ := crlPhyCfg_ne p
  unfold Dev.attempt
  dsimp only
  rw [Dev.sendFrames_phyState]
  unfold Dev.sb
  rw [Dev.phyState_s_other _ _ _ hcfg hsize hnode,
    Dev.phyState_s_status (f := F.crlPhyStatus_fec_on p) _ _ _ rfl (show 2 < 9 by decide) (Nat.le_refl 9) (show 9 < 64 by decide),
    Dev.phyState_s_status (f := F.crlPhyStatus_reversed p) _ _ _ rfl (show 2 < 8 by decide) (Nat.le_refl 8) (show 8 < 64 by decide),
    Dev.phyState_s_status (f := F.crlPhyStatus_width p) _ _ _ rfl (show 2 < 4 by decide) (show 4 ≤ 7 by decide) (show 7 < 64 by decide),
    Dev.phyState_s_status (f := F.crlPhyStatus_lock p) _ _ _ rfl (show 2 < 3 by decide) (Nat.le_refl 3) (show 3 < 64 by decide),
    Dev.phyState_s_state _ _ (by decide)]

end

/-! ### Training (R200 to R204) -/

section
variable {d : Dev} {p : Nat}

theorem Dev.trainStart_due (hidle : d.phyState p = 0) (hwait : (d.phy p).idle = false) (hmay : d.mayTrain p = true) : d.trainStart p = d.attempt p :=
  if_pos (by simp [hidle, hwait, hmay])

/-- A frame counts in Sync to Switch on a lane of the port. -/
theorem Dev.frame_counts {l : Nat} (hlo : 1 ≤ d.phyState p) (hhi : d.phyState p ≤ 5) (hl : l < lanesOf p) :
    (decide (d.phyState p = 0) || decide (5 < d.phyState p) || decide (lanesOf p ≤ l)) = false := by
  simp only [Bool.or_eq_false_iff, decide_eq_false_iff_not]
  omega

theorem Dev.frame_bad {l : Nat} {f : BitVec 256} (hlo : 1 ≤ d.phyState p) (hhi : d.phyState p ≤ 5) (hl : l < lanesOf p) (hbad : goodFrame f = none) :
    d.frame p l f = d.setLaneT p l { d.laneT p l with run := 0, sameRun := 0 } := by
  unfold Dev.frame
  simp only [Dev.frame_counts hlo hhi hl, hbad, Bool.false_eq_true, if_false]

/-- A good frame from Config on is recorded, and this end's frames go out. -/
theorem Dev.frame_config {l : Nat} {f g : BitVec 256} {inv : Bool} (hlo : 4 ≤ d.phyState p) (hhi : d.phyState p ≤ 5) (hl : l < lanesOf p)
    (hgood : goodFrame f = some (g, inv)) : d.frame p l f = (d.setLaneT p l ((d.laneT p l).take g inv d.now)).sendFrames p := by
  have hlate : decide (d.phyState p ≤ 2) = false := decide_eq_false (by omega)
  have hsync : d.phyState p ≠ 1 := by omega
  have hequal : d.phyState p ≠ 3 := by omega
  unfold Dev.frame
  simp only [Dev.frame_counts (by omega) hhi hl, hgood, hlate, hsync, hequal, Dev.whenD, Bool.false_and, Bool.false_eq_true, if_false]

/-- A good frame in Sync or Deskew reports its lane synced after eight in a row, and ends Sync where a lane is synced at both ends. -/
theorem Dev.frame_sync {l : Nat} {f g : BitVec 256} {inv : Bool} {e x : Dev} (hstate : d.phyState p = 1 ∨ d.phyState p = 2) (hl : l < lanesOf p)
    (hgood : goodFrame f = some (g, inv)) (he : e = d.setLaneT p l ((d.laneT p l).take g inv d.now))
    (hx : x = e.whenD (8 ≤ (e.laneT p l).run) (fun d => (d.sb (F.crlLaneStatus_synced p l) true).sb (F.crlLaneStatus_inverted p l) inv)) :
    d.frame p l f = (x.whenD (decide (d.phyState p = 1) && x.syncDone p) (fun d => d.s (F.crlPhyStatus_state p) 2)).sendFrames p := by
  subst he hx
  have hearly : decide (d.phyState p ≤ 2) = true := decide_eq_true (by omega)
  have hequal : d.phyState p ≠ 3 := by omega
  unfold Dev.frame
  simp only [Dev.frame_counts (d := d) (p := p) (by omega) (by omega) hl, hgood, hearly, hequal, Bool.true_and, Bool.false_eq_true, if_false]
  rcases hstate with h | h
  · simp only [h, if_true, decide_true, Bool.true_and]
  · simp only [h, show ¬ (2 = 1) by decide, if_false, decide_false, Bool.false_and]
    rfl

/-- A good frame in Equalise answers the partner's tap requests, and ends Equalise where both ends hold. -/
theorem Dev.frame_equalise {l : Nat} {f g : BitVec 256} {inv : Bool} {e x : Dev} (hstate : d.phyState p = 3) (hl : l < lanesOf p)
    (hgood : goodFrame f = some (g, inv)) (he : e = d.setLaneT p l ((d.laneT p l).take g inv d.now))
    (hx : x = (e.steer p (e.laneT p l).lane (frameFld g 55 54) (frameFld g 57 56)).adapt p l) :
    d.frame p l f = (x.whenD (x.equalised p) (fun d => d.s (F.crlPhyStatus_state p) 4)).sendFrames p := by
  subst he hx
  have hcounts : (decide (3 = 0) || decide (5 < 3) || decide (lanesOf p ≤ l)) = false := by
    have := Dev.frame_counts (d := d) (p := p) (l := l) (by omega) (by omega) hl
    rwa [hstate] at this
  unfold Dev.frame
  simp only [hstate, hcounts, hgood, show decide (3 ≤ 2) = false from rfl, show ¬ (3 = 1) by decide, Dev.whenD, Bool.false_and, Bool.false_eq_true, if_false, if_true]

theorem Dev.stepTimeout_due (hstate : d.phyState p = 1 ∨ d.phyState p = 3 ∨ d.phyState p = 6) : d.stepTimeout p = d.trainFail p :=
  if_pos (by simp only [Bool.or_eq_true, decide_eq_true_eq]; omega)

theorem Dev.trainIdleEnd_due (hidle : d.phyState p = 0) (hwait : (d.phy p).idle = true) :
    d.trainIdleEnd p = (d.setPhy p { d.phy p with idle := false }).trainStart p :=
  if_pos (by simp [hidle, hwait])

/-- The end of Deskew, where a width exists, is Equalise. -/
theorem Dev.deskewed_phyState {w : Nat} (hstate : d.phyState p = 2) (hmatch : d.mismatch p = false) (hwidth : d.widthOf p = some w) : (d.deskewed p).phyState p = 3 := by
  unfold Dev.deskewed
  simp only [hstate, hmatch, hwidth, ne_eq, not_true, Bool.false_eq_true, if_false]
  rw [Dev.sendFrames_phyState, Dev.phyState_s_state _ _ (by decide)]

theorem Dev.deskewed_fails (hstate : d.phyState p = 2) (hmatch : d.mismatch p = false) (hwidth : d.widthOf p = none) : d.deskewed p = d.trainFail p := by
  unfold Dev.deskewed
  simp only [hstate, hmatch, hwidth, ne_eq, not_true, Bool.false_eq_true, if_false]

/-- The end of Config, where rate and kind agree and the partner has reached it, is Switch. -/
theorem Dev.configured_phyState (hstate : d.phyState p = 4) (hmatch : d.mismatch p = false) (hheard : d.configHeard p = true) : (d.configured p).phyState p = 5 := by
  have hframes (e : Dev) : (e.each (List.range 16) (fun d i => d.sendFrame p (15 - i))).phyState p = e.phyState p :=
    congrArg (fun w => fieldOf w 2 0) (Dev.each_rd (off := R.crlPhyStatus p) (fun d i => d.sendFrame_rd p (15 - i) _) e _)
  have hraise (e : Dev) (b : Bool) : (e.whenD b (fun d => d.raise (97 + 4 * p))).phyState p = e.phyState p := by cases b <;> rfl
  unfold Dev.configured
  simp only [hstate, hmatch, hheard, ne_eq, not_true, Bool.not_true, Bool.or_self, Bool.false_eq_true, if_false]
  rw [hframes, hraise, Dev.phyState_s_state _ _ (by decide)]

theorem Dev.configured_fails (hstate : d.phyState p = 4) (hfails : d.mismatch p = true ∨ d.configHeard p = false) : d.configured p = d.trainFail p := by
  have hbad : (d.mismatch p || !d.configHeard p) = true := by rcases hfails with h | h <;> simp [h]
  unfold Dev.configured
  simp only [hstate, hbad, ne_eq, not_true, if_false, if_true]

end

/-- Settles O28: each command of the training, in the state in which it is due. -/
theorem trainingCommandsComplete : Obligations.TrainingCommandsComplete := by
  refine ⟨?_, ?_, ?_, ?_, ?_, ?_, ?_, ?_, ?_, ?_, ?_, ?_, ?_⟩
  · exact fun s p hp hidle hwait hmay => ⟨chip_next_of hp (Dev.trainStart_due hidle hwait hmay), s.dev.attempt_phyState p.val⟩
  · exact fun s p l f hp hlo hhi hl hbad => chip_next_of hp (Dev.frame_bad hlo hhi hl hbad)
  · exact fun s p l f g inv hp hlo hhi hl hgood => chip_next_of hp (Dev.frame_config hlo hhi hl hgood)
  · exact fun s p l f g inv d e hp hstate hl hgood hd he => chip_next_of hp (Dev.frame_sync hstate hl hgood hd he)
  · exact fun s p l f g inv d e hp hstate hl hgood hd he => chip_next_of hp (Dev.frame_equalise hstate hl hgood hd he)
  · exact fun s p hp hstate => chip_next_of hp (Dev.stepTimeout_due hstate)
  · exact fun s p hp hidle hwait => chip_next_of hp (Dev.trainIdleEnd_due hidle hwait)
  · exact fun s p w hp hstate hmatch hwidth => ⟨chip_next hp (fun d => d.deskewed p.val), Dev.deskewed_phyState hstate hmatch hwidth⟩
  · exact fun s p hp hstate hmatch hwidth => chip_next_of hp (Dev.deskewed_fails hstate hmatch hwidth)
  · exact fun s p hp hstate hmatch hheard => ⟨chip_next hp (fun d => d.configured p.val), Dev.configured_phyState hstate hmatch hheard⟩
  · exact fun s p hp hstate hfails => chip_next_of hp (Dev.configured_fails hstate hfails)
  · exact fun s p hp hstate => chip_next_of hp (if_neg (not_not_intro hstate))
  · exact fun s p hp hstate => chip_next_of hp (if_neg (not_not_intro hstate))

end Sys2Proof.Machine
end

section
/-! PROOFS. The change log (16): the registers that a record leaves as they are. -/
namespace Sys2Proof.Machine

/-- The registers that the logging of a record may change: those of the change log and of the LIC, the Store's byte counters, fwt.log_missed. -/
def loggedReg (off : Nat) : Bool :=
  decide (0x30000 ≤ off ∧ off < 0x40000) || decide (0x80000 ≤ off ∧ off < 0xC0000) || decide (0xC0280 ≤ off ∧ off < 0xC0300) || decide (off = R.fwtLogMissed)

section
variable {off : Nat} (d : Dev) (hoff : loggedReg off = false)
include hoff

/-- A register that a record leaves reads the same after the write of one that it may change. -/
theorem Dev.rd_wr_logged {o : Nat} (v : W64) (ho : loggedReg o = true) : (d.wr o v).rd off = d.rd off :=
  Dev.rd_wr_ne v (fun h => by rw [h] at ho; exact absurd ho (by decide)) (fun h => by rw [h] at ho; exact absurd ho (by decide))
    (fun h => by rw [h, ho] at hoff; exact absurd hoff (by decide))

theorem Dev.setPend_rd_logged {n : Nat} (hn : licNumber n = true) (b : Bool) : (d.setPend n b).rd off = d.rd off := by
  have hlic : loggedReg (R.licPendSet 0 + 4 * (n / 32) - 4) = true := by
    simp only [licNumber, Bool.and_eq_true, Bool.or_eq_true, decide_eq_true_eq] at hn
    unfold loggedReg R.licPendSet
    simp only [Bool.or_eq_true, decide_eq_true_eq]
    omega
  exact d.rd_wr_logged hoff _ hlic

theorem Dev.licPulse_rd_logged (n : Nat) : (d.licPulse n).rd off = d.rd off := by
  unfold Dev.licPulse
  split
  · rfl
  · next hn =>
    split
    · rfl
    · exact d.setPend_rd_logged hoff (by simpa using hn) true

omit hoff in
theorem Dev.touch_rd (lo hi : Nat) : (d.touch lo hi).rd off = d.rd off := by
  unfold Dev.touch
  dsimp only
  split <;> rfl

omit hoff in
theorem Dev.enqueue_rd (e id : Nat) (q : QEnt) : (d.enqueue e id q).rd off = d.rd off := by
  have hset (x : Egress) : ((d.touch 34 41).setEgress e x).rd off = d.rd off := d.touch_rd 34 41
  unfold Dev.enqueue
  dsimp only
  split
  · exact hset _
  · split
    · exact hset _
    · exact hset _

omit hoff in
theorem Dev.fireVec_rd (fn vec : Nat) : (d.fireVec fn vec).rd off = d.rd off := by
  unfold Dev.fireVec
  split
  · rfl
  · split
    · rfl
    · exact Dev.enqueue_rd _ _ _ _

theorem Dev.attention_rd_logged : d.attention.rd off = d.rd off := by
  have hpulse : ((d.sb F.clgStatus_attn true).licPulse 556).rd off = d.rd off :=
    (Dev.licPulse_rd_logged _ hoff 556).trans (d.rd_wr_logged hoff _ (by decide))
  unfold Dev.attention
  split
  · rfl
  · exact (Dev.whenD_rd _ (Dev.fireVec_rd _ _ _)).trans hpulse

theorem Dev.missRec_rd_logged (r : Rec) : (d.missRec r).rd off = d.rd off := by
  have hcount : (if r.org = hwFwt then d.bump F.fwtLogMissed_count else d.bump F.clgMissed_count).rd off = d.rd off := by
    split
    · exact d.rd_wr_logged hoff _ (by decide)
    · exact d.rd_wr_logged hoff _ (by decide)
  unfold Dev.missRec
  refine (Dev.attention_rd_logged _ hoff).trans ((Dev.whenD_rd _ rfl).trans ?_)
  exact (Dev.rd_wr_logged _ hoff _ (by decide)).trans hcount

theorem Dev.stoMove_rd_logged {c : Nat} (hc : c < 8) (n : Nat) : (d.stoMove c n).rd off = d.rd off := by
  refine d.rd_wr_logged hoff _ ?_
  unfold loggedReg R.stoBwBytes
  simp only [Bool.or_eq_true, decide_eq_true_eq]
  omega

theorem Dev.logHeader_rd_logged : d.logHeader.rd off = d.rd off :=
  (Dev.stoMove_rd_logged _ hoff (by decide) 64).trans rfl

theorem Dev.logDropTail_rd_logged : d.logDropTail.rd off = d.rd off := by
  unfold Dev.logDropTail
  exact (Dev.rd_wr_logged (d.wr R.clgTail (d.rd R.clgTail + 1)) hoff _ (by decide)).trans (d.rd_wr_logged hoff _ (by decide))

theorem Dev.ringWrite_rd_logged (r : Rec) : (d.ringWrite r).rd off = d.rd off := by
  have hdrop : (if (!d.clgHold && decide (d.clgN ≤ d.clgHeld)) = true then d.logDropTail.bump F.clgWrapped_count else d).rd off = d.rd off := by
    split
    · exact (Dev.rd_wr_logged _ hoff _ (by decide)).trans (d.logDropTail_rd_logged hoff)
    · rfl
  unfold Dev.ringWrite
  dsimp only
  rw [Dev.clgLevels_rd, Dev.logHeader_rd_logged _ hoff, Dev.whenD_rd _ (Dev.attention_rd_logged _ hoff), Dev.shadowRec_rd, Dev.stoMove_rd_logged _ hoff (by decide),
    Dev.rd_setClg]
  exact (Dev.rd_wr_logged _ hoff _ (by decide)).trans ((Dev.rd_wr_logged _ hoff _ (by decide)).trans hdrop)

theorem Dev.stageRec_rd_logged (r : Rec) : (d.stageRec r).rd off = d.rd off := by
  have hflush : d.flushOne.rd off = d.rd off := by
    unfold Dev.flushOne
    split
    · rfl
    · exact (Dev.ringWrite_rd_logged _ hoff _).trans rfl
  unfold Dev.stageRec
  dsimp only
  split
  · exact hflush
  · rfl

theorem Dev.missedRec_rd_logged : d.missedRec.rd off = d.rd off := by
  unfold Dev.missedRec
  split
  · rfl
  · have hstage := d.stageRec_rd_logged hoff (d.evRec hwClg 13 0#64 0#64 (BitVec.ofNat 64 d.clg.missed))
    exact (Dev.rd_wr_logged _ hoff _ (by decide)).trans hstage

/-- A record leaves every register but those of the log, of the LIC, the Store's byte counters and fwt.log_missed. -/
theorem Dev.log_rd (r : Rec) : (d.log r).rd off = d.rd off := by
  unfold Dev.log
  split
  · rfl
  · split
    · split
      · rfl
      · exact d.missRec_rd_logged hoff r
    · split
      · exact d.missRec_rd_logged hoff r
      · dsimp only
        split
        · exact (Dev.stageRec_rd_logged _ hoff r).trans (d.missedRec_rd_logged hoff)
        · exact (Dev.missRec_rd_logged _ hoff r).trans (d.missedRec_rd_logged hoff)

theorem Dev.logged_rd (c : WCtx) (flags : Nat) (old new : W64) : (d.logged c flags old new).rd off = d.rd off := d.log_rd hoff _

end

end Sys2Proof.Machine
end

section
/-! PROOFS. The physical layer (06): lock, calibration and measurement, and the statement LockAndMeasurementCommandsComplete. -/
namespace Sys2Proof.Machine

/-! ### Codewords and blocks of a lane (R197 to R199, R204) -/

section
variable {d : Dev} {p l : Nat}

/-- A codeword counts on a trained lane of a link that has switched to data with FEC. -/
theorem Dev.codeword_counts (hdata : 6 ≤ d.phyState p) (hfec : d.gb (F.crlPhyStatus_fec_on p) = true) (hlane : l ∈ d.trainedLanes p) :
    (decide (d.phyState p < 6) || !d.gb (F.crlPhyStatus_fec_on p) || !(d.trainedLanes p).contains l) = false := by
  have hin : (d.trainedLanes p).contains l = true := List.contains_iff_mem.2 hlane
  rw [hfec, hin, decide_eq_false (by omega)]
  rfl

/-- A codeword that does not decode on a locked lane: counted, tracked, and passed up with its error. -/
theorem Dev.codeword_lost {cw : List (BitVec 10)} {gap : Nat} {u : Dev × List Bool} {t : LaneL × Bool} {e : Dev} (hdata : 6 ≤ d.phyState p)
    (hfec : d.gb (F.crlPhyStatus_fec_on p) = true) (hlane : l ∈ d.trainedLanes p) (hread : rsRead cw = none) (hgap : gap = 512 / max 1 (d.phy p).width)
    (hu : u = d.unscramble p l (codewordBits (cw.take 514))) (hlocked : u.1.laneLocked p l = true) (ht : t = (u.1.laneL p l).keepCw gap false false)
    (he : e = (u.1.bump (F.crlUncorrCw_count p l)).setLaneL p l t.1) :
    d.codeword p l cw = (e.whenD t.2 (fun d => d.laneLost p l)).lineUp p l gap t.1.since ⟨(cutEvery 10 514 u.2).1, true⟩ := by
  have hbits : (((none : Option (List (BitVec 10) × Nat × Bool)).map (·.1)).getD (cw.take 514)) = cw.take 514 := rfl
  unfold Dev.codeword
  simp only [Dev.codeword_counts hdata hfec hlane, hread, hbits, ← hgap, ← hu, hlocked, Option.isSome_none, Option.any_none, Bool.false_eq_true, if_false, if_true, ← ht]
  rw [he]
  rfl

/-- A codeword that decodes on a lane that seeks its lock. -/
theorem Dev.codeword_sought {cw m : List (BitVec 10)} {n gap : Nat} {k : Bool} {u : Dev × List Bool} {t : LaneL × Bool} (hdata : 6 ≤ d.phyState p)
    (hfec : d.gb (F.crlPhyStatus_fec_on p) = true) (hlane : l ∈ d.trainedLanes p) (hread : rsRead cw = some (m, n, k)) (hgap : gap = 512 / max 1 (d.phy p).width)
    (hu : u = d.unscramble p l (codewordBits m)) (hlocked : u.1.laneLocked p l = false) (ht : t = (u.1.laneL p l).seek gap true k) :
    d.codeword p l cw = ((u.1.setLaneL p l t.1).whenD t.2 (fun d => d.laneFound p l false)).lineUp p l gap t.1.since ⟨(cutEvery 10 514 u.2).1, false⟩ := by
  have hbits : (((some (m, n, k) : Option (List (BitVec 10) × Nat × Bool)).map (·.1)).getD (cw.take 514)) = m := rfl
  unfold Dev.codeword
  simp only [Dev.codeword_counts hdata hfec hlane, hread, hbits, ← hgap, ← hu, hlocked, Option.isSome_some, Option.any_some, Bool.false_eq_true, if_false, ← ht]
  rfl

/-- A block on a lane that seeks its lock. -/
theorem Dev.syncBlk_sought {h gap : Nat} {x : W64} {u : Dev × List Bool} {t : LaneL × Bool} (hdata : 6 ≤ d.phyState p)
    (hfec : d.gb (F.crlPhyStatus_fec_on p) = false) (hlane : l ∈ d.trainedLanes p) (hgap : gap = 32 / max 1 (d.phy p).width)
    (hu : u = d.unscramble p l (bitsLE 64 x.toNat)) (hlocked : u.1.laneLocked p l = false) (ht : t = (u.1.laneL p l).seekHdr gap h) :
    d.syncBlk p l h x = ((u.1.setLaneL p l t.1).whenD t.2 (fun d => d.laneFound p l false)).lineUp p l gap t.1.since ⟨[u.2], h = 0 || h = 3⟩ := by
  have hcounts : (decide (d.phyState p < 6) || d.gb (F.crlPhyStatus_fec_on p) || !(d.trainedLanes p).contains l) = false := by
    have hin : (d.trainedLanes p).contains l = true := List.contains_iff_mem.2 hlane
    rw [hfec, hin, decide_eq_false (by omega)]
    rfl
  unfold Dev.syncBlk
  simp only [hcounts, ← hgap, ← hu, hlocked, Bool.false_and, Bool.false_eq_true, if_false, ← ht]
  rfl

/-! ### Lock lost and found (R204, R205, R211) -/

/-- After the loss of a lane the link holds no lock. -/
theorem Dev.laneLost_lock (hdata : 6 ≤ d.phyState p) (hlocked : d.laneLocked p l = true) : (d.laneLost p l).gb (F.crlPhyStatus_lock p) = false := by
  have hdue : (decide (d.phyState p < 6) || !d.laneLocked p l) = false := by
    rw [hlocked, decide_eq_false (by omega)]
    rfl
  unfold Dev.laneLost
  simp only [hdue, Bool.false_eq_true, if_false]
  split
  · exact Dev.gb_sb_same (f := F.crlPhyStatus_lock p) _ false rfl (show 3 < 64 by decide)
  · next h => exact Bool.eq_false_iff.2 h

/-- A lane of an up link found again: counted, and the link goes on once every lane holds, or goes down where the timer expires with it. -/
theorem Dev.laneFound_up (hl : l < 8) {expiring : Bool} {e : Dev} (hstate : d.phyState p = 7) (hlane : l ∈ d.trainedLanes p) (hlocked : d.laneLocked p l = false)
    (he : e = (d.sb (F.crlLaneStatus_locked p l) true).bump (F.crlLockLoss_count p l)) :
    d.laneFound p l expiring = if !e.allLocked p then e else if expiring && (e.phy p).timer then (e.phyDown p 1).trainStart p
      else ((e.sb (F.crlPhyStatus_lock p) true).setPhy p { e.phy p with timer := false }).bump (F.crlDownCnt_recovered p) := by
  obtain ⟨hne, hsize, hnode⟩ := crlLaneStatus_ne p hl
  have hstate' : (d.sb (F.crlLaneStatus_locked p l) true).phyState p = 7 := (Dev.phyState_s_other d p _ hne hsize hnode).trans hstate
  have hdue : (decide (7 < 6) || false || !(d.trainedLanes p).contains l) = false := by
    have hin : (d.trainedLanes p).contains l = true := List.contains_iff_mem.2 hlane
    rw [hin]
    rfl
  unfold Dev.laneFound
  simp only [hstate, hlocked, hdue, hstate', Bool.false_eq_true, if_false, show ¬ (7 = 6) by decide, ← he]

theorem Dev.lockTimer_due (hstate : d.phyState p = 7) (htimer : (d.phy p).timer = true) : d.lockTimer p = (d.phyDown p 1).trainStart p :=
  if_pos (by simp [hstate, htimer])

end

/-! ### The manager's retrain and eye scan (R208, R212) -/

/-- The manager's write to a crl port's block: crl.phy_cfg and crl.eye_ctl have judgements of their own. -/
theorem Dev.judgeOf_crl (d : Dev) {off p : Nat} (x : W32) (hblock : off / 0x10000 = 0x10 + p) (hp : p < 12) :
    d.judgeOf .pf (mgrWrite off x) = if off = R.crlPhyCfg p then d.judgePhyCfg p (mgrWrite off x)
      else if off = R.crlEyeCtl p then d.judgeEye p (mgrWrite off x) else d.judgeTable (mgrWrite off x) := by
  have hhalf : resHalf off = false := by
    unfold resHalf
    simp only [Bool.and_eq_false_iff, Bool.or_eq_false_iff, decide_eq_false_iff_not]
    omega
  have hdbg : off ≠ R.stoDbgCtl := by unfold R.stoDbgCtl; omega
  unfold Dev.judgeOf
  simp only [mgrWrite_off, hblock, hhalf, hdbg, Nat.add_sub_cancel_left, if_true, if_false, Bool.false_eq_true, show ¬ (0x10 + p = 1) by omega, show ¬ (0x10 + p = 2) by omega,
    show ¬ (0x10 + p = 3) by omega, show ¬ (0x10 + p < 8) by omega, show ¬ (0x10 + p < 0xC) by omega, show 0x10 ≤ 0x10 + p by omega,
    show 0x10 + p < 0x1C by omega, decide_true, decide_false, Bool.and_false, Bool.and_self]

theorem Dev.judgeOf_crlPhyCfg (d : Dev) (p : Port) (x : W32) : d.judgeOf .pf (mgrWrite (R.crlPhyCfg p.val) x) = d.judgePhyCfg p.val (mgrWrite (R.crlPhyCfg p.val) x) :=
  (d.judgeOf_crl x (by unfold R.crlPhyCfg; omega) p.isLt).trans (if_pos rfl)

theorem Dev.judgeOf_crlEyeCtl (d : Dev) (p : Port) (x : W32) : d.judgeOf .pf (mgrWrite (R.crlEyeCtl p.val) x) = d.judgeEye p.val (mgrWrite (R.crlEyeCtl p.val) x) :=
  (d.judgeOf_crl x (by unfold R.crlEyeCtl; omega) p.isLt).trans ((if_neg (by unfold R.crlEyeCtl R.crlPhyCfg; omega)).trans (if_pos rfl))

/-- The row of crl.phy_cfg. -/
def crlPhyCfgRow : RegDef :=
  ⟨R.crlPhyCfg 0, 0x10000, 12, 0, 1, false, 0, ⟨true, false, false, true, false, false⟩, [⟨0, 0, .rw, .none, .any⟩, ⟨1, 1, .w1s, .none, .any⟩]⟩

theorem regAt_crlPhyCfg : ∀ p : Port, regAt (R.crlPhyCfg p.val) = some crlPhyCfgRow := by decide

/-- What the gates ask of the offsets of crl.phy_cfg and crl.eye_ctl. -/
theorem crlPhyCfg_gates : ∀ p : Port, R.crlPhyCfg p.val % 4 = 0 ∧ R.crlPhyCfg p.val < 2 ^ 24 ∧ regMapped (R.crlPhyCfg p.val) = true ∧ R.crlPhyCfg p.val ≠ R.pitResumeToken ∧
    timeIdx (R.crlPhyCfg p.val) = none ∧ refusesAll (R.crlPhyCfg p.val) = false ∧ exemptReg (R.crlPhyCfg p.val) = false := by decide

theorem crlEyeCtl_gates : ∀ p : Port, R.crlEyeCtl p.val % 4 = 0 ∧ R.crlEyeCtl p.val < 2 ^ 24 ∧ regMapped (R.crlEyeCtl p.val) = true ∧ R.crlEyeCtl p.val ≠ R.pitResumeToken ∧
    timeIdx (R.crlEyeCtl p.val) = none ∧ refusesAll (R.crlEyeCtl p.val) = false ∧ exemptReg (R.crlEyeCtl p.val) = true := by decide

/-- Retrain written to a register that holds 0: recorded, and set until Sync starts where no training runs. -/
theorem Dev.judgeOf_retrain {d : Dev} {p : Port} (hzero : d.rd (R.crlPhyCfg p.val) = 0#64) :
    d.judgeOf .pf (mgrWrite (R.crlPhyCfg p.val) 2#32) = .ok 0#64 2#64 false false (fun d =>
      (d.wr (R.crlPhyCfg p.val) (if decide (1 ≤ d.phyState p.val) && decide (d.phyState p.val ≤ 6) then setField 2#64 1 1 0 else 2#64)).phyRetrain p.val 2) := by
  obtain ⟨-, -, -, -, -, hrefuses, hexempt⟩ := crlPhyCfg_gates p
  rw [Dev.judgeOf_crlPhyCfg]
  unfold Dev.judgePhyCfg Dev.judgeRow
  simp only [mgrWrite_off, regAt_crlPhyCfg, mgrWrite_mask, mgrWrite_data_toNat, hzero, hrefuses, hexempt]
  rfl

theorem crlPhyStatus_unlogged : ∀ p : Port, loggedReg (R.crlPhyStatus p.val) = false := by decide

/-- The manager's retrain (R212). -/
theorem exec_retrain {s : State} {p : Port} (hready : s.dev.ready (R.crlPhyCfg p.val) = true) (hzero : s.dev.rd (R.crlPhyCfg p.val) = 0#64) :
    exec (.retrain .pf p) s = .next (s.after (((s.dev.logged (mgrWrite (R.crlPhyCfg p.val) 2#32) 0 0#64 2#64).wr (R.crlPhyCfg p.val)
      (if 1 ≤ s.dev.phyState p.val ∧ s.dev.phyState p.val ≤ 6 then 0#64 else 2#64)).phyRetrain p.val 2)) := by
  obtain ⟨halign, hbound, hmapped, htoken, htime, -, -⟩ := crlPhyCfg_gates p
  have hword : exec (.retrain .pf p) s = regWr s .pf (R.crlPhyCfg p.val) 15#8 (BitVec.ofNat 32 (s.dev.g (F.crlPhyCfg_nrz_fec p.val) + 2)) := rfl
  have hfec : s.dev.g (F.crlPhyCfg_nrz_fec p.val) = 0 := by
    unfold Dev.g
    rw [show (F.crlPhyCfg_nrz_fec p.val).off = R.crlPhyCfg p.val from rfl, hzero]
    simp [fieldOf]
  have hstate : (s.dev.logged (mgrWrite (R.crlPhyCfg p.val) 2#32) 0 0#64 2#64).phyState p.val = s.dev.phyState p.val :=
    congrArg (fun w => fieldOf w 2 0) (Dev.logged_rd s.dev (crlPhyStatus_unlogged p) _ _ _ _)
  have hdone := regWr_mgr_plain hready halign hbound hmapped htoken htime (Dev.judgeOf_retrain hzero)
  rw [hword, hfec, hdone]
  simp only [show decide ((0#64 : W64) = 2#64) = false from rfl, b2n, Bool.false_eq_true, if_false, Nat.mul_zero, hstate, Bool.and_eq_true, decide_eq_true_eq]
  rfl

/-- The row of crl.eye_ctl. -/
def crlEyeCtlRow : RegDef :=
  ⟨R.crlEyeCtl 0, 0x10000, 12, 0, 1, false, 0, ⟨true, false, false, false, false, false⟩, [⟨2, 0, .rw, .none, .any⟩, ⟨5, 4, .rw, .none, .range 0 2⟩, ⟨8, 8, .w1s, .none, .any⟩]⟩

theorem regAt_crlEyeCtl : ∀ p : Port, regAt (R.crlEyeCtl p.val) = some crlEyeCtlRow := by decide

/-- Go with a lane, for eye 0: stored as it is written, whatever the register held. -/
theorem Dev.regWrite_crlEyeCtl (d : Dev) (old : Nat) (l : Fin 8) : d.regWrite crlEyeCtlRow.fields old (2 ^ 32 - 1) (256 + l.val) = some (256 + l.val) := by
  have hl := l.isLt
  have hset : d.fieldWrite ⟨8, 8, .w1s, .none, .any⟩ old (2 ^ 32 - 1) (256 + l.val) = some 1 := by
    have hold : old / 256 % 2 = 0 ∨ old / 256 % 2 = 1 := by omega
    have hbit : (l.val / 256 + 1) % 2 = 1 := by omega
    unfold Dev.fieldWrite
    rcases hold with h | h <;> simp [h, hbit]
  simp only [crlEyeCtlRow, Dev.regWrite, hset, d.fieldWrite_rw_whole (f := ⟨2, 0, .rw, .none, .any⟩) old _ rfl (by decide),
    d.fieldWrite_rw_whole (f := ⟨5, 4, .rw, .none, .range 0 2⟩) old _ rfl (by decide), Dev.legal, if_true]
  have hlow : (256 + l.val) / 2 ^ 0 % 2 ^ (2 + 1 - 0) = l.val := by omega
  have heye : (256 + l.val) / 2 ^ 4 % 2 ^ (5 + 1 - 4) = 0 := by omega
  rw [hlow, heye]
  simp only [Nat.le_refl, Nat.zero_le, decide_true, Bool.and_self, if_true, Option.some.injEq]
  omega

theorem Dev.judgeOf_eyeScan (d : Dev) (p : Port) (l : Fin 8) :
    ∃ old rs, d.judgeOf .pf (mgrWrite (R.crlEyeCtl p.val) (BitVec.ofNat 32 (256 + l.val))) =
      .ok old (BitVec.ofNat 64 (256 + l.val)) rs true (fun d => d.wr (R.crlEyeCtl p.val) (BitVec.ofNat 64 (256 + l.val))) := by
  have hl := l.isLt
  obtain ⟨-, -, -, -, -, hrefuses, hexempt⟩ := crlEyeCtl_gates p
  have hdata : (BitVec.ofNat 32 (256 + l.val)).toNat = 256 + l.val := by
    rw [BitVec.toNat_ofNat]
    omega
  have heye : fieldOf (BitVec.ofNat 64 (256 + l.val)) 5 4 = 0 := by
    rw [fieldOf, BitVec.toNat_ofNat]
    omega
  refine ⟨d.rd (R.crlEyeCtl p.val), resvBits crlEyeCtlRow.fields (2 ^ 32 - 1) (256 + l.val), ?_⟩
  have hrow : d.judgeRow crlEyeCtlRow (mgrWrite (R.crlEyeCtl p.val) (BitVec.ofNat 32 (256 + l.val))) (d.rd (R.crlEyeCtl p.val)) (fun v d => d.wr (R.crlEyeCtl p.val) v) =
      .ok (d.rd (R.crlEyeCtl p.val)) (BitVec.ofNat 64 (256 + l.val)) (resvBits crlEyeCtlRow.fields (2 ^ 32 - 1) (256 + l.val)) true
        (fun d => d.wr (R.crlEyeCtl p.val) (BitVec.ofNat 64 (256 + l.val))) := by
    unfold Dev.judgeRow
    simp only [mgrWrite_off, mgrWrite_mask, mgrWrite_data_toNat, hdata, hrefuses, hexempt, d.regWrite_crlEyeCtl]
    rfl
  rw [Dev.judgeOf_crlEyeCtl]
  unfold Dev.judgeEye
  simp only [mgrWrite_off, regAt_crlEyeCtl, hrow, heye]
  simp

/-- The manager's eye scan of eye 0 of a lane (R208). -/
theorem exec_eyeScan {s : State} {p : Port} (l : Fin 8) (hready : s.dev.ready (R.crlEyeCtl p.val) = true) :
    exec (.eyeScan .pf p 15#8 (BitVec.ofNat 32 (256 + l.val))) s = .next (s.after (s.dev.wr (R.crlEyeCtl p.val) (BitVec.ofNat 64 (256 + l.val)))) := by
  simp only [Dev.ready, Bool.and_eq_true] at hready
  obtain ⟨halign, hbound, hmapped, htoken, htime, -, -⟩ := crlEyeCtl_gates p
  obtain ⟨old, rs, hjudge⟩ := s.dev.judgeOf_eyeScan p l
  have hdone := regWr_mgr_exempt hready.1 halign hbound hmapped htoken htime hjudge
  exact hdone

/-! ### Corrected symbols (R206) -/

theorem Dev.corrInterval_exceeds {d : Dev} {p : Nat} (hmany : d.g (F.crlErrThresh_count p) < (d.phy p).corr) :
    d.corrInterval p = (d.setPhy p { d.phy p with corr := 0 }).raise (96 + 4 * p) :=
  if_pos (decide_eq_true hmany)

/-- Settles O29: the reads of a lane, the losses and returns of lock, and the manager's writes by their judgements. -/
theorem lockAndMeasurementCommandsComplete : Obligations.LockAndMeasurementCommandsComplete := by
  refine ⟨?_, ?_, ?_, ?_, ?_, ?_, ?_, ?_, ?_, ?_, ?_⟩
  · exact fun s p l cw gap u t d hp hdata hfec hlane hread hgap hu hlocked ht hd => chip_next_of hp (Dev.codeword_lost hdata hfec hlane hread hgap hu hlocked ht hd)
  · exact fun s p l cw m n k gap u t hp hdata hfec hlane hread hgap hu hlocked ht => chip_next_of hp (Dev.codeword_sought hdata hfec hlane hread hgap hu hlocked ht)
  · exact fun s p l h x gap u t hp hdata hfec hlane hgap hu hlocked ht => chip_next_of hp (Dev.syncBlk_sought hdata hfec hlane hgap hu hlocked ht)
  · exact fun s p l hp hdata hlocked => ⟨chip_next hp (fun d => d.laneLost p.val l.val), Dev.laneLost_lock hdata hlocked⟩
  · intro s p l e d hp hstate hlane hlocked hd
    have hfound := Dev.laneFound_up l.isLt (expiring := e) hstate hlane hlocked hd
    refine ⟨fun hsome => ?_, fun hall htimer => ?_, fun hall htimer => ?_⟩
    · exact chip_next_of hp (hfound.trans (if_pos (by rw [hsome]; rfl)))
    · exact chip_next_of hp (hfound.trans ((if_neg (by rw [hall]; decide)).trans (if_pos htimer)))
    · exact chip_next_of hp (hfound.trans ((if_neg (by rw [hall]; decide)).trans (if_neg (by rw [htimer]; decide))))
  · exact fun s p hp hstate htimer => chip_next_of hp (Dev.lockTimer_due hstate htimer)
  · exact fun s p hready hzero => exec_retrain hready hzero
  · rintro s r _ hp rfl
    exact chip_next hp (fun d => d.calService r)
  · exact fun s p l hready => exec_eyeScan l hready
  · exact fun s p w h hp hgo => chip_next_of hp (if_pos hgo)
  · exact fun s p hp hmany => chip_next_of hp (Dev.corrInterval_exceeds hmany)

end Sys2Proof.Machine
end

section
/-! PROOFS. The link layer (07): the flit slot, the flits received, the timers, and the statements LinkSendCommandsComplete and LinkReceiveCommandsComplete. -/
namespace Sys2Proof.Machine

section
variable {d : Dev} {p : Nat} {f : Flit}

/-! ### The flit slot (R222, R230) -/

theorem Dev.flitSlot_closed {ok bad : Bool} (hopen : d.portOpen p = false) : d.flitSlot p ok bad = d.slotOf p ok := by
  unfold Dev.flitSlot
  cases (d.lnk p).replay with
  | nil => rfl
  | cons q t => exact if_neg (by simp [hopen])

theorem Dev.flitSlot_readable {ok bad : Bool} {q : Nat} {t : List Nat} (hreplay : (d.lnk p).replay = q :: t)
    (hread : bad = false ∨ (d.lnk p).far.any (fun e => e.seq = q) = false) : d.flitSlot p ok bad = d.slotOf p ok := by
  unfold Dev.flitSlot
  simp only [hreplay]
  rcases hread with h | h
  · exact if_neg (by simp [h])
  · exact if_neg (by simp only [h, Bool.and_false, Bool.false_eq_true, not_false_eq_true])

theorem Dev.flitSlot_unreadable {ok : Bool} {q : Nat} {t : List Nat} (hup : d.phyState p = 7) (hopen : d.portOpen p = true) (hreplay : (d.lnk p).replay = q :: t)
    (hfar : (d.lnk p).far.any (fun e => e.seq = q) = true) : d.flitSlot p ok true = d.ueMet (d.farAddr p q) true := by
  unfold Dev.flitSlot
  simp only [hreplay]
  exact if_pos (by simp only [hup, hopen, hfar, decide_true, Bool.and_self])

theorem Dev.flitSlot_new {ok bad : Bool} (hreplay : (d.lnk p).replay = []) : d.flitSlot p ok bad = d.slotOf p ok := by
  unfold Dev.flitSlot
  simp only [hreplay]

theorem Dev.slotOf_init {ok : Bool} {x : InitX} (hup : d.phyState p = 7) (hinit : (d.lnk p).init = some x) : d.slotOf p ok = d.sendInit p x := by
  unfold Dev.slotOf
  simp only [hup, hinit, ne_eq, not_true, if_false]

theorem Dev.slotOf_notOpen {ok : Bool} (hup : d.phyState p = 7) (hinit : (d.lnk p).init = none) (hopen : d.portOpen p = false) : d.slotOf p ok = d.sendNull p := by
  unfold Dev.slotOf
  simp only [hup, hinit, hopen, ne_eq, not_true, if_false, Bool.not_false, if_true]

theorem Dev.slotOf_replay {ok : Bool} {q : Nat} {t : List Nat} (hup : d.phyState p = 7) (hinit : (d.lnk p).init = none) (hopen : d.portOpen p = true)
    (hreplay : (d.lnk p).replay = q :: t) : d.slotOf p ok = d.sendReplay p q t := by
  unfold Dev.slotOf
  simp only [hup, hinit, hopen, hreplay, ne_eq, not_true, if_false, Bool.not_true, Bool.false_eq_true]

theorem Dev.slotOf_data {ok : Bool} {v : Nat} {e : Dev} (hup : d.phyState p = 7) (hinit : (d.lnk p).init = none) (hopen : d.portOpen p = true)
    (hreplay : (d.lnk p).replay = []) (hspill : d.spillStuck p ok = false) (he : e = d.setLnk p { d.lnk p with stuck := false })
    (hroom : e.uCount p < e.limitL) (hspill' : e.spillStuck p ok = false) (hnext : e.nextTxVc p = some v) : d.slotOf p ok = e.sendData p v := by
  subst he
  have hfree := Nat.not_le.2 hroom
  unfold Dev.slotOf
  simp only [hinit, hreplay] at hfree hspill' hnext
  simp only [hup, hinit, hopen, hreplay, hspill, hspill', hnext, hfree, ne_eq, not_true, if_false, Bool.not_true, Bool.false_eq_true, Bool.or_false,
    decide_eq_true_eq]

/-! ### The timers (R233, R241, R244, R247) -/

theorem Dev.replayTimer_runs (hlink : 2 ≤ d.linkState p) (hwaits : d.uCount p ≠ 0) : d.replayTimer p = d.startReplay p :=
  if_neg (by simp [Nat.not_lt.2 hlink, hwaits])

theorem Dev.initTimer_running {x : InitX} (hinit : (d.lnk p).init = some x) : d.initTimer p = d.linkRetrain p 2 :=
  if_pos (by rw [hinit]; rfl)

theorem Dev.lapse_held (hheld : d.gb (F.crlLinkStatus_held p) = true) (hlink : d.linkState p < 2) (hp : p < 8) :
    d.lapse p = (let e := (d.discardSession p).sb (F.crlLinkStatus_held p) false; e.setLnk p { e.lnk p with init := (e.lnk p).init.map (fun x => { x with ok := false }) }) :=
  (if_pos (by simp [hheld, hlink])).trans (if_neg (by simp [Nat.not_le.2 hp]))

theorem Dev.sendStalled_waits (hwaits : (d.lnk p).txq.any (fun e => !e.2.isEmpty) = true) (htakes : d.takesFlits p = false) : d.sendStalled p = d.raise (145 + 4 * p) :=
  if_pos (by simp only [hwaits, htakes, Bool.true_or, Bool.not_false, Bool.and_self])

theorem Dev.replayInterval_exceeds (hmany : d.g (F.crlReplayThresh_count p) < (d.lnk p).replays) :
    d.replayInterval p = (d.setLnk p { d.lnk p with replays := 0 }).raise (144 + 4 * p) :=
  if_pos (decide_eq_true hmany)

/-! ### The flits received (R227, R241, R248) -/

/-- A port that receives and is past its Init exchange takes the flit. -/
theorem linkGate_open (hrecv : d.receives p = true) (hlink : 2 ≤ d.linkState p) : ¬ (!d.receives p || decide (d.linkState p < 2)) = true := by
  simp [hrecv, Nat.not_lt.2 hlink]

theorem Dev.sequenced_expected {take : Dev → Dev} (hseq : f.seq.toNat = d.rxE p) : d.sequenced p f take = take d := if_pos hseq

theorem Dev.dataIn_expected (hrecv : d.receives p = true) (hlink : 2 ≤ d.linkState p) (hseq : f.seq.toNat = (d.takeHeader p f).rxE p)
    (hcredit : (d.takeHeader p f).creditOut p f = true) (hlen : f.len.toNat < 240) :
    d.dataIn p f = (((d.takeHeader p f).acceptSeq p).useCredit p f).frameData p f := by
  refine (if_neg (linkGate_open hrecv hlink)).trans ((Dev.sequenced_expected hseq).trans ((if_neg ?_).trans (if_neg (Nat.not_le.2 hlen))))
  simp [hcredit]

theorem Dev.nullIn_expected (hrecv : d.receives p = true) (hlink : 2 ≤ d.linkState p) (hseq : f.seq.toNat = (d.takeHeader p f).rxE p) :
    d.nullIn p f = d.takeHeader p f :=
  (if_neg (linkGate_open hrecv hlink)).trans (if_pos (by simp [hseq]))

theorem Dev.undefIn_expected (hrecv : d.receives p = true) (hlink : 2 ≤ d.linkState p) (hseq : f.seq.toNat = (d.takeHeader p f).rxE p) :
    d.undefIn p f = (((d.takeHeader p f).acceptSeq p).cnt p 5).raise (147 + 4 * p) :=
  (if_neg (linkGate_open hrecv hlink)).trans (Dev.sequenced_expected hseq)

theorem Dev.initIn_exchange {x : InitX} (hrecv : d.receives p = true) (hlink : d.linkState p < 2) (hinit : (d.lnk p).init = some x) : d.initIn p f = d.initTake p f x := by
  unfold Dev.initIn
  simp only [hrecv, hinit, Nat.not_le.2 hlink, decide_false, Bool.not_true, Bool.false_and, Bool.or_false, Bool.false_eq_true, if_false]

theorem Dev.badIn_receives (hrecv : d.receives p = true) : d.badIn p = (d.cnt p 3).enterNak p := if_neg (by simp [hrecv])

/-! ### Delivery (R225, R238) -/

theorem dropAborts_head {g : RxFlit} {q : List RxFlit} {cut : Bool} (habort : g.abort = false) : dropAborts (g :: q) cut = (g :: q, cut) := by
  unfold dropAborts
  simp [habort]

theorem Dev.nextFlit_head {v : Nat} {g : RxFlit} {q : List RxFlit} (hqueue : (d.lnk p).rxBuf.lk [] v = g :: q) (habort : g.abort = false) : d.nextFlit p v = some g := by
  unfold Dev.nextFlit
  rw [hqueue, dropAborts_head habort]
  rfl

theorem Dev.deliverSlot_read {v : Nat} {bad : Bool} {g : RxFlit} (hroom : d.admissionFull p v = false) (hnext : d.nextFlit p v = some g) (hdie : g.shared = false) :
    d.deliverSlot p v bad = d.deliverFlit p v := by
  unfold Dev.deliverSlot
  simp [hroom, hnext, hdie]

theorem Dev.deliverSlot_bad {v : Nat} {g : RxFlit} (hroom : d.admissionFull p v = false) (hnext : d.nextFlit p v = some g) (hland : g.shared = true) :
    d.deliverSlot p v true = d.ueMet (landAddr p g.slot) true := by
  unfold Dev.deliverSlot
  simp [hroom, hnext, hland]

theorem Dev.deliverFlit_whole {v : Nat} {g : RxFlit} {q : List RxFlit} (hqueue : (d.lnk p).rxBuf.lk [] v = g :: q) (habort : g.abort = false) (hsop : g.sop = true)
    (heop : g.eop = true) (hdie : g.shared = false) :
    d.deliverFlit p v = (d.setLnk p { d.lnk p with
      rxBuf := (d.lnk p).rxBuf.put [] v q, rxOpen := (d.lnk p).rxOpen.del v, done := (d.lnk p).done ++ [(v, g.data)] }).grantOne p v false := by
  unfold Dev.deliverFlit
  simp only [hqueue, dropAborts_head habort, hsop, heop, hdie, Bool.false_eq_true, if_false, if_true, List.nil_append, Dev.whenD]

end

/-- Settles O30: one flit slot by the state of the link, and its timers by their guards. -/
theorem linkSendCommandsComplete : Obligations.LinkSendCommandsComplete := by
  refine ⟨?_, ?_, ?_, ?_, ?_, ?_, ?_, ?_, ?_, ?_⟩
  · exact fun s p ok bad x hp hup hinit hopen => chip_next_of hp ((Dev.flitSlot_closed hopen).trans (Dev.slotOf_init hup hinit))
  · exact fun s p ok bad hp hup hinit hopen => chip_next_of hp ((Dev.flitSlot_closed hopen).trans (Dev.slotOf_notOpen hup hinit hopen))
  · exact fun s p ok bad q t hp hup hinit hopen hreplay hread => chip_next_of hp ((Dev.flitSlot_readable hreplay hread).trans (Dev.slotOf_replay hup hinit hopen hreplay))
  · exact fun s p ok q t hp hup hopen hreplay hfar => chip_next_of hp (Dev.flitSlot_unreadable hup hopen hreplay hfar)
  · exact fun s p ok bad v d hp hup hinit hopen hreplay hspill hd hroom hspill' hnext =>
      chip_next_of hp ((Dev.flitSlot_new hreplay).trans (Dev.slotOf_data hup hinit hopen hreplay hspill hd hroom hspill' hnext))
  · exact fun s p hp hlink hwaits => chip_next_of hp (Dev.replayTimer_runs hlink hwaits)
  · exact fun s p x hp hinit => chip_next_of hp (Dev.initTimer_running hinit)
  · exact fun s p hp hheld hlink hlow => chip_next_of hp (Dev.lapse_held hheld hlink hlow)
  · exact fun s p hp hwaits htakes => chip_next_of hp (Dev.sendStalled_waits hwaits htakes)
  · exact fun s p hp hmany => chip_next_of hp (Dev.replayInterval_exceeds hmany)

/-- Settles O31: each kind of flit that is in sequence, and the delivery of the oldest flit of a virtual channel. -/
theorem linkReceiveCommandsComplete : Obligations.LinkReceiveCommandsComplete := by
  refine ⟨?_, ?_, ?_, ?_, ?_, ?_, ?_⟩
  · exact fun s p f hp hrecv hlink hseq hcredit hlen => chip_next_of hp (Dev.dataIn_expected hrecv hlink hseq hcredit hlen)
  · exact fun s p f hp hrecv hlink hseq => chip_next_of hp (Dev.nullIn_expected hrecv hlink hseq)
  · exact fun s p f x hp hrecv hlink hinit hne => chip_next_of hp ((if_neg (by simp [hne])).trans (Dev.initIn_exchange hrecv hlink hinit))
  · exact fun s p f hp hrecv hlink hseq => chip_next_of hp (Dev.undefIn_expected hrecv hlink hseq)
  · exact fun s p hp hrecv => chip_next_of hp (Dev.badIn_receives hrecv)
  · exact fun s p v bad f q hp hroom hqueue habort hsop heop hdie =>
      chip_next_of hp ((Dev.deliverSlot_read hroom (Dev.nextFlit_head hqueue habort) hdie).trans (Dev.deliverFlit_whole hqueue habort hsop heop hdie))
  · exact fun s p v f hp hroom hnext hland => chip_next_of hp (Dev.deliverSlot_bad hroom hnext hland)

end Sys2Proof.Machine
end

section
/-! PROOFS. Routing (08): origination, deletion, the route run and its installation, convergence, and the statement RoutingCommandsComplete. -/
namespace Sys2Proof.Machine

section
variable {d : Dev}

theorem Dev.originateCmd_due (hchecked : d.net.checked = true) (hon : d.netOn = true) : d.originateCmd = d.originate :=
  if_pos (by simp [hchecked, hon])

theorem Dev.deleteLsa_held {x : Serial} {l : Lsa} (hother : x ≠ d.serial) (hreach : d.net.tbl.reach.contains x.toNat = false) (hheld : d.net.lsdb.find? x.toNat = some l) :
    d.deleteLsa x = ({ d with net := { d.net with lsdb := d.net.lsdb.del x.toNat, incs := d.net.incs.del x.toNat, kept := d.net.kept.erase x.toNat } }).dbChanged :=
  if_neg (by rw [hreach, hheld]; simp [hother])

theorem Dev.routeRun_due (hdirty : d.net.dirty = true) (hidle : d.net.run = none) (hon : d.netOn = true) :
    d.routeRun = ({ d with net := { d.net with run := some (routesOf d.serial d.addr d.net.lsdb), dirty := false } }).bump F.netCntRuns_count :=
  if_pos (by simp [hdirty, hidle, hon])

theorem Dev.routeInstall_keeps {r : Routes} {e : Dev} (hrun : d.net.run = some r) (hkeep : d.net.tbl.reach.all (fun x => r.reach.contains x) = true)
    (he : e = ((d.s F.netRoot_root r.root).s F.netRoot_level r.level).sb F.netStatus_root_self (decide (r.root = d.addr.toNat) && decide (d.g F.netStatus_claim = 2)))
    (hmoving : (({ e with net := { e.net with tbl := r, shown := true, run := none } } : Dev).snapWrite.licPulse 548).settledNet = false) :
    d.routeInstall = ({ e with net := { e.net with tbl := r, shown := true, run := none } } : Dev).snapWrite.licPulse 548 := by
  have hlost : d.net.tbl.reach.any (fun x => !r.reach.contains x) = false := by
    rw [List.any_eq_not_all_not]
    simp only [Bool.not_not, hkeep, Bool.not_true]
  subst he
  unfold Dev.routeInstall
  rw [hrun]
  simp only [hlost, Dev.whenD, Bool.false_eq_true, if_false]
  exact if_neg (by rw [hmoving]; simp)

theorem Dev.undamp_damped {p : Nat} (hdamped : d.gb (F.netNbr_damped p) = true) : d.undamp p = ((d.sb (F.netNbr_damped p) false).netEv d.addr.toNat 4 p).lsaDue :=
  if_pos hdamped

theorem Dev.convergenceCmd_settled (hon : d.netOn = true) (hstep : 11 ≤ d.pitStep) (hchecked : d.net.checked = true) (hsettled : d.settledNet = true)
    (hclaim : (d.sb F.netStatus_converged true).g F.netStatus_claim = 2) :
    d.convergenceCmd = (let e := d.sb F.netStatus_converged true; { e with net := { e.net with yields := 0 } }) := by
  have hlate : ¬ d.g F.pitPitchStatus_step < 11 := Nat.not_lt.2 hstep
  exact (if_neg (by simp [hon, hlate])).trans ((if_neg (by simp [hchecked])).trans ((if_pos hsettled).trans (if_pos hclaim)))

end

/-- Settles O33: each command of the route engine by its guard. -/
theorem routingCommandsComplete : Obligations.RoutingCommandsComplete := by
  refine ⟨?_, ?_, ?_, ?_, ?_, ?_, ?_⟩
  · exact fun s hp hchecked hon => chip_next_of hp (Dev.originateCmd_due hchecked hon)
  · exact fun s x l hp hother hreach hheld => chip_next_of hp (Dev.deleteLsa_held hother hreach hheld)
  · exact fun s hp hdirty hidle hon => chip_next_of hp (Dev.routeRun_due hdirty hidle hon)
  · exact fun s r d hp hrun hkeep hd hmoving => chip_next_of hp (Dev.routeInstall_keeps hrun hkeep hd hmoving)
  · exact fun s p hp hdamped => chip_next_of hp (Dev.undamp_damped hdamped)
  · exact fun s p hp => chip_next_of hp rfl
  · exact fun s hp hon hstep hchecked hsettled hclaim => chip_next_of hp (Dev.convergenceCmd_settled hon hstep hchecked hsettled hclaim)

end Sys2Proof.Machine
end

section
/-! PROOFS. Requests at their destination (09): arrival, the lane, the checks, the meaning of each opcode, and the statements MemoryRequestsComplete, MessageFenceAndProbeComplete and HoldRequestsComplete. -/
namespace Sys2Proof.Machine

/-- A condition makes the change happen. -/
theorem actIf_next_of {s : State} {c : Bool} {f : Dev → Dev} {e : Dev} (h : c = true) (he : f s.dev = e) : actIf s c f = .next (s.after e) :=
  (actIf_next h f).trans (by rw [he])

section
variable {d : Dev} {via : Via} {vc : Nat} {k : Pkt}

/-! ### Arrival (R134, R140, R284, R447) -/

theorem Dev.arrive_admitted (hadm : d.admits via vc k = true) : d.arrive via vc k = (d.consume via k).resequence via vc k := by
  simp only [Dev.admits, Bool.and_eq_true, decide_eq_true_eq, Bool.not_eq_true', Option.isNone_iff_eq_none, ne_eq] at hadm
  obtain ⟨⟨⟨⟨⟨⟨⟨-, hclass⟩, hjoined⟩, hdrain⟩, hself⟩, hcarries⟩, hrestore⟩, hspoof⟩ := hadm
  unfold Dev.arrive
  simp only [hclass, hjoined, hdrain, hself, hcarries, hrestore, hspoof, if_false, Bool.not_true, Bool.false_eq_true]

theorem packet_admitted {s : State} {v : BitVec 3} (hadm : s.dev.admits via v.toNat k = true) :
    packet s via v k = .next (s.after ((s.dev.consume via k).resequence via v.toNat k)) := by
  have harrive := Dev.arrive_admitted hadm
  simp only [Dev.admits, Bool.and_eq_true, decide_eq_true_eq] at hadm
  obtain ⟨⟨⟨⟨⟨⟨⟨⟨⟨⟨hvia, hhere⟩, hlow⟩, hhigh⟩, -⟩, -⟩, -⟩, -⟩, -⟩, -⟩, -⟩ := hadm
  have hcome : (s.dev.viaHere via k && decide (1 ≤ v.toNat) && decide (v.toNat ≤ 6)) = true := by simp [hhere, hlow, hhigh]
  cases via with
  | loc p => exact absurd hvia Bool.false_ne_true
  | fabric p => exact actIf_next_of hcome harrive
  | turn => exact actIf_next_of hcome harrive

/-! ### The lane (R312, R313) -/

theorem Dev.resequence_bypass (hbypass : bypassLane k = true) : d.resequence via vc k = d.perform via vc k :=
  if_pos (by simp [hbypass])

theorem Dev.resequence_next (hbypass : bypassLane k = false) (hclass : vcClass vc ≠ .response) (hopen : k.laneOpen = false) (hexp : d.laneExp k.lane = some k.sseq.toNat) :
    d.resequence via vc k = ((d.setLane k.lane (k.sseq.toNat + 1)).perform via vc k).drainLane 33 k.lane := by
  have hzero : (k.sseq.toNat + 65536 - k.sseq.toNat) % 65536 = 0 := by omega
  unfold Dev.resequence
  simp only [hbypass, hclass, hopen, hexp, hzero, decide_false, Bool.or_false, Bool.false_eq_true, if_false, if_true]

theorem packet_bypass {s : State} {v : BitVec 3} {e : Dev} (hadm : s.dev.admits via v.toNat k = true) (hbypass : bypassLane k = true)
    (he : (s.dev.consume via k).perform via v.toNat k = e) : packet s via v k = .next (s.after e) := by
  rw [packet_admitted hadm, Dev.resequence_bypass hbypass, he]

theorem packet_inLane {s : State} {v : BitVec 3} (hlane : s.dev.inLane via v.toNat k = true) :
    packet s via v k = .next (s.after ((((s.dev.consume via k).setLane k.lane (k.sseq.toNat + 1)).perform via v.toNat k).drainLane 33 k.lane)) := by
  simp only [Dev.inLane, Bool.and_eq_true, Bool.not_eq_true', decide_eq_true_eq] at hlane
  obtain ⟨⟨⟨hadm, hbypass⟩, hopen⟩, hexp⟩ := hlane
  have hclass : vcClass v.toNat ≠ .response := by
    simp only [Dev.admits, Bool.and_eq_true, decide_eq_true_eq] at hadm
    obtain ⟨⟨⟨⟨⟨⟨⟨-, hclass⟩, -⟩, -⟩, -⟩, -⟩, -⟩, -⟩ := hadm
    exact hclass
  rw [packet_admitted hadm, Dev.resequence_next hbypass hclass hopen hexp]

/-! ### The checks of a request (R311, R326, R327, R419) -/

theorem Dev.perform_undefined (hop : opClass k.opcode = none) : d.perform via vc k = (d.touch (sliceDomain k.di) (sliceDomain k.di)).undefOp (vcClass vc) k := by
  unfold Dev.perform
  rw [hop]

theorem Dev.perform_probe (hop : k.opcode = 0xA#8) (hclass : vcClass vc = .nonPosted) (hform : malformed k = false) (henc : reservedEnc k = false)
    {e : Dev} (he : e = d.touch (sliceDomain k.di) (sliceDomain k.di)) : d.perform via vc k = e.respond k 1 0 (e.probeBytes k.di) 0 (e.sliceGen k.di) := by
  subst he
  unfold Dev.perform
  simp only [show opClass k.opcode = some .nonPosted by rw [hop]; rfl, hclass, hform, henc, ne_eq, not_true, decide_false, Bool.or_self, Bool.false_eq_true, if_false]
  exact if_pos hop

theorem Dev.perform_hdrop (hop : k.opcode = 0x14#8) (hclass : vcClass vc = .posted) (hform : malformed k = false) (henc : reservedEnc k = false)
    {e : Dev} (he : e = d.touch (sliceDomain k.di) (sliceDomain k.di)) (hflr : (e.ins.flr.find? k.di).isSome = false) (hgone : e.istate k.di ≠ 0) (hreset : e.istate k.di ≠ 3) :
    d.perform via vc k = e.hdropAt k := by
  subst he
  unfold Dev.perform
  simp only [show opClass k.opcode = some .posted by rw [hop]; rfl, hclass, hform, henc, ne_eq, not_true, decide_false, Bool.or_self, Bool.false_eq_true, if_false]
  exact (if_neg (by simp [hop])).trans ((if_pos hop).trans (if_neg (by simp [hflr, hgone, hreset])))

theorem Dev.perform_served (hop : opClass k.opcode = some (vcClass vc)) (hform : malformed k = false) (henc : reservedEnc k = false) (hbypass : bypassLane k = false)
    {e : Dev} (he : e = d.touch (sliceDomain k.di) (sliceDomain k.di)) (hfree : e.unheld k = true) (hgate : e.instGate k = none) :
    d.perform via vc k = e.serve via k := by
  simp only [bypassLane, Bool.or_eq_false_iff, decide_eq_false_iff_not] at hbypass
  obtain ⟨⟨hprobe, hdrop⟩, -⟩ := hbypass
  have hclass : ¬ (decide (vcClass vc ≠ vcClass vc) || malformed k) = true := by simp [hform]
  have henc' : ¬ reservedEnc k = true := by simp [henc]
  have hheld : ¬ (e.trn.fences.any (fun f => related f.pkt k) || e.trn.behind.any (fun q => related q.pkt k) ||
      (decide (k.opcode ≠ 9#8) && e.pendingElsewhere k (e.targetOf k))) = true := by
    simp only [Dev.unheld, Bool.and_eq_true, Bool.not_eq_true', Bool.or_eq_true, decide_eq_true_eq] at hfree
    obtain ⟨⟨hfence, hbehind⟩, hpend⟩ := hfree
    rcases hpend with h | h <;> simp only [hfence, hbehind, h] <;> simp
  subst he
  unfold Dev.perform
  simp only [hop]
  rw [if_neg hclass, if_neg henc', if_neg hprobe, if_neg hdrop, if_neg hheld, hgate]

theorem packet_serves {s : State} {v : BitVec 3} (hserves : s.dev.serves via v.toNat k = true) :
    packet s via v k = .next (s.after (((s.dev.taken via k).serve via k).drainLane 33 k.lane)) := by
  simp only [Dev.serves, Bool.and_eq_true, Bool.not_eq_true', decide_eq_true_eq, Option.isNone_iff_eq_none] at hserves
  obtain ⟨⟨⟨⟨⟨hlane, hop⟩, hform⟩, henc⟩, hfree⟩, hgate⟩ := hserves
  have hbypass : bypassLane k = false := by
    simp only [Dev.inLane, Bool.and_eq_true, Bool.not_eq_true'] at hlane
    obtain ⟨⟨⟨-, hbypass⟩, -⟩, -⟩ := hlane
    exact hbypass
  rw [packet_inLane hlane, Dev.perform_served hop hform henc hbypass (e := s.dev.taken via k) rfl hfree hgate]

/-! ### Memory requests (R304, R387, R388) -/

theorem Dev.serve_memory (hlow : 1 ≤ k.opcode.toNat) (hhigh : k.opcode.toNat ≤ 6) : d.serve via k = d.memoryOp via k :=
  (if_neg (by omega)).trans ((if_neg (by omega)).trans (if_neg (by omega)))

theorem Dev.memoryOp_inside {x : Nat × List W64} (hwin : d.winLookup k.di 2 k.addr.toNat = some x) : d.memoryOp via k = d.inbound via k x.2 := by
  unfold Dev.memoryOp
  rw [hwin]

theorem Dev.memoryOp_outside (hwin : d.winLookup k.di 2 k.addr.toNat = none) : d.memoryOp via k = d.toLocal via k := by
  unfold Dev.memoryOp
  rw [hwin]

theorem Dev.inbound_permitted {w : List W64} (hok : d.inboundOk k w = true) :
    d.inbound via k w = if k.opcode.toNat = 2 ∨ k.opcode.toNat = 3 then (d.inboundAt k w).hostWr via k (hostAddr k w) else (d.inboundAt k w).hostNp via k (hostAddr k w) := by
  simp only [Dev.inboundOk, Bool.and_eq_true, Bool.not_eq_true', decide_eq_true_eq] at hok
  obtain ⟨⟨⟨⟨⟨⟨hperm, hcover⟩, hblock⟩, hshut⟩, hsize⟩, hmaster⟩, hatomic⟩ := hok
  have hdev : (if k.opcode.toNat = 1 then d.touch (blockDomain (inboundBlk k.di)) (blockDomain (inboundBlk k.di))
      else (d.touch (blockDomain (inboundBlk k.di)) (blockDomain (inboundBlk k.di))).mark k.di ((bget w 16 8 + (k.addr.toNat - bget w 0 8)) % 2 ^ 64)) = d.inboundAt k w :=
    ite_congr (propext (by rw [BitVec.toNat_eq]; rfl)) (fun _ => rfl) (fun _ => rfl)
  have hwhole : ¬ ((k.opcode.toNat = 4 ∨ k.opcode.toNat = 5) ∧ k.length.toNat = 16) := by
    simp only [Bool.and_eq_false_iff, Bool.or_eq_false_iff, decide_eq_false_iff_not] at hsize
    omega
  have hbit : ¬ (4 ≤ k.opcode.toNat ∧ k.opcode.toNat ≤ 6 ∧ (!(d.inboundAt k w).cfgBit 0 cfgDevCtl2 6) = true) := by
    simp only [Bool.or_eq_true, decide_eq_true_eq] at hatomic
    rintro ⟨hge, hle, hbit⟩
    rcases hatomic with (h | h) | h
    · omega
    · omega
    · simp [h] at hbit
  unfold Dev.inbound
  simp only [hdev, hblock, hshut, hmaster, hwhole, hbit, hperm, Nat.not_lt.2 hcover, Bool.not_true, decide_false, Bool.or_self, Bool.false_eq_true, if_false]
  rfl

theorem Dev.toLocal_open {p : Nat} (hok : d.localOk k p = true) : d.toLocal via k = d.deliverNow p via k := by
  simp only [Dev.localOk, Bool.and_eq_true, Bool.not_eq_true', decide_eq_true_eq, Bool.or_eq_true] at hok
  obtain ⟨⟨⟨⟨⟨⟨hport, hlow⟩, hpresent⟩, hblock⟩, hshut⟩, hstream⟩, htag⟩ := hok
  have hstream' : ¬ ((d.trn.deliv.find? (streamKey p k.src.toNat k.si k.key.toNat)).isNone && decide (1024 ≤ d.streamsOf p)) = true := by
    rcases hstream with h | h
    · simp [Option.isNone_eq_false_iff.2 h]
    · simp [Nat.not_le.2 h]
  have htag' : ¬ (!k.posted && (d.freshLocalTag p).isNone) = true := by
    rcases htag with h | h
    · simp [h]
    · simp [Option.isNone_eq_false_iff.2 h]
  unfold Dev.toLocal
  simp only [hport]
  rw [if_neg (by simp [hpresent, hlow]), if_neg (by simp [hblock, hshut])]
  exact (if_neg hstream').trans (if_neg htag')

/-! ### Messages and holds (R311, R323, R430) -/

theorem Dev.serve_msg (hop : k.opcode = 7#8) (hblock : d.blockClosing 0x40 = false) (hring : bitOf (d.ig k.di 3 1) 0 = true) : d.serve via k = d.msgRing k := by
  have hposted : k.posted = true := by
    rw [Pkt.posted, hop]
    rfl
  refine (if_pos (Or.inl (by rw [hop]; rfl))).trans ((if_neg (by simp [hblock])).trans ((if_neg (by simp [hring])).trans (if_pos hposted)))

theorem Dev.serve_msga (hop : k.opcode = 8#8) (hblock : d.blockClosing 0x40 = false) (hring : bitOf (d.ig k.di 3 1) 0 = true) :
    d.serve via k = (d.msgRing k).answer k 0 0 := by
  have hposted : k.posted = false := by
    rw [Pkt.posted, hop]
    rfl
  refine (if_pos (Or.inr (by rw [hop]; rfl))).trans ((if_neg (by simp [hblock])).trans ((if_neg (by simp [hring])).trans (if_neg (by simp [hposted]))))

theorem Dev.serve_hold (hlow : 0x10 ≤ k.opcode.toNat) (hhigh : k.opcode.toNat ≤ 0x13) : d.serve via k = d.holdOp k :=
  (if_neg (by omega)).trans ((if_neg (by omega)).trans (if_pos ⟨hlow, hhigh⟩))

theorem Dev.holdOp_hacq (hop : k.opcode = 0x10#8) (htwin : isTwinHold k = false) : d.holdOp k = d.hacqAt k := by
  simp [Dev.holdOp, hop, htwin]

theorem Dev.holdOp_hrel (hop : k.opcode = 0x11#8) (htwin : isTwinHold k = false) : d.holdOp k = d.hrelAt k := by
  simp [Dev.holdOp, hop, htwin]

theorem Dev.holdOp_hrenew (hop : k.opcode = 0x12#8) (htwin : isTwinHold k = false) : d.holdOp k = d.hrenewAt k := by
  simp [Dev.holdOp, hop, htwin]

theorem Dev.holdOp_hquery (hop : k.opcode = 0x13#8) (htwin : isTwinHold k = false) : d.holdOp k = d.hqueryAt k := by
  simp [Dev.holdOp, hop, htwin]

theorem Dev.hacqAt_new (htwin : isTwinHold k = false) {e : Dev} (he : e = d.tickHold k.di k.addr) (hnone : e.holdAt k.di k.addr = none) (hroom : e.noHoldRoom k = false) :
    d.hacqAt k = (e.setHold (e.ownEntry k)).answer k 0 0 := by
  subst he
  unfold Dev.hacqAt
  simp only [htwin, hnone, hroom, Bool.false_and, Bool.false_eq_true, if_false]

theorem Dev.hacqAt_own (htwin : isTwinHold k = false) {e : Dev} {x : HoldEnt} (he : e = d.tickHold k.di k.addr) (hfound : e.holdAt k.di k.addr = some x)
    (hown : x.held = false ∨ x.ownedBy k = true) : d.hacqAt k = (e.setHold (e.ownEntry k)).answer k 0 (if x.held then 2 else 1) := by
  subst he
  unfold Dev.hacqAt
  simp only [htwin, hfound, Bool.false_and, Bool.false_eq_true, if_false]
  cases hheld : x.held with
  | false => rfl
  | true =>
    rw [hheld] at hown
    simp only [Bool.true_eq_false, false_or] at hown
    simp [hown]

theorem Dev.hrelAt_owner {e : Dev} {x : HoldEnt} (he : e = d.tickHold k.di k.addr) (hfound : e.holdAt k.di k.addr = some x) (hheld : x.held = true) (hown : x.ownedBy k = true) :
    d.hrelAt k = (e.dropHold k.di k.addr).answer k 0 0 := by
  subst he
  unfold Dev.hrelAt
  simp [hfound, hheld, hown]

theorem Dev.hrenewAt_owner {e : Dev} {x : HoldEnt} (he : e = d.tickHold k.di k.addr) (hfound : e.holdAt k.di k.addr = some x) (hheld : x.held = true) (hown : x.ownedBy k = true) :
    d.hrenewAt k = (e.setHold (e.ownEntry k)).answer k 0 0 := by
  subst he
  unfold Dev.hrenewAt
  simp [hfound, hheld, hown]

theorem Dev.hdropAt_owner {x : HoldEnt} (hfound : d.holdAt k.di k.addr = some x) (hheld : x.held = true) (hnode : x.node = k.src.toNat) (hown : x.ownedBy k = true) :
    d.hdropAt k = d.breakHold x := by
  unfold Dev.hdropAt
  simp [hfound, hheld, hnode, hown]

theorem Dev.tickHold_overdue {i : Nat} {a : W64} {x : HoldEnt} (hfound : d.holdAt i a = some x) (hheld : x.held = true) (hlease : x.lease ≤ d.tallyMs) :
    d.tickHold i a = d.expireHold x := by
  unfold Dev.tickHold
  simp [hfound, hheld, hlease]

end

/-- A write that is served and lies in an inbound window goes to host memory. -/
theorem packet_inboundWrite {s : State} {via : Via} {v : BitVec 3} {q : Pkt} {x : Nat × List W64} (hserves : s.dev.serves via v.toNat q = true)
    (hwrite : q.opcode.toNat = 2 ∨ q.opcode.toNat = 3)
    (hwin : (s.dev.taken via q).winLookup q.di 2 q.addr.toNat = some x) (hok : (s.dev.taken via q).inboundOk q x.2 = true) :
    packet s via v q = .next (s.after ((((s.dev.taken via q).inboundAt q x.2).hostWr via q (hostAddr q x.2)).drainLane 33 q.lane)) := by
  rw [packet_serves hserves, Dev.serve_memory (by omega) (by omega), Dev.memoryOp_inside hwin, Dev.inbound_permitted hok, if_pos hwrite]

/-- A read or an atomic that is served and lies in an inbound window becomes a non-posted request to the host. -/
theorem packet_inboundRead {s : State} {via : Via} {v : BitVec 3} {q : Pkt} {x : Nat × List W64} (hserves : s.dev.serves via v.toNat q = true)
    (hlow : 1 ≤ q.opcode.toNat) (hhigh : q.opcode.toNat ≤ 6) (hread : ¬ (q.opcode.toNat = 2 ∨ q.opcode.toNat = 3))
    (hwin : (s.dev.taken via q).winLookup q.di 2 q.addr.toNat = some x) (hok : (s.dev.taken via q).inboundOk q x.2 = true) :
    packet s via v q = .next (s.after ((((s.dev.taken via q).inboundAt q x.2).hostNp via q (hostAddr q x.2)).drainLane 33 q.lane)) := by
  rw [packet_serves hserves, Dev.serve_memory hlow hhigh, Dev.memoryOp_inside hwin, Dev.inbound_permitted hok, if_neg hread]

/-- A memory request that is served and lies in no window goes to the local design. -/
theorem packet_toLocal {s : State} {via : Via} {v : BitVec 3} {q : Pkt} {p : Nat} (hserves : s.dev.serves via v.toNat q = true)
    (hlow : 1 ≤ q.opcode.toNat) (hhigh : q.opcode.toNat ≤ 6) (hwin : (s.dev.taken via q).winLookup q.di 2 q.addr.toNat = none) (hok : (s.dev.taken via q).localOk q p = true) :
    packet s via v q = .next (s.after (((s.dev.taken via q).deliverNow p via q).drainLane 33 q.lane)) := by
  rw [packet_serves hserves, Dev.serve_memory hlow hhigh, Dev.memoryOp_outside hwin, Dev.toLocal_open hok]

/-- Settles O34: each row is a packet with its opcode, and the window decides where it goes. -/
theorem memoryRequestsComplete : Obligations.MemoryRequestsComplete := by
  refine ⟨?_, ?_, ?_⟩
  · intro s via vc k op c x hrow hserves hwin hok
    simp only [List.mem_cons, Prod.mk.injEq, List.not_mem_nil, or_false] at hrow
    have hexec : exec c s = packet s via vc { k with opcode := op } := by
      rcases hrow with ⟨rfl, rfl⟩ | ⟨rfl, rfl⟩ <;> rfl
    have hwrite : op.toNat = 2 ∨ op.toNat = 3 := by
      rcases hrow with ⟨-, rfl⟩ | ⟨-, rfl⟩ <;> decide
    exact hexec.trans (packet_inboundWrite hserves hwrite hwin hok)
  · intro s via vc k op c x hrow hserves hwin hok
    simp only [List.mem_cons, Prod.mk.injEq, List.not_mem_nil, or_false] at hrow
    have hexec : exec c s = packet s via vc { k with opcode := op } := by
      rcases hrow with ⟨rfl, rfl⟩ | ⟨rfl, rfl⟩ | ⟨rfl, rfl⟩ | ⟨rfl, rfl⟩ <;> rfl
    obtain ⟨hlow, hhigh, hread⟩ : 1 ≤ op.toNat ∧ op.toNat ≤ 6 ∧ ¬ (op.toNat = 2 ∨ op.toNat = 3) := by
      rcases hrow with ⟨-, rfl⟩ | ⟨-, rfl⟩ | ⟨-, rfl⟩ | ⟨-, rfl⟩ <;> decide
    exact hexec.trans (packet_inboundRead hserves hlow hhigh hread hwin hok)
  · intro s via vc k op c p hrow hserves hwin hok
    simp only [List.mem_cons, Prod.mk.injEq, List.not_mem_nil, or_false] at hrow
    have hexec : exec c s = packet s via vc { k with opcode := op } := by
      rcases hrow with ⟨rfl, rfl⟩ | ⟨rfl, rfl⟩ | ⟨rfl, rfl⟩ | ⟨rfl, rfl⟩ | ⟨rfl, rfl⟩ | ⟨rfl, rfl⟩ <;> rfl
    obtain ⟨hlow, hhigh⟩ : 1 ≤ op.toNat ∧ op.toNat ≤ 6 := by
      rcases hrow with ⟨-, rfl⟩ | ⟨-, rfl⟩ | ⟨-, rfl⟩ | ⟨-, rfl⟩ | ⟨-, rfl⟩ | ⟨-, rfl⟩ <;> decide
    exact hexec.trans (packet_toLocal hserves hlow hhigh hwin hok)

/-- Settles O35: a message, a fence, a probe and an undefined opcode, each by what serving it does. -/
theorem messageFenceAndProbeComplete : Obligations.MessageFenceAndProbeComplete := by
  refine ⟨?_, ?_, ?_, ?_, ?_, ?_⟩
  · intro s via vc k hserves hblock hring
    have hdone := packet_serves hserves
    rw [Dev.serve_msg (k := { k with opcode := 7#8 }) rfl hblock hring] at hdone
    exact hdone
  · intro s via vc k hserves hblock hring
    have hdone := packet_serves hserves
    rw [Dev.serve_msga (k := { k with opcode := 8#8 }) rfl hblock hring] at hdone
    exact hdone
  · exact fun s via vc k hserves => packet_serves hserves
  · exact fun s via vc k d hadm hclass hform henc hd => packet_bypass hadm rfl (Dev.perform_probe rfl hclass hform henc hd)
  · intro s via vc k hlane hop hclass
    have hdone := packet_inLane hlane
    rw [Dev.perform_undefined hop, hclass] at hdone
    exact (if_pos hop).trans hdone
  · intro s via vc k hlane hop hclass
    have hdone := packet_inLane hlane
    rw [Dev.perform_undefined hop, hclass] at hdone
    exact (if_pos hop).trans hdone

/-- A hold request that is served acts at its home. -/
theorem packet_hold {s : State} {via : Via} {v : BitVec 3} {q : Pkt} {e : Dev} (hserves : s.dev.serves via v.toNat q = true)
    (hop : 0x10 ≤ q.opcode.toNat ∧ q.opcode.toNat ≤ 0x13) (he : (s.dev.taken via q).holdOp q = e) : packet s via v q = .next (s.after (e.drainLane 33 q.lane)) := by
  rw [packet_serves hserves, Dev.serve_hold hop.1 hop.2, he]

/-- Settles O36: each hold opcode at its home, the drop, and the end of a lease. -/
theorem holdRequestsComplete : Obligations.HoldRequestsComplete := by
  refine ⟨?_, ?_, ?_, ?_, ?_, ?_, ?_⟩
  · rintro s via vc k q d rfl hd hserves htwin hnone hroom
    exact packet_hold hserves (show 0x10 ≤ (0x10#8).toNat ∧ (0x10#8).toNat ≤ 0x13 by decide) ((Dev.holdOp_hacq rfl htwin).trans (Dev.hacqAt_new htwin hd hnone hroom))
  · rintro s via vc k q d e rfl hd hserves htwin hfound hown
    exact packet_hold hserves (show 0x10 ≤ (0x10#8).toNat ∧ (0x10#8).toNat ≤ 0x13 by decide) ((Dev.holdOp_hacq rfl htwin).trans (Dev.hacqAt_own htwin hd hfound hown))
  · rintro s via vc k q d e rfl hd hserves htwin hfound hheld hown
    exact packet_hold hserves (show 0x10 ≤ (0x11#8).toNat ∧ (0x11#8).toNat ≤ 0x13 by decide) ((Dev.holdOp_hrel rfl htwin).trans (Dev.hrelAt_owner hd hfound hheld hown))
  · rintro s via vc k q d e rfl hd hserves htwin hfound hheld hown
    exact packet_hold hserves (show 0x10 ≤ (0x12#8).toNat ∧ (0x12#8).toNat ≤ 0x13 by decide) ((Dev.holdOp_hrenew rfl htwin).trans (Dev.hrenewAt_owner hd hfound hheld hown))
  · rintro s via vc k q d rfl rfl hserves htwin
    exact packet_hold hserves (show 0x10 ≤ (0x13#8).toNat ∧ (0x13#8).toNat ≤ 0x13 by decide) (Dev.holdOp_hquery rfl htwin)
  · rintro s via vc k q d e rfl hd hadm hclass hform henc hflr hgone hreset hfound hheld hnode hown
    exact packet_bypass hadm rfl ((Dev.perform_hdrop rfl hclass hform henc hd hflr hgone hreset).trans (Dev.hdropAt_owner hfound hheld hnode hown))
  · exact fun s i a e hp hfound hheld hlease => chip_next_of hp (Dev.tickHold_overdue hfound hheld hlease)

end Sys2Proof.Machine
end

section
/-! PROOFS. The local design's requests, responses, forwarding and the timers of transport (08, 09, 11), and the statements LocalDesignRequestsComplete, ResponsesAndForwardingComplete and TransportTimersComplete. -/
namespace Sys2Proof.Machine

section
variable {d : Dev} {via : Via} {vc : Nat} {k : Pkt}

/-! ### Requests of the local design (R398, R399, R409) -/

/-- On a request channel, a packet of a local port is a request of its design. -/
theorem packet_local {s : State} {p : LPort} {v : BitVec 3} (hlow : 1 ≤ v.toNat) (hhigh : v.toNat ≤ 6) :
    packet s (.loc p) v k = actIf s (s.dev.viaHere (.loc p) k) (fun d => d.localReq p v.toNat k) := by
  unfold packet
  simp only [hlow, hhigh, decide_true, Bool.and_true]

theorem Dev.localReq_admitted {p : LPort} {e : Dev} (he : e = d.consume (.loc p) k) (hdrain : e.draining = false) (hdrop : k.opcode ≠ 0x14#8)
    (hop : opClass k.opcode = some (vcClass vc)) (hform : malformed k = false) (henc : reservedEnc k = false) (hspoof : e.localSpoof p.val k = none)
    (htag : vcClass vc = .nonPosted → e.localTagBusy p.val k.tag = false) : d.localReq p vc k = e.localOrder p.val vc k := by
  have htag' : (decide (vcClass vc = .nonPosted) && e.localTagBusy p.val k.tag) = false := by
    by_cases hclass : vcClass vc = .nonPosted
    · simp [htag hclass]
    · simp [hclass]
  subst he
  unfold Dev.localReq
  simp only [hdrain, hdrop, hop, hform, henc, hspoof, htag', if_false, ne_eq, not_true, decide_false, Bool.or_self, Bool.false_eq_true]

theorem Dev.localOrder_next {p : Nat} (hopen : k.laneOpen = false) (hexp : d.admitAt (admitKey p k) = some k.sseq.toNat) :
    d.localOrder p vc k = ((d.setAdmit (admitKey p k) (k.sseq.toNat + 1)).localSubmit p k).drainAdmit 17 p (admitKey p k) := by
  have hzero : (k.sseq.toNat + 65536 - k.sseq.toNat) % 65536 = 0 := by omega
  unfold Dev.localOrder
  simp only [hopen, Bool.false_eq_true, if_false, hexp, hzero, if_true]

theorem Dev.localSkip_lowest {p x e : Nat} {q : Parked} (hexp : d.admitAt x = some e) (hpark : d.trn.lpark.filter (fun q => q.key = x) = [q]) :
    d.localSkip p x = (((d.bump (F.winLpOrder_order_break p)).raise 221).setAdmit x (e + (q.pkt.sseq.toNat + 65536 - e) % 65536)).drainAdmit 17 p x := by
  unfold Dev.localSkip
  rw [hexp, hpark]
  rfl

/-! ### Responses (R318, R320, R396) -/

theorem rspPacket_response {s : State} {r : Pkt} {e : Dev} (hvia : ∀ p, via ≠ .loc p) (hhere : s.dev.viaHere via r = true) (hself : (s.dev.consume via r).isSelf r.dst = true)
    (he : (s.dev.consume via r).response r = e) : rspPacket s via r = .next (s.after e) := by
  have harrive : s.dev.arriveRsp via r = e := (if_neg (by simp [hself])).trans he
  cases via with
  | loc p => exact absurd rfl (hvia p)
  | fabric p => exact actIf_next_of hhere harrive
  | turn => exact actIf_next_of hhere harrive

theorem Dev.response_matched {r : Pkt} {f : FTag} (hquar : d.sto.quar.find? r.tag.toNat = none) (htag : d.trn.tags.find? r.tag.toNat = some f) (huse : f.pkt.tagUse = r.tagUse)
    (hlegal : rspLegal r.code.toNat r.detail.toNat = true) (hbusy : r.code ≠ 2#8) : d.response r = ((d.freeFabricTag r.tag.toNat).finishWho f.who f.pkt r).pump := by
  unfold Dev.response
  simp only [hquar, htag, huse, hlegal, hbusy, Option.isSome_none, Bool.false_eq_true, if_false, ne_eq, not_true, Bool.not_true, decide_false, Bool.false_and]

theorem Dev.localAnswer_matched {p : Nat} {r : Pkt} {l : LTag} (hrange : r.tag.toNat < 4096) (hquar : d.sto.quar.find? (131072 + (p * 4096 + r.tag.toNat)) = none)
    (htag : d.trn.ltags.find? (p * 4096 + r.tag.toNat) = some l) (hdeliver : l.deliver = true) (huse : r.tagUse = d.trn.luse.lk 0#8 (p * 4096 + r.tag.toNat))
    (hinst : r.si = l.pkt.di) (hcode : localCode r.code.toNat r.detail.toNat = true) (hgen : l.gen = d.generation (8 + p)) :
    d.localAnswer p r = ((((d.freeLocalTag (p * 4096 + r.tag.toNat)).respond l.pkt r.code.toNat r.detail.toNat (if r.code = 1#8 ∨ r.code = 6#8 then r.data else [])
      r.retryAfter.toNat l.gen).pumpLocal).pump) := by
  have hgen' : ¬ l.gen ≠ (d.freeLocalTag (p * 4096 + r.tag.toNat)).generation (8 + p) := not_not_intro hgen
  unfold Dev.localAnswer
  simp only [hrange, if_true, hquar, htag, hdeliver, ← huse, hinst, hcode, Option.isSome_none, Bool.false_eq_true, if_false, ne_eq, not_true, Bool.not_true, decide_false,
    Bool.or_self, Bool.or_eq_true, decide_eq_true_eq]
  exact if_neg hgen'

/-! ### Forwarding (R284, R285, R288) -/

theorem Dev.forward_normal {p : Nat} (hcarries : d.noTransport = false) (httl : k.ttl ≠ 0#8) (hesc : k.esc = false) (hhop : d.normalHop k.dst k.flow = some p) :
    d.forward via vc k = d.enqueue p (transitGroup via) ⟨.tp { k with ttl := k.ttl - 1 }, (vcClass vc).vc, pktSize k⟩ := by
  unfold Dev.forward
  simp only [hcarries, httl, hesc, hhop, Bool.false_eq_true, if_false]

theorem Dev.arrive_transit (hclass : vcClass vc ≠ .response) {e : Dev} (he : e = d.consume via k) (hjoined : e.joined = true) (hdrain : e.draining = false)
    (hself : e.isSelf k.dst = false) : d.arrive via vc k = e.forward via vc k := by
  subst he
  unfold Dev.arrive
  simp only [hclass, hjoined, hdrain, hself, if_false, if_true, Bool.not_true, Bool.not_false, Bool.false_eq_true]

theorem Dev.arriveRsp_transit {e : Dev} (he : e = d.consume via k) (hself : e.isSelf k.dst = false) : d.arriveRsp via k = e.forward via 2 k := by
  subst he
  exact if_pos (by simp [hself])

theorem Dev.escapeMove_response {p : Nat} {q : QEnt} (hstuck : d.ded p vc + d.sharedCr p = 0 ∨ d.portOpen p = false)
    (hfind : (d.egress p).rsp.find? (fun q => (escapable vc q).isSome) = some q) (hk : escapable vc q = some k) :
    d.escapeMove p vc = (d.setEgress p { d.egress p with rsp := (d.egress p).rsp.erase q }).toEscape k.si vc k := by
  have hnot : ¬ (decide (0 < d.ded p vc + d.sharedCr p) && d.portOpen p) = true := by
    rcases hstuck with h | h <;> simp only [h] <;> simp
  unfold Dev.escapeMove
  rw [if_neg hnot]
  simp only [hfind, hk]

/-! ### Timers (R308, R313, R316, R317) -/

theorem Dev.gapSkipLane_lowest {lane e : Nat} {q : Parked} (hexp : d.laneExp lane = some e) (hpark : d.trn.park.filter (fun q => q.key = lane) = [q]) :
    d.gapSkipLane lane = (((d.bump F.trnCntGapSkip_count).raise 204).setLane lane (e + (q.pkt.sseq.toNat + 65536 - e) % 65536)).drainLane 33 lane := by
  unfold Dev.gapSkipLane
  rw [hexp, hpark]
  rfl

theorem Dev.retryTag_routed {t : Nat} {f : FTag} {q : Pkt} {e : Dev} (htag : d.trn.tags.find? t = some f) (hbusy : f.busyWait = true) (hlane : d.laneReady f.pkt = true)
    (hq : q = { f.pkt with flags := BitVec.ofNat 8 (setBit f.pkt.flags.toNat 2 true) })
    (he : e = ({ d with trn := { d.trn with tags := d.trn.tags.ins t ⟨q, f.who, false⟩ } } : Dev).bump F.trnCntBusyRetry_count) (hroute : e.hasRoute q = true) :
    d.retryTag t = ((e.laneNumber q).2.sendPkt (e.laneNumber q).1).pump := by
  subst hq he
  unfold Dev.retryTag
  rw [htag]
  exact (if_neg (by simp [hbusy, hlane])).trans (if_pos hroute)

theorem Dev.tagExpired_held {t : Nat} {f : FTag} (htag : d.trn.tags.find? t = some f) :
    d.tagExpired t = (((d.bump F.trnCntTimeout_count).raise 202).endTag t f 3 2).pump := by
  unfold Dev.tagExpired
  rw [htag]

theorem Dev.localTagExpired_delivered {t : Nat} {l : LTag} (htag : d.trn.ltags.find? t = some l) (hdeliver : l.deliver = true) :
    d.localTagExpired t = (((d.freeLocalTag t).respond l.pkt 3 2 [] 0 l.gen).pumpLocal).pump := by
  unfold Dev.localTagExpired
  rw [htag]
  exact if_pos hdeliver

end

/-- Settles O37: the rows of a local port are one row, and the order of a stream by its expected number. -/
theorem localDesignRequestsComplete : Obligations.LocalDesignRequestsComplete := by
  refine ⟨?_, ?_, ?_⟩
  · intro s p vc k op c hlow hhigh hrow
    have hexec : exec c s = packet s (.loc p) vc { k with opcode := op } := by
      simp only [List.mem_cons, Prod.mk.injEq, List.not_mem_nil, or_false] at hrow
      rcases hrow with ⟨rfl, rfl⟩ | ⟨rfl, rfl⟩ | ⟨rfl, rfl⟩ | ⟨rfl, rfl⟩ | ⟨rfl, rfl⟩ | ⟨rfl, rfl⟩ | ⟨rfl, rfl⟩ | ⟨rfl, rfl⟩ | ⟨rfl, rfl⟩ | ⟨rfl, rfl⟩ | ⟨rfl, rfl⟩ |
        ⟨rfl, rfl⟩ | ⟨rfl, rfl⟩ | ⟨rfl, rfl⟩ | ⟨rfl, rfl⟩ <;> rfl
    exact hexec.trans (packet_local hlow hhigh)
  · exact fun s p vc k d hd hhere hdrain hdrop hop hform henc hspoof htag hopen hexp =>
      actIf_next_of hhere ((Dev.localReq_admitted hd hdrain hdrop hop hform henc hspoof htag).trans (Dev.localOrder_next hopen hexp))
  · rintro s p i dst key x e q rfl hp hexp hpark
    exact chip_next_of hp (Dev.localSkip_lowest hexp hpark)

/-- Settles O38: a response by its tag, a transit packet by its route, and the move to the escape network. -/
theorem responsesAndForwardingComplete : Obligations.ResponsesAndForwardingComplete := by
  refine ⟨?_, ?_, ?_, ?_⟩
  · rintro s via vc k r d f hclass rfl rfl hhere hvia hself hquar htag huse hlegal hbusy
    exact ⟨(if_pos hclass).trans (rspPacket_response hvia hhere hself (Dev.response_matched hquar htag huse hlegal hbusy)), rfl⟩
  · rintro s p vc k r d l hclass rfl rfl hhere hrange hquar htag hdeliver huse hinst hcode hgen
    exact (if_pos hclass).trans (actIf_next_of hhere (Dev.localAnswer_matched hrange hquar htag hdeliver huse hinst hcode hgen))
  · intro s via vc k d p hd hhere hother hself hreq hcarries httl hesc hhop
    refine actIf_next_of (by simp [hhere, hother]) ?_
    by_cases hclass : vcClass vc.toNat = .response
    · simp only [hclass, if_true]
      exact (Dev.arriveRsp_transit hd hself).trans (Dev.forward_normal hcarries httl hesc hhop)
    · simp only [hclass, if_false]
      obtain ⟨hjoined, hdrain⟩ := hreq hclass
      exact (Dev.arrive_transit hclass hd hjoined hdrain hself).trans (Dev.forward_normal hcarries httl hesc hhop)
  · exact fun s p vc q k hp hstuck hfind hk => chip_next_of hp (Dev.escapeMove_response hstuck hfind hk)

/-- Settles O39: what waits is tried again, and each timer by what it finds. -/
theorem transportTimersComplete : Obligations.TransportTimersComplete := by
  refine ⟨?_, ?_, ?_, ?_, ?_, ?_, ?_⟩
  · exact fun s hp => ⟨chip_next_of hp rfl, chip_next_of hp rfl, chip_next_of hp rfl, fun p => ⟨chip_next_of hp rfl, chip_next_of hp rfl⟩⟩
  · exact fun s n f e q hp hexp hpark => chip_next_of hp (Dev.gapSkipLane_lowest hexp hpark)
  · exact fun s n f hp => chip_next_of hp rfl
  · exact fun s p src i key hp => chip_next_of hp rfl
  · exact fun s t f k d hp htag hbusy hlane hk hd hroute => chip_next_of hp (Dev.retryTag_routed htag hbusy hlane hk hd hroute)
  · exact fun s t f hp htag => chip_next_of hp (Dev.tagExpired_held htag)
  · exact fun s p t l hp htag hdeliver => chip_next_of hp (Dev.localTagExpired_delivered htag hdeliver)

end Sys2Proof.Machine
end

section
/-! PROOFS. The host port (10): a pending-bit table out of order, the host's memory requests, the host link, and the statements ConfigurationCommandsComplete, HostMemoryRequestsComplete and HostLinkCommandsComplete. -/
namespace Sys2Proof.Machine

/-! ### A pending bit that comes to light (R361, R374) -/

/-- A device in a pitch whose record store is full, so that a record is missed and the change log calls for attention by vector 5 of the PF. Its pending-bit table is out of order: bit 3 stands behind bit 5, so that a reader misses it until bit 5 is gone. Vectors 3 and 5 are unmasked. -/
def misorderedPba : Dev :=
  { Dev.reset with
    regs := [(R.pitPitchStatus, 0x400D#64), (R.clgAttnCfg, 0x80000000#64), (R.clgAttnVec, 5#64), (R.hstPfVectors, 15#64)]
    pins := ⟨true, false, false, true, true⟩
    pit := { Dev.reset.pit with ready := true, sampled := true }
    hst := { Dev.reset.hst with cfg := [(4, 6#32), (cfgMsix, 0x80000000#32)], dlUp := true, msix := [(15, 0#32), (23, 0#32)], pba := [(5, true), (3, true)] }
    clg := { Dev.reset.clg with watch := List.replicate 256 loggedRec } }

/-- The pending bit of vector 3 of the PF after a command; false where the machine stopped. -/
def pendingThree (o : Host.Outcome State Fault Refusal) : Bool := match o with
  | .next s => s.dev.hst.pba.lk false 3
  | _ => false

/-- The write of dword 1 of entry 3 as the record gives it. -/
def tableCtx : WCtx := ⟨.manager, 3, 0, 0x34, false, 15, BitVec.ofNat 64 7⟩

/-- The missed record sends vector 5, which uncovers bit 3; the write of entry 3 then sends vector 3. -/
theorem pendingThree_exec : pendingThree (exec (.msixTableWrite 0 0x34#24 false 15#8 7#64) ⟨misorderedPba, []⟩) = false := by decide +kernel

/-- Refutes O40: on a state whose pending-bit table is out of order the record of an MSI-X table write can uncover the pending bit of the very vector, which the write then sends; the statement stores the dword and nothing else. -/
theorem not_configurationCommandsComplete : ¬ Obligations.ConfigurationCommandsComplete := by
  rintro ⟨-, -, -, -, -, htable⟩
  have hstored := htable ⟨misorderedPba, []⟩ 0 0x34#24 7#64 tableCtx 0#32 7#32 (by decide +kernel) (by decide +kernel) (by decide +kernel) (by decide +kernel)
    (by decide +kernel) (by decide +kernel) (by decide +kernel) (by decide +kernel) (by decide +kernel) (by decide +kernel) rfl (by decide +kernel)
  have hpending := congrArg pendingThree hstored
  rw [pendingThree_exec] at hpending
  exact absurd hpending (by decide +kernel)

end Sys2Proof.Machine
end

section
/-! PROOFS. Requests of the host and the host link (10), and the statements HostMemoryRequestsComplete and HostLinkCommandsComplete. -/
namespace Sys2Proof.Machine

/-- A condition on the host link makes the change happen. -/
theorem host_next_of {s : State} {f : Dev → Dev} {e : Dev} (h : s.dev.hostHere = true) (he : f s.dev = e) : host s f = .next (s.after e) := actIf_next_of h he

section
variable {d : Dev} {fn o : Nat} {bs : List Byte} {be : List Bool} {ep : Bool} {w : Nat × List W64}

/-! ### Requests to BAR2 (R352, R385, R386, R390) -/

theorem Dev.hostWrite2_now (hqueue : d.win.stalled = []) : d.hostWrite2 fn o bs be ep = d.hostWriteNow fn o bs be ep :=
  if_pos (by rw [hqueue]; rfl)

theorem Dev.hostWrite2_waits (hqueue : d.win.stalled ≠ []) :
    d.hostWrite2 fn o bs be ep = { d with win := { d.win with stalled := d.win.stalled ++ [.write fn o bs be ep] } } :=
  if_neg (by simpa using hqueue)

theorem Dev.hostWriteNow_permitted (hsize : o < d.bar2Size fn) (hstop : d.bar2Stop fn = none) (hwin : d.winLookup fn 1 o = some w) (hperm : bitOf (bget w.2 35 1) 1 = true) :
    d.hostWriteNow fn o bs be false =
      if (bitOf (bget w.2 35 1) 3 && decide (o / 64 = (o + bs.length - 1) / 64) && !false) = true then d.combine fn w.1 o w.2 bs be else d.directWrite fn o w.2 bs be false := by
  unfold Dev.hostWriteNow
  rw [if_neg (Nat.not_le.2 hsize)]
  simp only [hstop, hwin, hperm, Bool.not_true, Bool.false_eq_true, if_false]

theorem Dev.hostWrite2_combines (hqueue : d.win.stalled = []) (hsize : o < d.bar2Size fn) (hstop : d.bar2Stop fn = none) (hwin : d.winLookup fn 1 o = some w)
    (hperm : bitOf (bget w.2 35 1) 1 = true) (hcombine : bitOf (bget w.2 35 1) 3 = true) (hline : o / 64 = (o + bs.length - 1) / 64) :
    d.hostWrite2 fn o bs be false = d.combine fn w.1 o w.2 bs be := by
  rw [Dev.hostWrite2_now hqueue, Dev.hostWriteNow_permitted hsize hstop hwin hperm]
  exact if_pos (by simp [hcombine, ← hline])

theorem Dev.hostWrite2_direct (hqueue : d.win.stalled = []) (hsize : o < d.bar2Size fn) (hstop : d.bar2Stop fn = none) (hwin : d.winLookup fn 1 o = some w)
    (hperm : bitOf (bget w.2 35 1) 1 = true) (hplain : bitOf (bget w.2 35 1) 3 = false) :
    d.hostWrite2 fn o bs be false = d.directWrite fn o w.2 bs be false := by
  rw [Dev.hostWrite2_now hqueue, Dev.hostWriteNow_permitted hsize hstop hwin hperm]
  exact if_neg (by simp [hplain])

/-- A non-posted request through a window that permits it sends the open lines of its stream and is submitted. -/
theorem Dev.hostNp2_permitted {op len perm : Nat} {rt : BitVec 16} {st : Nat × Nat × W32} {e e' : Dev} (hqueue : d.win.stalled = []) (hsize : o < d.bar2Size fn) (hstop : d.bar2Stop fn = none)
    (hwin : d.winLookup fn 1 o = some w) (hperm : bitOf (bget w.2 35 1) perm = true) (hst : st = (fn, bget w.2 24 2 % 4096, winKey w.2 o))
    (he : e = (d.bumpBy F.winCntWcNpFlush_count (d.win.lines.filter (fun l => !l.sending && l.stream = st)).length).flushLines (fun l => l.stream = st))
    (he' : e' = { e with hst := { e.hst with reqs := e.hst.reqs.ins (fn * 65536 + rt.toNat) ⟨fn, rt, o, len⟩ } }) :
    d.hostNp2 op fn rt o len bs perm = e'.submit (.host fn rt) (e'.winReq op fn o w.2 len bs false) := by
  subst hst he he'
  refine (if_pos (by rw [hqueue]; rfl)).trans ((if_neg (Nat.not_le.2 hsize)).trans ?_)
  simp only [hstop, hwin, hperm, Bool.not_true, Bool.false_eq_true, if_false]

theorem Dev.cplLimit_outstanding {rt : BitVec 16} {r : HReq} (hreq : d.hst.reqs.find? (fn * 65536 + rt.toNat) = some r) :
    d.cplLimit fn rt = (({ d with hst := { d.hst with reqs := d.hst.reqs.del (fn * 65536 + rt.toNat) } } : Dev).hostRefuse fn rt true).raise 215 := by
  unfold Dev.cplLimit
  rw [hreq]

/-! ### The host link (R338, R339, R363, R366, R368) -/

theorem Dev.hostUp_dlUp (d : Dev) (speed width : Nat) (flit : Bool) : (d.hostUp speed width flit).hst.dlUp = true := by
  unfold Dev.hostUp Dev.whenD
  dsimp only
  split <;> rfl

theorem Dev.hostLinkUp_trains {speed width : Nat} {flit : Bool} (htrains : d.hostTrains = true) (hdown : d.hst.dlUp = false) :
    d.hostLinkUp speed width flit = d.hostUp speed width flit :=
  if_pos (by simp [htrains, hdown])

theorem Dev.hotReset_up (hup : d.hst.dlUp = true) : d.hotReset = (d.linkLost 7).hstCounters := if_pos hup

theorem Dev.dlDown_up (hup : d.hst.dlUp = true) (hperst : d.pins.perst = false) : d.dlDown = ((d.linkLost 0).hstCounters).raise 208 :=
  (if_pos (by simp [hup, hperst])).trans (if_pos (by simp [hperst]))

theorem Dev.l1Entry_idle (hup : d.hst.dlUp = true) (hstate : d.g F.hstStatus_ltssm = 3) (hallow : d.cfgBit 0 cfgLinkCtl 1 = true) (hidle : (d.egress 12).isEmpty = true) :
    d.l1Entry .l1 = { d.s F.hstStatus_ltssm 5 with hst := { d.hst with l1 := .l1 } } :=
  (if_neg (by simp [hup, hstate, hallow, hidle])).trans (if_neg (by intro h; cases h))

theorem Dev.l1Leave_shallow (hup : d.hst.dlUp = true) (hstate : d.g F.hstStatus_ltssm = 5) (hdepth : d.hst.l1 ≠ .l12) :
    d.l1Leave = { d.s F.hstStatus_ltssm 3 with hst := { d.hst with l1 := .l1 } } :=
  (if_neg (by simp [hup, hstate])).trans (if_neg (ne_true_of_eq_false (decide_eq_false hdepth)))

theorem Dev.hostCorrEnd_exceeds (hmany : d.g F.hstCorrThresh_count < d.hst.corr) : d.hostCorrEnd = ({ d with hst := { d.hst with corr := 0 } } : Dev).raise 214 :=
  if_pos (decide_eq_true hmany)

/-! ### Completions (R356, R358) -/

theorem Dev.hostCpl_matched {t : Nat} {h : HTag} (hquar : d.sto.quar.find? (65536 + t) = none) (htag : d.hst.tags.find? t = some h) (hfresh : h.stale = false) :
    d.hostCpl t .sc bs = ((d.freeHostTag t).pieceDone h bs none).pumpHost ∧ d.hostCpl t .poisoned bs = ((d.freeHostTag t).pieceDone h bs (some (6#8, 0#8))).pumpHost ∧
    d.hostCpl t .ur bs = ((d.freeHostTag t).pieceDone h [] (some (4#8, 2#8))).pumpHost ∧ d.hostCpl t .ca bs = ((d.freeHostTag t).pieceDone h [] (some (7#8, 1#8))).pumpHost := by
  unfold Dev.hostCpl
  simp only [hquar, htag, hfresh, Option.isSome_none, Bool.false_eq_true, if_false, and_self]

theorem Dev.hostCplTimeout_waiting {t : Nat} {h : HTag} (htag : d.hst.tags.find? t = some h) (hfresh : h.stale = false) :
    d.hostCplTimeout t = (((((d.freeHostTag t).bump F.hstCntCplTimeout_count).aerUnc h.fn 14 false).pieceDone h [] (some (3#8, 2#8))).raise 210).pumpHost := by
  unfold Dev.hostCplTimeout
  simp only [htag, hfresh, Bool.false_eq_true, if_false]

end

/-- Settles O41: a write combines, goes out at once or waits; a read and an atomic flush their stream; the limit of a completion. -/
theorem hostMemoryRequestsComplete : Obligations.HostMemoryRequestsComplete := by
  refine ⟨?_, ?_, ?_, ?_, ?_, ?_⟩
  · exact fun s fn o bs be w hhere hqueue hsize hstop hwin hperm hcombine hline => host_next_of hhere (Dev.hostWrite2_combines hqueue hsize hstop hwin hperm hcombine hline)
  · exact fun s fn o bs be w hhere hqueue hsize hstop hwin hperm hplain => host_next_of hhere (Dev.hostWrite2_direct hqueue hsize hstop hwin hperm hplain)
  · exact fun s fn t o n w st d e hst hd he hhere hqueue hsize hstop hwin hperm => host_next_of hhere (Dev.hostNp2_permitted hqueue hsize hstop hwin hperm hst hd he)
  · intro s fn t o a b w st d e hst hd he hhere hqueue hsize hstop hwin hperm
    have hnp (op : Nat) := Dev.hostNp2_permitted (op := op) (bs := b) hqueue hsize hstop hwin hperm hst hd he
    refine host_next_of hhere ?_
    cases a with
    | fetchAdd => exact hnp 4
    | swap => exact hnp 5
    | cas => exact hnp 6
  · exact fun s fn o bs be ep hhere hqueue => host_next_of hhere (Dev.hostWrite2_waits hqueue)
  · exact fun s fn t r hp hreq => chip_next_of hp (Dev.cplLimit_outstanding hreq)

/-- Settles O42: the host link's events by their guards, the errors and messages by their kind, and the ends of a host tag. -/
theorem hostLinkCommandsComplete : Obligations.HostLinkCommandsComplete := by
  refine ⟨?_, ?_, ?_, ?_, ?_, ?_, ?_, ?_, ?_, ?_⟩
  · exact fun s v w f hp htrains hdown => ⟨chip_next_of hp (Dev.hostLinkUp_trains htrains hdown), Dev.hostUp_dlUp _ _ _ _⟩
  · exact fun s hp hup => chip_next_of hp (Dev.hotReset_up hup)
  · exact fun s hp hup hperst => chip_next_of hp (Dev.dlDown_up hup hperst)
  · exact fun s hp hup hstate hallow hidle => chip_next_of hp (Dev.l1Entry_idle hup hstate hallow hidle)
  · exact fun s hp hup hstate hdepth => chip_next_of hp (Dev.l1Leave_shallow hup hstate hdepth)
  · intro s fn hhere
    have herror (e : HostErr) := host_next hhere (fun d => d.hostError e fn.toNat)
    exact ⟨herror .receiver, herror .badTlp, herror .badDllp, herror .replayRollover, herror .replayTimer, herror .dataLink, herror .flowControl, herror .overflow,
      herror .malformed, herror .unexpectedCpl⟩
  · exact fun s hp hmany => chip_next_of hp (Dev.hostCorrEnd_exceeds hmany)
  · intro s fn x hhere
    have hmessage := host_next hhere (fun d => d.hostMsg fn.toNat x)
    refine ⟨?_, ?_, ?_⟩
    · rintro (rfl | rfl | rfl | rfl) <;> exact hmessage
    · rintro (rfl | rfl) <;> exact hmessage
    · rintro (rfl | rfl) <;> exact hmessage
  · intro s t b h hhere hquar htag hfresh
    obtain ⟨hsc, hpoisoned, hur, hca⟩ := Dev.hostCpl_matched (bs := b) hquar htag hfresh
    exact ⟨host_next_of hhere hsc, host_next_of hhere hpoisoned, host_next_of hhere hur, host_next_of hhere hca⟩
  · exact fun s t h hp htag hfresh => chip_next_of hp (Dev.hostCplTimeout_waiting htag hfresh)

end Sys2Proof.Machine
end

section
/-! PROOFS. The manager's commands for windows and instances (11, 12), and the statements WindowCommandsComplete and InstanceCommandsComplete. -/
namespace Sys2Proof.Machine

/-! ### A command word -/

/-- Refused with an effect: the rejected record, then the effect (R558). -/
theorem regWr_mgr_badEff {s : State} {off : Nat} {x : W32} {old : W64} {eff : Dev → Dev} (hready : s.dev.ready off = true) (halign : off % 4 = 0) (hbound : off < 2 ^ 24)
    (hmapped : regMapped off = true) (htoken : off ≠ R.pitResumeToken) (htime : timeIdx off = none) (hjudge : s.dev.judgeOf .pf (mgrWrite off x) = .badEff old eff) :
    regWr s .pf off 15#8 x = .next (s.after (eff (s.dev.logged (mgrWrite off x) 1 old old))) := by
  simp only [Dev.ready, Bool.and_eq_true] at hready
  obtain ⟨hreach, hroom⟩ := hready
  rw [regWr_mgr_judged hreach halign hbound hmapped htoken htime hjudge, Dev.commitS_badEff hroom]

/-- The word of a command register: an operation above bit 16, an index below. -/
def cmdWord (op index : Nat) : W32 := BitVec.ofNat 32 (op * 2 ^ 16 + index)

theorem mgrWrite_cmdWord {off op index : Nat} (hop : op < 8) (hindex : index < 65536) : (mgrWrite off (cmdWord op index)).data.toNat = op * 65536 + index := by
  rw [mgrWrite_data_toNat, cmdWord, BitVec.toNat_ofNat]
  omega

theorem cmdWord_zero {n : Nat} (v : BitVec n) : cmdWord 0 v.toNat = v.setWidth 32 := by
  rw [cmdWord, Nat.zero_mul, Nat.zero_add, BitVec.ofNat_toNat]

section
variable {c : WCtx} {op index : Nat} (hbe : c.be = 15) (hdata : c.data.toNat = op * 65536 + index) {d : Dev}

/-! ### The window commands (R382, R384) -/

/-- A window's descriptor replaced by a command, which then runs. -/
def Dev.winReplaced (d : Dev) (op index : Nat) (new : List W64) : Dev :=
  ({ (d.flushWin index).putWdesc index new with win := { ((d.flushWin index).putWdesc index new).win with cmd := some ⟨op, index, new⟩ } } : Dev).sb F.winCmdStatus_busy true

include hbe hdata

theorem Dev.judgeWinCmd_read (hindex : index < 65536) (hop : op = 1) (hidle : d.gb F.winCmdStatus_busy = false) :
    d.judgeWinCmd c = .ok 0#64 0#64 false true (fun d => (d.toStage R.winStage 0 (d.wdesc index)).winStatus 1 index) := by
  have hlow : c.data.toNat % 65536 = index := by omega
  have hhigh : c.data.toNat / 65536 % 4 = 1 := by omega
  unfold Dev.judgeWinCmd
  simp only [hbe, hlow, hhigh, hidle]
  rfl

theorem Dev.judgeWinCmd_commit (hindex : index < 65536) (hop : op = 0) (hrole : d.standby = false) (hcheck : d.winCheck index d.winStage = none) :
    d.judgeWinCmd c = .group 4 index (d.wdesc index) d.winStage (fun e => e.winReplaced 0 index d.winStage) := by
  have hlow : c.data.toNat % 65536 = index := by omega
  have hhigh : c.data.toNat / 65536 % 4 = 0 := by omega
  unfold Dev.judgeWinCmd
  simp only [hbe, hlow, hhigh, hrole, hcheck, if_true]
  rfl

theorem Dev.judgeWinCmd_refused {r : Nat} (hindex : index < 65536) (hop : op = 0) (hrole : d.standby = false) (hcheck : d.winCheck index d.winStage = some r) :
    d.judgeWinCmd c = .badEff 0#64 (fun e => e.winStatus r index) := by
  have hlow : c.data.toNat % 65536 = index := by omega
  have hhigh : c.data.toNat / 65536 % 4 = 0 := by omega
  unfold Dev.judgeWinCmd
  simp only [hbe, hlow, hhigh, hrole, hcheck, if_true]
  rfl

theorem Dev.judgeWinCmd_disable (hindex : index < 65536) (hop : op = 2) (hrole : d.standby = false) (hidle : d.gb F.winCmdStatus_busy = false) :
    d.judgeWinCmd c = .group 4 index (d.wdesc index) (bput (d.wdesc index) 34 1 0) (fun e => e.winReplaced 2 index (bput (d.wdesc index) 34 1 0)) := by
  have hlow : c.data.toNat % 65536 = index := by omega
  have hhigh : c.data.toNat / 65536 % 4 = 2 := by omega
  unfold Dev.judgeWinCmd
  simp only [hbe, hlow, hhigh, hrole, hidle]
  rfl

/-! ### The commands for instances (R421 to R423) -/

omit hbe hdata in
/-- The descriptor that an accepted command for instances leaves. -/
def Dev.insNew (d : Dev) (op n : Nat) : List W64 :=
  if op = 0 then d.pitched n d.insStage else if op = 1 then mergeM (d.idesc n) d.insStage
  else bput (bput (bput (d.idesc n) 0 1 0) 24 4 ((d.ig n 24 4 + 1) % 2 ^ 32)) 36 12 0

omit hbe hdata in
/-- A command for instances under way. -/
def Dev.insBusy (d : Dev) (op n : Nat) (new : List W64) : Dev :=
  ({ d with ins := { d.ins with cmd := some ⟨op, n, new⟩ } } : Dev).sb F.insCmdStatus_busy true

theorem Dev.judgeInsCmd_read (hindex : index < 4096) (hop : op = 3) (hidle : d.gb F.insCmdStatus_busy = false) :
    d.judgeInsCmd c = .ok 0#64 0#64 false true (fun d => (d.toStage R.insStage 0 ((d.idesc index).take 16)).insStatus 1 index) := by
  have hlow : c.data.toNat % 4096 = index := by omega
  have hhigh : c.data.toNat / 65536 % 8 = 3 := by omega
  unfold Dev.judgeInsCmd
  simp only [hbe, hlow, hhigh, hidle]
  rfl

theorem Dev.judgeInsCmd_accepted (hindex : index < 4096) (hop : op < 3) (hrole : d.standby = false) (hcheck : d.insCheck index op d.insStage = none) :
    d.judgeInsCmd c = .group 5 index ((d.idesc index).take 16) ((d.insNew op index).take 16) (fun e =>
      if op = 0 then (e.insBusy op index (d.insNew op index)).doPitch index (d.insNew op index)
      else if op = 1 then (e.insBusy op index (d.insNew op index)).doResize index (d.insNew op index)
      else (e.insBusy op index (d.insNew op index)).flrStart index true) := by
  have hlow : c.data.toNat % 4096 = index := by omega
  have hhigh : c.data.toNat / 65536 % 8 = op := by omega
  have hknown : (!woOk 15 0x70FFF || decide (3 < op)) = false := by
    rw [show woOk 15 0x70FFF = true by decide, decide_eq_false (by omega)]
    rfl
  have hwrite : op ≠ 3 := by omega
  unfold Dev.judgeInsCmd
  simp only [hbe, hlow, hhigh, hknown, hwrite, hrole, hcheck, Bool.false_eq_true, if_false]
  rfl

theorem Dev.judgeInsCmd_refused {r : Nat} (hindex : index < 4096) (hop : op < 3) (hrole : d.standby = false) (hcheck : d.insCheck index op d.insStage = some r) :
    d.judgeInsCmd c = .badEff 0#64 (fun e => (e.insStatus r index).bump F.insCntCmdRefused_count) := by
  have hlow : c.data.toNat % 4096 = index := by omega
  have hhigh : c.data.toNat / 65536 % 8 = op := by omega
  have hknown : (!woOk 15 0x70FFF || decide (3 < op)) = false := by
    rw [show woOk 15 0x70FFF = true by decide, decide_eq_false (by omega)]
    rfl
  have hwrite : op ≠ 3 := by omega
  unfold Dev.judgeInsCmd
  simp only [hbe, hlow, hhigh, hknown, hwrite, hrole, hcheck, Bool.false_eq_true, if_false]

end

theorem winCmd_gates : R.winCmd % 4 = 0 ∧ R.winCmd < 2 ^ 24 ∧ regMapped R.winCmd = true ∧ R.winCmd ≠ R.pitResumeToken ∧ timeIdx R.winCmd = none := by decide

theorem insCmd_gates : R.insCmd % 4 = 0 ∧ R.insCmd < 2 ^ 24 ∧ regMapped R.insCmd = true ∧ R.insCmd ≠ R.pitResumeToken ∧ timeIdx R.insCmd = none := by decide

theorem Dev.judgeOf_win (d : Dev) {c : WCtx} (hoff : c.off = R.winCmd) : d.judgeOf .pf c = d.judgeWinCmd c := by
  have hnum : c.off = 0x300040 := hoff
  have hhalf : resHalf c.off = false := by
    unfold resHalf
    simp only [Bool.and_eq_false_iff, Bool.or_eq_false_iff, decide_eq_false_iff_not]
    omega
  have hdbg : c.off ≠ R.stoDbgCtl := by unfold R.stoDbgCtl; omega
  have hvec : c.off ≠ R.hstPfVectors := by unfold R.hstPfVectors; omega
  unfold Dev.judgeOf
  simp only [hhalf, hdbg, hvec, Bool.false_eq_true, if_false]
  rw [if_neg (by omega), if_neg (by omega), if_neg (by omega), if_neg (by simp only [Bool.and_eq_true, decide_eq_true_eq]; omega),
    if_neg (by simp only [Bool.and_eq_true, decide_eq_true_eq]; omega), if_neg (by simp only [Bool.and_eq_true, decide_eq_true_eq]; omega),
    if_neg (by simp only [Bool.and_eq_true, decide_eq_true_eq]; omega)]
  exact if_pos hoff

/-- A write at or above the registers of the instances and below the commons viewport is judged with them. -/
theorem Dev.judgeOf_ins (d : Dev) {c : WCtx} (hlow : 0x400000 ≤ c.off) (hhigh : c.off < 0xF00000) : d.judgeOf .pf c = d.judgeIns c := by
  have hhalf : resHalf c.off = false := by
    unfold resHalf
    simp only [Bool.and_eq_false_iff, Bool.or_eq_false_iff, decide_eq_false_iff_not]
    omega
  have hdbg : c.off ≠ R.stoDbgCtl := by unfold R.stoDbgCtl; omega
  have hvec : c.off ≠ R.hstPfVectors := by unfold R.hstPfVectors; omega
  have hwin : c.off ≠ R.winCmd := by unfold R.winCmd; omega
  unfold Dev.judgeOf
  simp only [hhalf, hdbg, hvec, hwin, Bool.false_eq_true, if_false]
  rw [if_neg (by omega), if_neg (by omega), if_neg (by omega), if_neg (by simp only [Bool.and_eq_true, decide_eq_true_eq]; omega),
    if_neg (by simp only [Bool.and_eq_true, decide_eq_true_eq]; omega), if_neg (by simp only [Bool.and_eq_true, decide_eq_true_eq]; omega),
    if_neg (by simp only [Bool.and_eq_true, decide_eq_true_eq]; omega)]
  exact if_pos (by simp only [Bool.and_eq_true, decide_eq_true_eq]; omega)

theorem Dev.judgeOf_insCmd (d : Dev) (x : W32) : d.judgeOf .pf (mgrWrite R.insCmd x) = d.judgeInsCmd (mgrWrite R.insCmd x) :=
  (d.judgeOf_ins (by rw [mgrWrite_off]; decide) (by rw [mgrWrite_off]; decide)).trans (if_pos rfl)

theorem Dev.winDone_running {d : Dev} {c : WinCmd} (hcmd : d.win.cmd = some c) :
    d.winDone = (({ d with win := { d.win with cmd := none } } : Dev).sb F.winCmdStatus_busy false).winStatus 1 c.index := by
  unfold Dev.winDone
  rw [hcmd]

theorem Dev.insDone_running {d : Dev} {c : WinCmd} (hcmd : d.ins.cmd = some c) (hop : c.op ≠ 2) :
    d.insDone = (({ d with ins := { d.ins with cmd := none } } : Dev).sb F.insCmdStatus_busy false).insStatus 1 c.index := by
  unfold Dev.insDone
  rw [hcmd]
  exact if_neg hop

theorem Dev.lineTimeout_open {d : Dev} {fn o : Nat} {l : WcLine} (hlines : d.win.lines = [l]) (hinst : l.inst = fn) (hoff : l.off = o / 64 * 64) (hopen : l.sending = false) :
    d.lineTimeout fn o = d.flushLines (fun x => x.stream = l.stream && x.id ≤ l.id) := by
  have hfind : d.win.lines.find? (fun l => l.inst = fn && l.off = o / 64 * 64 && !l.sending) = some l := by
    rw [hlines]
    exact List.find?_cons_of_pos (by simp [hinst, hoff, hopen])
  unfold Dev.lineTimeout
  rw [hfind]
  rfl

/-- An accepted window command of the manager: a record for each word, then the descriptor replaced. -/
theorem regWr_winCmd {s : State} {op index : Nat} {new : List W64} (hreach : s.dev.reaches R.winCmd = true) (hroom : s.dev.swRoom new.length = true)
    (hjudge : s.dev.judgeWinCmd (mgrWrite R.winCmd (cmdWord op index)) = .group 4 index (s.dev.wdesc index) new (fun e => e.winReplaced op index new)) :
    regWr s .pf R.winCmd 15#8 (cmdWord op index) =
      .next (s.after ((s.dev.logGroup .manager 4 index new.length 0 (s.dev.wdesc index) new).winReplaced op index new)) := by
  obtain ⟨halign, hbound, hmapped, htoken, htime⟩ := winCmd_gates
  have hdone := regWr_mgr_group hreach hroom halign hbound hmapped htoken htime ((s.dev.judgeOf_win rfl).trans hjudge)
  exact hdone

/-- Settles O43: each operation of win.cmd by its judgement, the end of a command, and the timeout of a line. -/
theorem windowCommandsComplete : Obligations.WindowCommandsComplete := by
  obtain ⟨halign, hbound, hmapped, htoken, htime⟩ := winCmd_gates
  refine ⟨?_, ?_, ?_, ?_, ?_, ?_⟩
  · intro s i hreach hrole hcheck hroom
    exact regWr_winCmd (op := 0) hreach hroom (Dev.judgeWinCmd_commit rfl (mgrWrite_cmdWord (by decide) i.isLt) i.isLt rfl hrole hcheck)
  · intro s i r hready hrole hcheck
    have hdone := regWr_mgr_badEff hready halign hbound hmapped htoken htime
      ((s.dev.judgeOf_win rfl).trans (Dev.judgeWinCmd_refused rfl (mgrWrite_cmdWord (by decide) i.isLt) i.isLt rfl hrole hcheck))
    rw [cmdWord_zero] at hdone
    exact (congrArg (regWr s .pf R.winCmd 15#8) (cmdWord_zero i)).trans hdone
  · intro s i hreach hidle
    have hdone := regWr_mgr_exempt hreach halign hbound hmapped htoken htime
      ((s.dev.judgeOf_win rfl).trans (Dev.judgeWinCmd_read rfl (mgrWrite_cmdWord (op := 1) (by decide) i.isLt) i.isLt rfl hidle))
    exact hdone
  · rintro s i x hreach hrole hidle rfl hroom
    exact regWr_winCmd (op := 2) hreach hroom (Dev.judgeWinCmd_disable rfl (mgrWrite_cmdWord (by decide) i.isLt) i.isLt rfl hrole hidle)
  · exact fun s c hp hcmd => chip_next_of hp (Dev.winDone_running hcmd)
  · exact fun s fn o l hp hlines hinst hoff hopen => chip_next_of hp (Dev.lineTimeout_open hlines hinst hoff hopen)

/-! ### The end of an FLR (R423, R437) -/

/-- The device in which an FLR ends: the requests in progress ended with GONE 5, the vectors cleared, the FLR over. -/
theorem Dev.flrFinish_pitched {d e : Dev} {n : Nat} {f : Flr} (hflr : d.ins.flr.find? n = some f) (hkeep : f.destroy = false)
    (he : e = (let d := d.endOps (fun o => o.fn = n) 3 5
      ({ d with hst := { d.hst with msix := d.hst.msix.keep (fun k _ => k / 8192 ≠ n), pba := d.hst.pba.keep (fun k _ => k / 2048 ≠ n) }, ins := { d.ins with flr := d.ins.flr.del n } } : Dev))) :
    d.flrFinish n = if e.istate n = 0 then e.bump F.insCntFlr_count else
      ((((((((e.bump F.insCntFlr_count).clearMailbox n).ringOvf n false).isFlop n 40 8 0).isFlop n 128 4 0).is n 24 4 ((e.ig n 24 4 + 1) % 2 ^ 32)).setEv n F.insEv_flr)) := by
  subst he
  unfold Dev.flrFinish
  simp only [hflr, hkeep, Bool.false_eq_true, if_false]

/-- An accepted command of the manager for instances: a record for each word, then its effect. -/
theorem regWr_insCmd {s : State} {op n : Nat} {new : List W64} (hn : n < 4096) (hop : op < 3) (hreach : s.dev.reaches R.insCmd = true) (hrole : s.dev.standby = false)
    (hcheck : s.dev.insCheck n op s.dev.insStage = none) (hnew : new = s.dev.insNew op n) (hroom : s.dev.swRoom (new.take 16).length = true) :
    regWr s .pf R.insCmd 15#8 (cmdWord op n) = .next (s.after
      (if op = 0 then ((s.dev.logGroup .manager 5 n (new.take 16).length 0 ((s.dev.idesc n).take 16) (new.take 16)).insBusy op n new).doPitch n new
      else if op = 1 then ((s.dev.logGroup .manager 5 n (new.take 16).length 0 ((s.dev.idesc n).take 16) (new.take 16)).insBusy op n new).doResize n new
      else ((s.dev.logGroup .manager 5 n (new.take 16).length 0 ((s.dev.idesc n).take 16) (new.take 16)).insBusy op n new).flrStart n true)) := by
  subst hnew
  obtain ⟨halign, hbound, hmapped, htoken, htime⟩ := insCmd_gates
  have hdone := regWr_mgr_group hreach hroom halign hbound hmapped htoken htime
    ((s.dev.judgeOf_insCmd _).trans (Dev.judgeInsCmd_accepted rfl (mgrWrite_cmdWord (by omega) (by omega)) hn hop hrole hcheck))
  exact hdone

/-- Settles O45: each operation of ins.cmd by its judgement, the end of a command, and the end of an FLR. -/
theorem instanceCommandsComplete : Obligations.InstanceCommandsComplete := by
  obtain ⟨halign, hbound, hmapped, htoken, htime⟩ := insCmd_gates
  refine ⟨?_, ?_, ?_, ?_, ?_, ?_, ?_, ?_⟩
  · intro s n x hreach hrole hcheck hx hroom
    have hdone := regWr_insCmd (op := 0) n.isLt (by decide) hreach hrole hcheck (hx.trans (if_pos rfl).symm) hroom
    rw [if_pos rfl] at hdone
    exact hdone
  · intro s n x hreach hrole hcheck hx hroom
    have hdone := regWr_insCmd (op := 1) n.isLt (by decide) hreach hrole hcheck (hx.trans ((if_neg (by decide)).trans (if_pos rfl)).symm) hroom
    rw [if_neg (by decide), if_pos rfl] at hdone
    exact hdone
  · intro s n x hreach hrole hcheck hx hroom
    have hdone := regWr_insCmd (op := 2) n.isLt (by decide) hreach hrole hcheck (hx.trans ((if_neg (by decide)).trans (if_neg (by decide))).symm) hroom
    rw [if_neg (by decide), if_neg (by decide)] at hdone
    exact hdone
  · intro s n r hready hrole hcheck
    have hindex : n.toNat < 65536 := Nat.lt_trans n.isLt (by decide)
    have hdone := regWr_mgr_badEff hready halign hbound hmapped htoken htime
      ((s.dev.judgeOf_insCmd _).trans (Dev.judgeInsCmd_refused rfl (mgrWrite_cmdWord (op := 0) (by decide) hindex) n.isLt (by decide) hrole hcheck))
    rw [cmdWord_zero] at hdone
    exact (congrArg (regWr s .pf R.insCmd 15#8) (cmdWord_zero n)).trans hdone
  · intro s n hreach hidle
    have hindex : n.toNat < 65536 := Nat.lt_trans n.isLt (by decide)
    have hdone := regWr_mgr_exempt hreach halign hbound hmapped htoken htime
      ((s.dev.judgeOf_insCmd _).trans (Dev.judgeInsCmd_read rfl (mgrWrite_cmdWord (op := 3) (by decide) hindex) n.isLt rfl hidle))
    exact hdone
  · exact fun s c hp hcmd hop => chip_next_of hp (Dev.insDone_running hcmd hop)
  · rintro s n f d e hp hflr hkeep rfl he hpresent
    exact chip_next_of hp ((Dev.flrFinish_pitched hflr hkeep he).trans (if_neg hpresent))
  · rintro s n f d e hp hflr hkeep rfl he habsent
    exact chip_next_of hp ((Dev.flrFinish_pitched hflr hkeep he).trans (if_pos habsent))

end Sys2Proof.Machine
end

section
/-! PROOFS. The control messages of a local design (11), and the statement LocalControlCommandsComplete. -/
namespace Sys2Proof.Machine

section
variable {d : Dev} {p : LPort} {m : CtlMsg}

/-- A control message that nothing keeps back is performed. -/
theorem Dev.ctlMsg_performed {e : Dev} (he : e = d.consumeRaw (8 + p.val) (ctlMsgBytes m)) (hopen : e.portOpen (8 + p.val) = true)
    (htakes : e.lpCloses p.val = false) (hturn : e.ctlWaits p = false) : d.ctlMsg p m = e.ctlDo p m := by
  subst he
  unfold Dev.ctlMsg
  simp only [hopen, htakes, hturn, Bool.not_true, Bool.false_eq_true, if_false]

/-- A control message to a port that takes no new work is refused. -/
theorem Dev.ctlMsg_refused {e : Dev} (he : e = d.consumeRaw (8 + p.val) (ctlMsgBytes m)) (hopen : e.portOpen (8 + p.val) = true)
    (hcloses : e.lpCloses p.val = true) : d.ctlMsg p m = e.ctlRefused p m := by
  subst he
  unfold Dev.ctlMsg
  simp only [hopen, hcloses, Bool.not_true, Bool.false_eq_true, if_false, if_true]

theorem Dev.ctlRefused_answered (htyp : m.typ = 0x20#8 ∨ m.typ = 0x21#8) : d.ctlRefused p m = d.crespFree p m 1 :=
  if_pos (by simpa using htyp)

/-- The two sizes of a control access. -/
theorem ctlSize (hsize : m.size = 4#8 ∨ m.size = 8#8) : m.size.toNat = 4 ∨ m.size.toNat = 8 :=
  hsize.imp (fun h => congrArg BitVec.toNat h) (fun h => congrArg BitVec.toNat h)

theorem Dev.ctlDo_read (htyp : m.typ = 0x20#8) (hlen : m.length = 16) (hsize : m.size = 4#8 ∨ m.size = 8#8)
    (hpower : d.powerOf m.offset.toNat ≠ Power.held) (hrec : d.recBusy m.offset.toNat = false)
    (hstatus : (d.ctlRead p (ctlCore m) m.offset.toNat m.size.toNat).2.2 ≠ 3) :
    d.ctlDo p m = (d.ctlRead p (ctlCore m) m.offset.toNat m.size.toNat).1.cresp p m
      (d.ctlRead p (ctlCore m) m.offset.toNat m.size.toNat).2.2 (d.ctlRead p (ctlCore m) m.offset.toNat m.size.toNat).2.1 := by
  have hn := ctlSize hsize
  unfold Dev.ctlDo
  rw [if_neg (by simp [htyp]), if_neg (by simpa [htyp, hlen, ← Decidable.or_iff_not_imp_left] using hn), if_neg (by simp [hpower, hrec]), if_pos htyp]
  exact if_neg hstatus

theorem Dev.ctlDo_write (htyp : m.typ = 0x21#8) (hlen : m.length = 24) (hsize : m.size = 4#8 ∨ m.size = 8#8)
    (hpower : d.powerOf m.offset.toNat ≠ Power.held) :
    d.ctlDo p m = (d.pfWrite (ctlParty p m) m.offset.toNat (m.size.toNat = 8) 255 m.data).1.crespFree p m
      (d.pfWrite (ctlParty p m) m.offset.toNat (m.size.toNat = 8) 255 m.data).2 := by
  have hn := ctlSize hsize
  unfold Dev.ctlDo
  rw [if_neg (by simp [htyp]), if_neg (by simpa [htyp, hlen, ← Decidable.or_iff_not_imp_left] using hn), if_neg (by simp [hpower, htyp]), if_neg (by simp [htyp])]

theorem Dev.ctlDo_raise (htyp : m.typ = 0x30#8) (hlen : m.length = 16) : d.ctlDo p m = d.raiseMsg p.val (m.offset.toNat % 65536) m.size.toNat :=
  if_pos (by simp [htyp, hlen])

end

section
variable {d : Dev} {p n action : Nat} (hlo : 32 + 128 * p ≤ n) (hhi : n < 160 + 128 * p)
include hlo hhi

theorem Dev.raiseMsg_pulse : d.raiseMsg p n 0 = d.licPulse n := by
  unfold Dev.raiseMsg
  rw [if_neg (by simp; omega), if_pos rfl]

/-- A raised level of a LIC that is awake: the mirror and the line. -/
theorem Dev.raiseMsg_line (haction : action = 1 ∨ action = 2) (hawake : (d.mirrorLine n (decide (action = 1))).licGated = false) :
    d.raiseMsg p n action = (d.mirrorLine n (decide (action = 1))).lineAct n (decide (action = 1)) := by
  unfold Dev.raiseMsg
  rw [if_neg (by simp; omega), if_neg (by omega)]
  exact if_pos (by rw [hawake]; rfl)

end

/-- Settles O44: CREAD, CWRITE and RAISE performed, and their refusal while the port closes to new work. -/
theorem localControlCommandsComplete : Obligations.LocalControlCommandsComplete := by
  refine ⟨?_, ?_, ?_, ?_, ?_⟩
  · rintro s p m x d rfl hd hp hopen htakes hturn hlen hsize - hpower hrec hstatus
    exact chip_next_of hp ((Dev.ctlMsg_performed hd hopen htakes hturn).trans (Dev.ctlDo_read rfl hlen hsize hpower hrec hstatus))
  · rintro s p m x d rfl hd hp hopen htakes hturn hlen hsize - hpower
    have hwide : decide (m.size.toNat = 8) = decide (m.size = 8#8) := decide_eq_decide.mpr (BitVec.toNat_inj (y := 8#8))
    rw [← hwide]
    exact chip_next_of hp ((Dev.ctlMsg_performed hd hopen htakes hturn).trans (Dev.ctlDo_write rfl hlen hsize hpower))
  · rintro s p m x d rfl hd hp hopen htakes hturn hlen hsize hlo hhi
    refine chip_next_of hp ((Dev.ctlMsg_performed hd hopen htakes hturn).trans ((Dev.ctlDo_raise (m := { m with typ := 0x30#8 }) rfl hlen).trans ?_))
    rw [show m.size.toNat = 0 from congrArg BitVec.toNat hsize]
    exact Dev.raiseMsg_pulse hlo hhi
  · rintro s p m x d rfl hd hp hopen htakes hturn hlen hsize hlo hhi hawake
    have haction : m.size.toNat = 1 ∨ m.size.toNat = 2 := hsize.imp (fun h => congrArg BitVec.toNat h) (fun h => congrArg BitVec.toNat h)
    have hup : decide (m.size.toNat = 1) = decide (m.size = 1#8) := decide_eq_decide.mpr (BitVec.toNat_inj (y := 1#8))
    rw [← hup] at hawake ⊢
    exact chip_next_of hp ((Dev.ctlMsg_performed hd hopen htakes hturn).trans ((Dev.ctlDo_raise (m := { m with typ := 0x30#8 }) rfl hlen).trans (Dev.raiseMsg_line hlo hhi haction hawake)))
  · rintro s p m x d (rfl | rfl) hd hp hopen hcloses
    · exact chip_next_of hp ((Dev.ctlMsg_refused hd hopen hcloses).trans (Dev.ctlRefused_answered (.inl rfl)))
    · exact chip_next_of hp ((Dev.ctlMsg_refused hd hopen hcloses).trans (Dev.ctlRefused_answered (.inr rfl)))

end Sys2Proof.Machine
end

section
/-! PROOFS. Registers of an array by their row (4), mailboxes, message rings and the commons memory (12), and the statement MailboxCommandsComplete. -/
namespace Sys2Proof.Machine

/-! ### The row of a register of an array -/

/-- A row defines no register among the offsets from `lo` up to `hi` that leave `rest` on division by `stride`. -/
def RegDef.misses (r : RegDef) (lo hi stride rest : Nat) : Bool :=
  if r.s1 = 0 then decide (r.s2 = 0) && (decide (r.off < lo) || decide (hi ≤ r.off))
  else decide (hi ≤ r.off) || decide (r.off + r.s1 * (r.n1 - 1) + r.s2 * (r.n2 - 1) < lo) || (decide (r.s1 = stride) && decide (r.s2 = 0) && decide (r.off % stride ≠ rest))

section
variable {r : RegDef} {lo hi stride rest off : Nat}

theorem RegDef.hits_of_misses (hmiss : r.misses lo hi stride rest = true) (hlo : lo ≤ off) (hhi : off < hi) (hrest : off % stride = rest) : r.hits off = false := by
  unfold RegDef.misses at hmiss
  unfold RegDef.hits
  split at hmiss
  next hsingle =>
    obtain ⟨h2, hout⟩ := Bool.and_eq_true_iff.mp hmiss
    simp only [decide_eq_true_eq, Bool.or_eq_true] at h2 hout
    by_cases hlow : off < r.off
    · rw [if_pos hlow]
    · simp only [hlow, hsingle, h2, if_true, if_false]
      have hne : off - r.off ≠ 0 := by omega
      simp [hne]
  next harray =>
    simp only [Bool.or_eq_true, Bool.and_eq_true, decide_eq_true_eq] at hmiss
    by_cases hlow : off < r.off
    · rw [if_pos hlow]
    · simp only [hlow, harray, if_false]
      rcases hmiss with (habove | hbelow) | ⟨⟨hs, h2⟩, hres⟩
      · omega
      · have hdiv := Nat.div_add_mod (off - r.off) r.s1
        refine Bool.eq_false_iff.mpr fun hhit => ?_
        rw [Bool.and_eq_true, Bool.and_eq_true, decide_eq_true_eq, decide_eq_true_eq, decide_eq_true_eq] at hhit
        obtain ⟨⟨hindex, hinner⟩, hexact⟩ := hhit
        have houter : r.s1 * ((off - r.off) / r.s1) ≤ r.s1 * (r.n1 - 1) := Nat.mul_le_mul_left _ (by omega)
        have hrest2 : (off - r.off) % r.s1 ≤ r.s2 * (r.n2 - 1) := by
          by_cases hflat : r.s2 = 0
          · rw [if_pos hflat] at hexact
            omega
          · rw [if_neg hflat] at hinner hexact
            rw [← Nat.div_add_mod ((off - r.off) % r.s1) r.s2, hexact, Nat.add_zero]
            exact Nat.mul_le_mul_left _ (by omega)
        omega
      · have hne : (off - r.off) % r.s1 ≠ 0 := by
          intro h0
          apply hres
          rw [← hrest, ← hs, ← Nat.sub_add_cancel (Nat.le_of_not_lt hlow), Nat.add_mod, h0, Nat.zero_add, Nat.mod_mod]
        simp [h2, hne]

/-- A row hits the elements of its array. -/
theorem RegDef.hits_element {i j : Nat} (hoff : off = r.off + r.s1 * i + r.s2 * j) (hi1 : i < r.n1) (hj : j < r.n2) (hspan : r.s2 * j < r.s1) : r.hits off = true := by
  have hdiff : off - r.off = r.s2 * j + r.s1 * i := by omega
  have hstride : r.s1 ≠ 0 := by omega
  have hindex : (r.s2 * j + r.s1 * i) / r.s1 = i := by rw [Nat.add_mul_div_left _ _ (by omega), Nat.div_eq_of_lt hspan, Nat.zero_add]
  have hinner : (r.s2 * j + r.s1 * i) % r.s1 = r.s2 * j := by rw [Nat.add_mul_mod_self_left, Nat.mod_eq_of_lt hspan]
  unfold RegDef.hits
  rw [if_neg (by omega)]
  simp only [hdiff, if_neg hstride, hindex, hinner]
  by_cases hflat : r.s2 = 0
  · simp [hflat, hi1, Nat.zero_lt_of_lt hj]
  · simp [hflat, hi1, hj, Nat.mul_div_cancel_left j (Nat.pos_of_ne_zero hflat)]

/-- The first row a list offers for a family of offsets is the row of each of its offsets that it hits. -/
theorem find?_hits_of_misses {l : List RegDef} (hfind : l.find? (fun r => !r.misses lo hi stride rest) = some r) (hlo : lo ≤ off) (hhi : off < hi)
    (hrest : off % stride = rest) (hhit : r.hits off = true) : l.find? (fun r => r.hits off) = some r := by
  induction l with
  | nil => exact hfind
  | cons x xs ih =>
    cases hmiss : x.misses lo hi stride rest with
    | true =>
      rw [List.find?_cons_of_neg (by simp [hmiss])] at hfind
      rw [List.find?_cons_of_neg (by simp [RegDef.hits_of_misses hmiss hlo hhi hrest]), ih hfind]
    | false =>
      rw [List.find?_cons_of_pos (by simp [hmiss]), Option.some.injEq] at hfind
      subst hfind
      exact List.find?_cons_of_pos hhit

end

theorem regRows_ins {off : Nat} (hlow : 0x400000 ≤ off) (hhigh : off < 0xF00000) : regRows off = regTableIns := by
  unfold regRows
  simp only [show ¬ off / 0x10000 = 0 by omega, show ¬ off / 0x10000 = 1 by omega, show ¬ off / 0x10000 = 2 by omega, show ¬ off / 0x10000 = 3 by omega,
    show ¬ off / 0x10000 < 8 by omega, show ¬ off / 0x10000 < 0xC by omega, show ¬ off / 0x10000 < 0x10 by omega, show ¬ off / 0x10000 < 0x1C by omega,
    show ¬ off / 0x10000 < 0x20 by omega, show ¬ off / 0x10000 < 0x24 by omega, show ¬ off / 0x10000 < 0x28 by omega, show ¬ off / 0x10000 < 0x30 by omega,
    show ¬ off / 0x10000 < 0x40 by omega, show off / 0x10000 < 0xF0 by omega, if_true, if_false]

/-- The row of a register of the array of instances, the first that the family of its offsets admits. -/
theorem regAt_ins_of_misses {r : RegDef} {lo hi stride rest off i j : Nat} (hfind : regTableIns.find? (fun r => !r.misses lo hi stride rest) = some r)
    (hlow : 0x400000 ≤ lo) (hhigh : hi ≤ 0xF00000) (hlo : lo ≤ off) (hhi : off < hi) (hrest : off % stride = rest)
    (hoff : off = r.off + r.s1 * i + r.s2 * j) (hi1 : i < r.n1) (hj : j < r.n2) (hspan : r.s2 * j < r.s1) : regAt off = some r := by
  unfold regAt
  rw [regRows_ins (Nat.le_trans hlow hlo) (Nat.lt_of_lt_of_le hhi hhigh)]
  exact find?_hits_of_misses hfind hlo hhi hrest (RegDef.hits_element hoff hi1 hj hspan)

theorem regMapped_of_regAt {off : Nat} {r : RegDef} (hrow : regAt off = some r) : regMapped off = true := by
  unfold regMapped
  rw [hrow]
  rfl

theorem oneWide_of_regAt {off : Nat} {r : RegDef} (hrow : regAt off = some r) (hwide : r.wide = true) (halign : off % 8 = 0) : oneWide off = true := by
  unfold oneWide
  rw [hrow, decide_eq_true halign, Option.any_some, hwide]
  rfl

/-- The judgement of a write to the registers of instances in PF control space. -/
theorem Dev.judgeOf_inst (d : Dev) {c : WCtx} {n o : Nat} (hn : n < 4096) (ho : o < 256) (hoff : c.off = 0x500000 + 256 * n + o) : d.judgeOf .pf c = d.judgeInst n c := by
  refine (d.judgeOf_ins (by omega) (by omega)).trans ?_
  unfold Dev.judgeIns
  rw [if_neg (by rw [hoff, R.insCmd]; omega), if_neg (by rw [hoff, R.insDlCmd]; omega), if_pos (by rw [Bool.and_eq_true, decide_eq_true_eq, decide_eq_true_eq]; omega)]
  exact congrArg (fun k => d.judgeInst k c) (by omega)

/-! ### The rows of the mailboxes of instances (R444) -/

/-- The row of ins.inbox_ring. -/
def insInboxRingRow : RegDef := ⟨0x500010, 0x100, 4096, 0, 1, false, 0, ⟨false, false, false, false, false, false⟩, [⟨7, 0, .wo, .none, .any⟩]⟩

theorem insInboxRingRow_first : regTableIns.find? (fun r => !r.misses 0x500000 0x600000 0x100 0x10) = some insInboxRingRow := by decide

/-- The row of ins.inbox. -/
def insInboxRow : RegDef := ⟨0x500040, 0x100, 4096, 8, 8, true, 0, ⟨false, true, true, false, false, false⟩, [⟨63, 0, .rw, .none, .any⟩]⟩

theorem insInboxRow_first : ∀ j : Fin 8, regTableIns.find? (fun r => !r.misses 0x500000 0x600000 0x100 (0x40 + 8 * j.val)) = some insInboxRow := by decide

/-! ### The mailboxes of instances, by the manager (R426, R430) -/

/-- A whole write of a ring register rings. -/
theorem judgeRing_whole {c : WCtx} {n m : Nat} (inbox : Bool) (hbe : c.be = 15) (hdata : c.data.toNat % 256 = m) :
    judgeRing n inbox c = .ok 0#64 0#64 (decide (256 ≤ (c.data.toNat &&& c.mask))) true (fun d => if inbox then d.ringInbox n m else d.ringOutbox n m) := by
  subst hdata
  exact if_neg (by rw [hbe]; decide)

theorem judgeSlot_wide {c : WCtx} {n s : Nat} (old : W64) (hwide : c.wide = true) :
    judgeSlot n s old c = .ok old c.data false true (fun d => d.slotWrite n s c.data) :=
  if_neg (by rw [hwide]; decide)

/-- A consumer index that is not behind the producer is stored. -/
theorem Dev.judgeMsgCons_stores {d : Dev} {c : WCtx} {n v : Nat} (hmask : c.mask = 2 ^ 32 - 1) (hdata : c.data.toNat = v) (hv : v < 2 ^ 32)
    (hgap : (v + 2 ^ 32 - d.ig n 40 4) % 2 ^ 32 = 0 ∨ 2 ^ 31 < (v + 2 ^ 32 - d.ig n 40 4) % 2 ^ 32) :
    d.judgeMsgCons n c = .ok (BitVec.ofNat 64 (d.ig n 128 4)) (BitVec.ofNat 64 v) false true (fun d => d.isFlop n 128 4 v) := by
  have hnew : (c.data.toNat &&& c.mask ||| d.ig n 128 4 &&& (0xFFFFFFFF ^^^ c.mask)) = v := by
    rw [hmask, hdata, Nat.and_two_pow_sub_one_eq_mod, Nat.mod_eq_of_lt hv, show (0xFFFFFFFF ^^^ 2 ^ 32 - 1) = 0 by decide, Nat.and_zero, Nat.or_zero]
  unfold Dev.judgeMsgCons
  simp only [hnew]
  exact if_neg (by rw [Bool.and_eq_true, decide_eq_true_eq, decide_eq_true_eq]; omega)

theorem timeIdx_of_le {off : Nat} (hoff : 0x20020 ≤ off) : timeIdx off = none := if_neg (by simp only [Bool.and_eq_true, decide_eq_true_eq]; omega)

section
variable {n : Nat} (hn : n < 4096)
include hn

theorem Dev.judgeOf_insInboxRing (d : Dev) (hpos : n ≠ 0) {x : W32} (hx : x.toNat < 256) :
    ∃ rs, d.judgeOf .pf (mgrWrite (R.insInboxRing n) x) = .ok 0#64 0#64 rs true (fun d => d.ringInbox n x.toNat) := by
  have hoff : (mgrWrite (R.insInboxRing n) x).off = 0x500000 + 256 * n + 0x10 := by rw [mgrWrite_off, R.insInboxRing]; omega
  have hrest : (mgrWrite (R.insInboxRing n) x).off % 256 = 0x10 := by omega
  rw [d.judgeOf_inst hn (by decide) hoff]
  unfold Dev.judgeInst
  rw [if_neg (by simp [hpos]), if_pos hrest]
  exact ⟨_, judgeRing_whole true rfl (by rw [mgrWrite_data_toNat, Nat.mod_eq_of_lt hx])⟩

theorem regMapped_insInboxRing : regMapped (R.insInboxRing n) = true :=
  regMapped_of_regAt (regAt_ins_of_misses (lo := 0x500000) (hi := 0x600000) (stride := 0x100) (rest := 0x10) (i := n) (j := 0) insInboxRingRow_first (by decide) (by decide)
    (by rw [R.insInboxRing]; omega) (by rw [R.insInboxRing]; omega) (by rw [R.insInboxRing]; omega) (by rw [R.insInboxRing]; rfl) hn (by decide) (by decide))

theorem regAt_insInbox (j : Fin 8) : regAt (R.insInbox n j.val) = some insInboxRow :=
  regAt_ins_of_misses (lo := 0x500000) (hi := 0x600000) (stride := 0x100) (rest := 0x40 + 8 * j.val) (i := n) (j := j.val) (insInboxRow_first j) (by decide) (by decide)
    (by rw [R.insInbox]; omega) (by rw [R.insInbox]; omega) (by rw [R.insInbox]; omega) (by rw [R.insInbox]; rfl) hn j.isLt
    (show 8 * j.val < 0x100 by omega)

theorem Dev.judgeOf_insInbox (d : Dev) (hpos : n ≠ 0) (j : Fin 8) (x : W64) :
    d.judgeOf .pf (mgrWrite8 (R.insInbox n j.val) x) = .ok (d.slot n j.val) x false true (fun d => d.slotWrite n j.val x) := by
  have hoff : (mgrWrite8 (R.insInbox n j.val) x).off = 0x500000 + 256 * n + (0x40 + 8 * j.val) := by
    show R.insInbox n j.val = _
    rw [R.insInbox]
    omega
  have hrest : (mgrWrite8 (R.insInbox n j.val) x).off % 256 = 0x40 + 8 * j.val := by omega
  have hslot : (0x40 + 8 * j.val - 0x40) / 8 = j.val := by omega
  refine (d.judgeOf_inst hn (by omega) hoff).trans ?_
  unfold Dev.judgeInst
  simp only [hrest, hslot]
  rw [if_neg (by simp [hpos]), if_neg (by omega), if_neg (by omega), if_neg (by omega), if_pos (by simp; omega)]
  exact judgeSlot_wide _ rfl

end

theorem Dev.judgeOf_insMsgCons {d : Dev} {x : W32} (hgap : (x.toNat + 2 ^ 32 - d.ig 0 40 4) % 2 ^ 32 = 0 ∨ 2 ^ 31 < (x.toNat + 2 ^ 32 - d.ig 0 40 4) % 2 ^ 32) :
    d.judgeOf .pf (mgrWrite (R.insMsgCons 0) x) = .ok (BitVec.ofNat 64 (d.ig 0 128 4)) (BitVec.ofNat 64 x.toNat) false true (fun d => d.isFlop 0 128 4 x.toNat) := by
  have hoff : (mgrWrite (R.insMsgCons 0) x).off = 0x500024 := rfl
  rw [d.judgeOf_inst (n := 0) (o := 0x24) (by decide) (by decide) hoff]
  unfold Dev.judgeInst
  rw [hoff, if_neg (by decide), if_neg (by decide), if_neg (by decide), if_pos (by decide), if_pos rfl]
  exact Dev.judgeMsgCons_stores (mgrWrite_mask _ x) (mgrWrite_data_toNat _ x) x.isLt hgap

/-! ### The control page of a tenant (R445) -/

/-- The write of a tenant to its control page. -/
def vfAccess (n off : Nat) (wide : Bool) (be : Nat) (data : W64) : WCtx := ⟨.tenant n, 2, n, off, wide, be, data⟩

@[simp] theorem vfAccess_off (n off : Nat) (wide : Bool) (be : Nat) (data : W64) : (vfAccess n off wide be data).off = off := rfl

section
variable {d : Dev} {n off : Nat} {data old new : W64} {rs : Bool} {eff : Dev → Dev}
  (hmem : d.hostMem n = true) (hwatch : d.onlyWatch = false) (hpower : d.powerOf 0xF00000 = Power.on)
include hmem hwatch hpower

/-- A tenant's exempt access that its page answers has its effect and no record. -/
theorem Dev.vfOne_exempt {wide : Bool} {be : Nat} (hjudge : d.judgeVf n (vfAccess n off wide be data) = .ok old new rs true eff) : d.vfOne n off wide be data = eff d := by
  unfold vfAccess at hjudge
  unfold Dev.vfOne
  simp only [hmem, hwatch, hpower, Bool.not_true, Bool.false_eq_true, if_false, hjudge]
  rfl

theorem Dev.vfWrite_exempt (halign : off % 4 = 0) {x : W32} (hjudge : d.judgeVf n (vfAccess n off false 15 (x.setWidth 64)) = .ok old new rs true eff) :
    d.vfWrite n off false 15 (x.setWidth 64) = eff d := by
  unfold Dev.vfWrite
  rw [if_neg (by simp)]
  exact (congrArg (fun l => d.each l _) (dwords_whole x halign)).trans
    ((congrArg (fun v => d.vfOne n off false 15 v) (BitVec.ofNat_toNat 64 x)).trans (Dev.vfOne_exempt hmem hwatch hpower hjudge))

end

/-- A whole slot is one access. -/
theorem Dev.vfWrite_slot {d : Dev} {n : Nat} (j : Fin 8) (x : W64) : d.vfWrite n (0x200 + 8 * j.val) true 255 x = d.vfOne n (0x200 + 8 * j.val) true 255 x := by
  unfold Dev.vfWrite
  exact if_pos (by simp; omega)

section
variable {d : Dev} {n : Nat} (hstate : d.istate n ≠ 0)
include hstate

theorem Dev.judgeVf_ring {x : W32} (hx : x.toNat < 256) :
    ∃ rs, d.judgeVf n (vfAccess n 0x240 false 15 (x.setWidth 64)) = .ok 0#64 0#64 rs true (fun d => d.ringOutbox n x.toNat) := by
  unfold Dev.judgeVf
  rw [vfAccess_off, if_neg hstate, if_neg (by decide), if_neg (by decide), if_neg (by decide), if_pos rfl]
  refine ⟨_, judgeRing_whole false rfl ?_⟩
  show (x.setWidth 64).toNat % 256 = x.toNat
  rw [BitVec.toNat_setWidth]
  omega

theorem Dev.judgeVf_slot (j : Fin 8) (x : W64) :
    d.judgeVf n (vfAccess n (0x200 + 8 * j.val) true 255 x) = .ok (d.slot n (8 + j.val)) x false true (fun d => d.slotWrite n (8 + j.val) x) := by
  have hro : vfReadOnly (0x200 + 8 * j.val) = false := by revert j; decide
  have hslot : (0x200 + 8 * j.val - 0x200) / 8 = j.val := by omega
  unfold Dev.judgeVf
  rw [vfAccess_off, if_neg hstate, hro, if_neg Bool.false_ne_true, if_neg (by omega), if_pos, hslot]
  · exact judgeSlot_wide _ rfl
  · simp only [Bool.and_eq_true, Bool.or_eq_true, decide_eq_true_eq]
    omega

theorem Dev.judgeVf_cons {x : W32} (hgap : (x.toNat + 2 ^ 32 - d.ig n 40 4) % 2 ^ 32 = 0 ∨ 2 ^ 31 < (x.toNat + 2 ^ 32 - d.ig n 40 4) % 2 ^ 32) :
    d.judgeVf n (vfAccess n 0x304 false 15 (x.setWidth 64)) =
      .ok (BitVec.ofNat 64 (d.ig n 128 4)) (BitVec.ofNat 64 x.toNat) false true (fun d => d.isFlop n 128 4 x.toNat) := by
  unfold Dev.judgeVf
  rw [vfAccess_off, if_neg hstate, if_neg (by decide), if_neg (by decide), if_neg (by decide), if_neg (by decide), if_pos rfl]
  exact Dev.judgeMsgCons_stores (mgrWrite_mask 0x304 x) (mgrWrite_data_toNat 0x304 x) x.isLt hgap

end

/-- A tenant's read of its commons page, once its function, the page's domain and its descriptor answer. -/
theorem Dev.commons_read {d : Dev} {n : InstNo} {off k : Nat} {b : List Byte} (hmem : d.hostMem n.toNat = true) (hwatch : d.onlyWatch = false)
    (hpower : d.powerOf 0xF00000 = Power.on) (hstate : d.istate n.toNat ≠ 0) (hlo : 0x10000 ≤ off) (hhi : off < 0x20000) (hlen : k ≤ 0x20000 - off) :
    d.commons (.vf n) off false k b [] = (d.stoMove 2 (unitBytes (n.toNat * 0x10000 + off % 0x10000) k)).emit
      (.rdata n.toNat ((List.range k).map (fun i => d.memRd (n.toNat * 0x10000 + off % 0x10000 + i))) (d.memBad (n.toNat * 0x10000 + off % 0x10000) k)) := by
  have hat : d.commonsAt (.vf n) off = some (n.toNat, n.toNat, off % 0x10000) := if_pos ⟨hlo, hhi⟩
  have hmin : min k (0x10000 - off % 0x10000) = k := by omega
  simp [Dev.commons, hat, hmem, hwatch, hpower, hstate, hmin]

/-- Settles O46: the manager's and the tenant's side of each mailbox register by its judgement, and the two directions of a commons access. -/
theorem mailboxCommandsComplete : Obligations.MailboxCommandsComplete := by
  refine ⟨?_, ?_, ?_, ?_, ?_, ?_, ?_⟩
  · intro s n x hn hreach
    have hpos : n.toNat ≠ 0 := fun h => hn (BitVec.eq_of_toNat_eq h)
    have hx : (x.setWidth 32).toNat = x.toNat := by rw [BitVec.toNat_setWidth, Nat.mod_eq_of_lt (by omega)]
    obtain ⟨rs, hjudge⟩ := s.dev.judgeOf_insInboxRing n.isLt hpos (Nat.lt_of_le_of_lt (Nat.le_of_eq hx) x.isLt)
    rw [hx] at hjudge
    have hdone := regWr_mgr_exempt hreach (by rw [R.insInboxRing]; omega) (by rw [R.insInboxRing]; omega) (regMapped_insInboxRing n.isLt)
      (by rw [R.insInboxRing, R.pitResumeToken]; omega) (timeIdx_of_le (by rw [R.insInboxRing]; omega)) hjudge
    exact hdone
  · intro s n x hhere hmem hwatch hpower hstate
    have hx : (x.setWidth 32).toNat = x.toNat := by rw [BitVec.toNat_setWidth, Nat.mod_eq_of_lt (by omega)]
    have hwiden : (x.setWidth 32).setWidth 64 = x.setWidth 64 := BitVec.eq_of_toNat_eq (by simp only [BitVec.toNat_setWidth]; omega)
    obtain ⟨rs, hjudge⟩ := Dev.judgeVf_ring hstate (Nat.lt_of_le_of_lt (Nat.le_of_eq hx) x.isLt)
    rw [hx] at hjudge
    have hdone := Dev.vfWrite_exempt hmem hwatch hpower (by decide) hjudge
    rw [hwiden] at hdone
    exact actIf_next_of hhere hdone
  · intro s n j x hn hreach
    have hpos : n.toNat ≠ 0 := fun h => hn (BitVec.eq_of_toNat_eq h)
    have hrow := regAt_insInbox n.isLt j
    have hdone := regWr8_mgr_exempt hreach (by rw [R.insInbox]; omega) (oneWide_of_regAt hrow rfl (by rw [R.insInbox]; omega)) (regMapped_of_regAt hrow)
      (by rw [R.insInbox, R.pitResumeToken]; omega) (timeIdx_of_le (by rw [R.insInbox]; omega)) (s.dev.judgeOf_insInbox n.isLt hpos j x)
    exact hdone
  · intro s n j x hhere hmem hwatch hpower hstate
    exact actIf_next_of hhere ((if_pos rfl).trans ((Dev.vfWrite_slot j x).trans (Dev.vfOne_exempt hmem hwatch hpower (Dev.judgeVf_slot hstate j x))))
  · intro s x hreach hgap
    have hdone := regWr_mgr_exempt hreach (by decide) (by decide) (by decide) (by decide) (by decide) (Dev.judgeOf_insMsgCons hgap)
    have hzero : (0#12).toNat = 0 := rfl
    show regWr s .pf (R.insMsgCons (0#12).toNat) 15#8 x = _
    rw [hzero]
    exact hdone
  · intro s n x hhere hmem hwatch hpower hstate hgap
    exact actIf_next_of hhere ((if_pos rfl).trans (Dev.vfWrite_exempt hmem hwatch hpower (by decide) (Dev.judgeVf_cons hstate hgap)))
  · rintro s n o k b hhere hmem hwatch hpower - hstate hlo hhi hk rfl
    exact ⟨actIf_next_of hhere (Dev.commons_store hmem hwatch hpower hstate hlo hhi hk), actIf_next_of hhere (Dev.commons_read hmem hwatch hpower hstate hlo hhi hk)⟩

end Sys2Proof.Machine
end

section
/-! PROOFS. The rate buckets, the egress scheduler and the dirty-log trackers (13), and the statements RateAndEgressCommandsComplete and TrackerCommandsComplete. -/
namespace Sys2Proof.Machine

/-! ### The buckets (R453, R455) -/

/-- The row of a bucket's limit register: a rate of 20 bits or a burst of 16. -/
def bucketRow (j : Fin 8) : RegDef :=
  ⟨0x600000 + 4 * j.val, 0x20, 4096, 0, 1, false, 0, ⟨false, true, false, false, false, false⟩, [⟨if j.val % 2 = 0 then 19 else 15, 0, .rw, .none, .any⟩]⟩

theorem bucketRow_first : ∀ j : Fin 8, regTableIns.find? (fun r => !r.misses 0x600000 0x620000 0x20 (4 * j.val)) = some (bucketRow j) := by decide

theorem regAt_bucket {b : Nat} {j : Fin 8} (hb : b < 4096) : regAt (R.insBucketLimits b + 4 * j.val) = some (bucketRow j) :=
  regAt_ins_of_misses (lo := 0x600000) (hi := 0x620000) (stride := 0x20) (rest := 4 * j.val) (i := b) (j := 0) (bucketRow_first j) (by decide) (by decide)
    (by rw [R.insBucketLimits]; omega) (by rw [R.insBucketLimits]; omega) (by rw [R.insBucketLimits]; omega)
    (by rw [R.insBucketLimits]; show _ = 0x600000 + 4 * j.val + 0x20 * b + 0 * 0; omega) hb (by decide : 0 < 1) (by decide : 0 * 0 < 0x20)

/-- No limit register refuses every write, and each is recorded. -/
theorem bucket_gates {off : Nat} (hlo : 0x600000 ≤ off) (hhi : off < 0x620000) : refusesAll off = false ∧ exemptReg off = false := by
  constructor
  · unfold refusesAll
    simp only [Bool.or_eq_false_iff, Bool.and_eq_false_iff, decide_eq_false_iff_not]
    omega
  · unfold exemptReg
    simp only [Bool.or_eq_false_iff, Bool.and_eq_false_iff, decide_eq_false_iff_not]
    unfold R.insCview R.stoDbgAddr R.stoDbgCtl R.netQuery R.clgAck R.clgRdSeq R.clgPushCons R.clgStatus R.crlEyeCtl
    omega

/-- A whole write of a 32-bit register that stores its value, with what follows the value. -/
theorem Dev.judgeRow_stores {d : Dev} {off : Nat} {r : RegDef} {x : W32} {cur : W64} {eff : W64 → Dev → Dev} (hfields : r.byFields off = true)
    (hvalue : d.regWrite r.fields cur.toNat (2 ^ 32 - 1) x.toNat = some x.toNat) (hresv : resvBits r.fields (2 ^ 32 - 1) x.toNat = false) (hrecord : exemptReg off = false) :
    d.judgeRow r (mgrWrite off x) cur eff = .ok cur (x.setWidth 64) false false (eff (x.setWidth 64)) := by
  simp only [RegDef.byFields, Bool.and_eq_true, Bool.not_eq_true'] at hfields
  obtain ⟨⟨⟨hall, hro⟩, hwide⟩, hsf⟩ := hfields
  simp only [Dev.judgeRow, mgrWrite_off, mgrWrite_mask, mgrWrite_data_toNat, hall, hro, hwide, hsf, hvalue, hresv, hrecord, BitVec.ofNat_toNat, Bool.false_and,
    Bool.false_eq_true, if_false]

theorem bucketRow_mask : ∀ j : Fin 8, (bucketRow j).fields.foldl (fun a f => a ||| f.mask) 0 = 2 ^ ((if j.val % 2 = 0 then 19 else 15) + 1 - 0) - 1 := by decide

theorem bucketRow_kind : ∀ j : Fin 8, (!false && !(bucketRow j).allRo && !(bucketRow j).wide && !(bucketRow j).allSf) = true := by decide

/-- A whole value of a bucket's limit register is its own field. -/
theorem Dev.regWrite_bucket {d : Dev} {j : Fin 8} {x : W32} (old : Nat) (hx : x.toNat < (if j.val % 2 = 0 then 2 ^ 20 else 2 ^ 16)) :
    d.regWrite (bucketRow j).fields old (2 ^ 32 - 1) x.toNat = some x.toNat ∧ resvBits (bucketRow j).fields (2 ^ 32 - 1) x.toNat = false := by
  have hhigh : (if j.val % 2 = 0 then 19 else 15) < 32 := by split <;> decide
  have hwidth : x.toNat < 2 ^ ((if j.val % 2 = 0 then 19 else 15) + 1 - 0) := by split at hx <;> simp_all
  constructor
  · simp only [bucketRow, Dev.regWrite, d.fieldWrite_rw_whole (f := ⟨if j.val % 2 = 0 then 19 else 15, 0, .rw, .none, .any⟩) old x.toNat rfl hhigh, Nat.pow_zero, Nat.div_one,
      Nat.mod_eq_of_lt hwidth, Dev.legal, if_true, Nat.mul_one, Nat.add_zero]
  · have hmask : (bucketRow j).fields.foldl (fun a f => a ||| f.mask) 0 = 2 ^ ((if j.val % 2 = 0 then 19 else 15) + 1 - 0) - 1 := bucketRow_mask j
    rw [resvBits_whole, hmask, Nat.and_two_pow_sub_one_eq_mod, Nat.mod_eq_of_lt hwidth]
    exact decide_eq_false (fun h => h rfl)

theorem Dev.judgeOf_bucket {d : Dev} {b : Nat} {j : Fin 8} {x : W32} (hb : b < 4096) (hx : x.toNat < (if j.val % 2 = 0 then 2 ^ 20 else 2 ^ 16)) :
    d.judgeOf .pf (mgrWrite (R.insBucketLimits b + 4 * j.val) x) = .ok (d.rd (R.insBucketLimits b + 4 * j.val)) (x.setWidth 64) false false
      (fun d => (d.wr (R.insBucketLimits b + 4 * j.val) (x.setWidth 64)).capLevel b (j.val / 2)) := by
  obtain ⟨hvalue, hresv⟩ := d.regWrite_bucket (d.rd (R.insBucketLimits b + 4 * j.val)).toNat hx
  have hoff : (mgrWrite (R.insBucketLimits b + 4 * j.val) x).off = 0x600000 + 32 * b + 4 * j.val := by rw [mgrWrite_off, R.insBucketLimits]
  obtain ⟨hrefuses, hrecord⟩ := bucket_gates (off := R.insBucketLimits b + 4 * j.val) (by rw [R.insBucketLimits]; omega) (by rw [R.insBucketLimits]; omega)
  have hbucket : ((mgrWrite (R.insBucketLimits b + 4 * j.val) x).off - 0x600000) / 32 = b := by omega
  have hindex : (mgrWrite (R.insBucketLimits b + 4 * j.val) x).off % 32 / 4 = j.val := by omega
  have hfields : (bucketRow j).byFields (R.insBucketLimits b + 4 * j.val) = true := by
    unfold RegDef.byFields
    rw [hrefuses, bucketRow_kind]
  have hrow : d.judgeBucket b j.val (mgrWrite (R.insBucketLimits b + 4 * j.val) x) =
      d.judgeRow (bucketRow j) (mgrWrite (R.insBucketLimits b + 4 * j.val) x) (d.rd (R.insBucketLimits b + 4 * j.val))
        (fun v d => (d.wr (R.insBucketLimits b + 4 * j.val) v).capLevel b (j.val / 2)) := by
    unfold Dev.judgeBucket
    rw [mgrWrite_off, regAt_bucket hb]
  refine (d.judgeOf_ins (by omega) (by omega)).trans (Eq.trans ?_ (hrow.trans (Dev.judgeRow_stores hfields hvalue hresv hrecord)))
  unfold Dev.judgeIns
  rw [if_neg (by rw [hoff, R.insCmd]; omega), if_neg (by rw [hoff, R.insDlCmd]; omega), if_neg (by rw [Bool.and_eq_true, decide_eq_true_eq, decide_eq_true_eq]; omega),
    if_pos (by rw [Bool.and_eq_true, decide_eq_true_eq, decide_eq_true_eq]; omega), hbucket, hindex]

/-- A refill of a quantity whose rate was in force. -/
theorem Dev.refillOne_running {d : Dev} {k r : Nat} (hr : r = d.g (bucketFld (k / 4) (2 * (k % 4)))) (hrate : r ≠ 0) (hwas : d.iso.rate.lk 0 k ≠ 0) :
    d.refillOne k = ({ d with iso := { d.iso with rate := d.iso.rate.put 0 k r } } : Dev).s (levelFld (k / 4) (k % 4))
      (min (d.bucketCap (k / 4) (k % 4)) (({ d with iso := { d.iso with rate := d.iso.rate.put 0 k r } } : Dev).g (levelFld (k / 4) (k % 4)) + r)) := by
  subst hr
  unfold Dev.refillOne
  rw [if_neg hrate, if_neg hwas]

/-! ### The egress scheduler (R456, R457) -/

/-- A group's only packet leaves when the deficit covers it. -/
theorem Dev.groupSend_last {d : Dev} {e : Nat} {g : EGroup} {x : QEnt} (hq : g.q = [x]) (hhead : d.groupHead e [x] = some x) (hsize : x.size ≤ g.deficit) :
    d.groupSend e 1 g = (d.leave e x, { g with deficit := g.deficit - x.size, q := [] }) := by
  unfold Dev.groupSend
  simp only [hq, hhead, if_pos hsize, List.erase_cons_head]
  rfl

/-- A visit of an egress that only a group uses, whose one packet leaves. -/
theorem Dev.visit_lastOfGroup {d d1 d2 d3 : Dev} {e : Nat} {g : EGroup} {rest : List EGroup} {x : QEnt} (hnet : (d.egress e).net = [])
    (h1 : d1 = d.setEgress e (d.egress e)) (hrsp : (d1.egress e).rsp = []) (h2 : d2 = d1.setEgress e (d1.egress e))
    (hnext : d2.nextGroup e (d2.egress e).groups = some (g, rest)) (hq : g.q = [x]) (hhead : d2.groupHead e [x] = some x)
    (hsize : x.size ≤ g.deficit + max 1 (d2.groupWeight e g.id) * 256) (h3 : d3 = d2.leave e x) :
    d.visit e = d3.setEgress e { d3.egress e with groups := rest } := by
  have hstrict : d.drainStrict e (d.egress e).net = (d, []) := by rw [hnet]; rfl
  have hnet' : ({ d.egress e with net := [] } : Egress) = d.egress e := by rw [← hnet]
  have hrsp' : ({ d1.egress e with rsp := [] } : Egress) = d1.egress e := by rw [← hrsp]
  have hanswers : d1.drainStrict e [] = (d1, []) := rfl
  have hsend : d2.groupSend e g.q.length { g with deficit := g.deficit + max 1 (d2.groupWeight e g.id) * 256 } =
      (d3, { g with deficit := g.deficit + max 1 (d2.groupWeight e g.id) * 256 - x.size, q := [] }) := by
    rw [hq, h3]
    exact Dev.groupSend_last rfl hhead hsize
  unfold Dev.visit
  simp only [hstrict, hnet', ← h1, hrsp, List.filter_nil, List.append_nil, hanswers, hrsp', ← h2, hnext, hsend, List.isEmpty_nil, if_true]

/-- Settles O47: the refill of one quantity, the write of a limit by its row, and the visit whose group empties. -/
theorem rateAndEgressCommandsComplete : Obligations.RateAndEgressCommandsComplete := by
  refine ⟨?_, ?_, ?_, ?_, ?_⟩
  · exact fun s hp => chip_next hp _
  · rintro s b j x o rfl hready hx
    have hb := b.isLt
    have hdone := regWr_mgr_plain hready (by rw [R.insBucketLimits]; omega) (by rw [R.insBucketLimits]; omega) (regMapped_of_regAt (regAt_bucket hb))
      (by rw [R.insBucketLimits, R.pitResumeToken]; omega) (timeIdx_of_le (by rw [R.insBucketLimits]; omega)) (Dev.judgeOf_bucket hb hx)
    exact hdone
  · exact fun s e hp => chip_next hp _
  · rintro s k c d r hp hc honly hr hrate hwas rfl
    refine chip_next_of hp ?_
    have hlimited : s.dev.limited4 = [k] := by rw [← honly, hc]; rfl
    unfold Dev.refill
    rw [← hc, hlimited]
    exact congrArg Dev.pump (Dev.refillOne_running hr hrate hwas)
  · intro s e d1 d2 d3 g rest x hp hnet h1 hrsp h2 hnext hq hhead hsize h3
    exact chip_next_of hp (Dev.visit_lastOfGroup hnet h1 hrsp h2 hnext hq hhead hsize h3)

/-! ### The trackers (R463 to R473) -/

theorem insDlCmd_gates : R.insDlCmd % 4 = 0 ∧ R.insDlCmd < 2 ^ 24 ∧ regMapped R.insDlCmd = true ∧ R.insDlCmd ≠ R.pitResumeToken ∧ timeIdx R.insDlCmd = none := by decide

theorem Dev.judgeOf_insDlCmd (d : Dev) (x : W32) : d.judgeOf .pf (mgrWrite R.insDlCmd x) = d.judgeDlCmd (mgrWrite R.insDlCmd x) :=
  (d.judgeOf_ins (by rw [mgrWrite_off]; decide) (by rw [mgrWrite_off]; decide)).trans ((if_neg (by rw [mgrWrite_off]; decide)).trans (if_pos rfl))

/-- A tracker command's word carries no reserved bit. -/
theorem dlWord_reserved : ∀ (op : Fin 4) (t : Fin 1024), (op.val * 65536 + t.val) % 2 ^ 32 &&& 0xFFFCFC00 = 0 := by decide +kernel

/-- The configuration words that a read of tracker t shows (R477). -/
def Dev.dlConfig (d : Dev) (t : Nat) : List W64 := ((d.iso.dl.find? t).map Tracker.cfg).getD (List.replicate 6 0#64)

theorem Dev.dlConfig_of_find {d : Dev} {t : Nat} {x : Tracker} (hfind : d.iso.dl.find? t = some x) : d.dlConfig t = x.cfg := by
  unfold Dev.dlConfig
  rw [hfind]
  rfl

section
variable {c : WCtx} {op t : Nat} (hbe : c.be = 15) (hdata : c.data.toNat = op * 65536 + t) (ht : t < 1024) {d : Dev}
include hbe hdata ht

theorem Dev.judgeDlCmd_start (hop : op = 0) (hcheck : d.dlCheck t 0 d.dlStage = none) :
    d.judgeDlCmd c = .group 0 (R.insDlStage 0) (List.replicate 6 0#64) d.dlStage (fun e => (e.dlBegin t d.dlStage).dlStat 1 t) := by
  have hlow : c.data.toNat % 1024 = t := by omega
  have hhigh : c.data.toNat / 65536 % 4 = 0 := by omega
  unfold Dev.judgeDlCmd
  simp only [hbe, hlow, hhigh, hcheck, if_true]
  rfl

/-- A switch or a stop that passes its checks closes the epoch. -/
theorem Dev.judgeDlCmd_close (hop : op = 1 ∨ op = 2) (hcheck : d.dlCheck t op d.dlStage = none) :
    d.judgeDlCmd c = .ok 0#64 0#64 false false (fun e => (e.dlClose t (op = 2)).dlStat 1 t) := by
  have hlow : c.data.toNat % 1024 = t := by omega
  have hhigh : c.data.toNat / 65536 % 4 = op := by omega
  have hwrite : op ≠ 3 := by omega
  have hclose : op ≠ 0 := by omega
  have hresv : c.data.toNat % 2 ^ 32 &&& 0xFFFCFC00 = 0 := (congrArg (· % 2 ^ 32 &&& 0xFFFCFC00) hdata).trans (dlWord_reserved ⟨op, by omega⟩ ⟨t, ht⟩)
  unfold Dev.judgeDlCmd
  simp only [hbe, hlow, hhigh, hwrite, hclose, hcheck, hresv, if_false]
  rfl

theorem Dev.judgeDlCmd_refused {r : Nat} (hop : op < 3) (hcheck : d.dlCheck t op d.dlStage = some r) : d.judgeDlCmd c = .badEff 0#64 (fun e => e.dlStat r t) := by
  have hlow : c.data.toNat % 1024 = t := by omega
  have hhigh : c.data.toNat / 65536 % 4 = op := by omega
  have hwrite : op ≠ 3 := by omega
  unfold Dev.judgeDlCmd
  simp only [hbe, hlow, hhigh, hwrite, hcheck, if_false]
  rfl

theorem Dev.judgeDlCmd_read (hop : op = 3) (hidle : d.gb F.insDlCmdStatus_busy = false) :
    d.judgeDlCmd c = .ok 0#64 0#64 false true (fun e => (e.toStage R.insDlStage 0 (e.dlConfig t)).dlStat 1 t) := by
  have hlow : c.data.toNat % 1024 = t := by omega
  have hhigh : c.data.toNat / 65536 % 4 = 3 := by omega
  unfold Dev.judgeDlCmd
  simp only [hbe, hlow, hhigh, hidle]
  exact congrArg (WOut.ok 0#64 0#64 false true) (funext (fun e => by unfold Dev.dlConfig; cases e.iso.dl.find? t <;> rfl))

end

/-- A word of half A that is due in the running epoch is written. -/
theorem Dev.dlWriteDue_running {d : Dev} {t w : Nat} {x : Tracker} (hfind : d.iso.dl.find? t = some x) (hrun : x.closing = false) (hdue : x.dirtyA.contains w = true)
    (hstate : d.dlState t ≠ 3) :
    d.dlWriteDue t false w = ({ d with iso := { d.iso with dl := d.iso.dl.ins t { x with dirtyA := x.dirtyA.filter (· ≠ w), words := satAdd 32 x.words 1 } } } : Dev).dlWord x false w (x.a.lk 0#64 w) := by
  unfold Dev.dlWriteDue
  simp only [hfind, hrun, hdue, hstate, Bool.false_eq_true, Bool.not_true, Bool.false_and, Bool.false_or, decide_false, if_false]

/-- A harvest switch of half A with nothing left to write ends with its record (R464 to R467). -/
theorem Dev.dlFinish_switch {d e : Dev} {t : Nat} {x : Tracker} (hfind : d.iso.dl.find? t = some x) (hclosing : x.closing = true) (hstate : d.dlState t = 2)
    (hissued : x.due.any d.notIssued = false) (hstop : x.stop = false) (hall : x.oldAll = false) (hlive : x.destroyed = false) (hhalf : d.gb (F.insDlStatus_half t) = true)
    (hdirty : x.dirtyA = []) (hvec : bitOf (bget x.cfg 37 1) 0 = false)
    (he : e = d.toHost 0 (.mwr 0 (BitVec.ofNat 64 (bget x.cfg 24 8)) (dlRecord ((d.g (F.insDlEpoch_epoch t) + 2 ^ 32 - 1) % 2 ^ 32) t (4 * b2n x.oldFlr) x) false) 96) :
    d.dlFinish t = ({ e with iso := { e.iso with dl := e.iso.dl.ins t { x with a := [], dirtyA := [], closing := false } } } : Dev).s (F.insDlStatus_state t) 1 := by
  have hflags : b2n false + 2 * b2n false + 4 * b2n x.oldFlr + 8 * b2n (false && false) + 16 * b2n false = 4 * b2n x.oldFlr := by simp [b2n]
  subst he
  unfold Dev.dlFinish
  simp only [hfind, hclosing, hstate, hissued, hstop, hall, hlive, hhalf, hdirty, hvec, Bool.not_true, Bool.false_eq_true, ne_eq, not_true_eq_false, decide_false, Bool.false_or,
    if_false, Dev.each, List.foldl_nil, Option.getD_some, hflags, Dev.whenD]

/-- Settles O48: each operation of ins.dl_cmd by its judgement, a word due, and the end of a harvest switch. -/
theorem trackerCommandsComplete : Obligations.TrackerCommandsComplete := by
  obtain ⟨halign, hbound, hmapped, htoken, htime⟩ := insDlCmd_gates
  refine ⟨?_, ?_, ?_, ?_, ?_, ?_, ?_⟩
  · intro s t hreach hcheck hroom
    have hindex : t.toNat < 65536 := Nat.lt_trans t.isLt (by decide)
    have hdone := regWr_mgr_group hreach hroom halign hbound hmapped htoken htime
      ((s.dev.judgeOf_insDlCmd _).trans (Dev.judgeDlCmd_start rfl (mgrWrite_cmdWord (op := 0) (by decide) hindex) t.isLt rfl hcheck))
    exact hdone
  · intro s t hready hcheck
    have hindex : t.toNat < 65536 := Nat.lt_trans t.isLt (by decide)
    have hdone := regWr_mgr_accepted_same hready halign hbound hmapped htoken htime
      ((s.dev.judgeOf_insDlCmd _).trans (Dev.judgeDlCmd_close rfl (mgrWrite_cmdWord (op := 1) (by decide) hindex) t.isLt (.inl rfl) hcheck))
    exact hdone
  · intro s t hready hcheck
    have hindex : t.toNat < 65536 := Nat.lt_trans t.isLt (by decide)
    have hdone := regWr_mgr_accepted_same hready halign hbound hmapped htoken htime
      ((s.dev.judgeOf_insDlCmd _).trans (Dev.judgeDlCmd_close rfl (mgrWrite_cmdWord (op := 2) (by decide) hindex) t.isLt (.inr rfl) hcheck))
    exact hdone
  · intro s t r hready hcheck
    have hindex : t.toNat < 65536 := Nat.lt_trans t.isLt (by decide)
    have hdone := regWr_mgr_badEff hready halign hbound hmapped htoken htime
      ((s.dev.judgeOf_insDlCmd _).trans (Dev.judgeDlCmd_refused rfl (mgrWrite_cmdWord (op := 1) (by decide) hindex) t.isLt (by decide) hcheck))
    exact hdone
  · intro s t x hreach hidle hfind
    have hindex : t.toNat < 65536 := Nat.lt_trans t.isLt (by decide)
    have hdone := regWr_mgr_exempt hreach halign hbound hmapped htoken htime
      ((s.dev.judgeOf_insDlCmd _).trans (Dev.judgeDlCmd_read rfl (mgrWrite_cmdWord (op := 3) (by decide) hindex) t.isLt rfl hidle))
    rw [Dev.dlConfig_of_find hfind] at hdone
    exact hdone
  · exact fun s t w x hp hfind hrun hdue hstate => chip_next_of hp (Dev.dlWriteDue_running hfind hrun hdue hstate)
  · exact fun s t x d hp hfind hclosing hstate hissued hstop hall hlive hhalf hdirty hvec hd =>
      chip_next_of hp (Dev.dlFinish_switch hfind hclosing hstate hissued hstop hall hlive hhalf hdirty hvec hd)

end Sys2Proof.Machine
end

section
/-! PROOFS. The LIC (14): a stray pending bit, claims, deliveries and gating, and the statements LicWritesComplete and LicDeliveryCommandsComplete. -/
namespace Sys2Proof.Machine

/-! ### A pending bit of a number that does not exist (R481, R502) -/

/-- A device in service with a pending bit of number 576, which no interrupt has. -/
def strayPending : State := ⟨{ Tests.up with regs := [(R.pitPitchStatus, 0x400D#64), (licPendW 18, 1#64)] }, []⟩

/-- The pending word of the numbers from 576 on after a command; all ones where the machine stopped. -/
def pendingWord (o : Host.Outcome State Fault Refusal) : W64 := match o with
  | .next s => s.dev.rd (licPendW 18)
  | _ => BitVec.allOnes 64

/-- A write that names nothing clears the stray bit. -/
theorem pendingWord_exec : pendingWord (exec (.pendSet .pf (.shared 18) 15#8 0#32) strayPending) = 0#64 := by decide +kernel

/-- Refutes O49: a pend_set write stores the existing bits of its word alone, so that a pending bit of a number that does not exist is gone; the statement keeps it. -/
theorem not_licWritesComplete : ¬ Obligations.LicWritesComplete := by
  rintro ⟨-, hset, -⟩
  have hstored := hset strayPending (.shared 18) 0#32 1#64 (by decide +kernel) (by decide +kernel) (by decide +kernel) (by decide +kernel)
  have hword := congrArg pendingWord hstored
  rw [pendingWord_exec] at hword
  exact absurd hword (by decide +kernel)

/-! ### Claims (R491) -/

theorem Dev.claim_offered {d : Dev} {c n : Nat} (hbest : d.leastPrio c ((d.eligible d.licReady c).filter (fun n => d.licOffered c n)) = some n) :
    (d.claim c).1 = (d.activate c n).s (F.licCoreState_offer c) 1023 := by
  unfold Dev.claim
  rw [hbest]

theorem Dev.claim_spurious {d : Dev} {c : Nat} (hbest : d.leastPrio c ((d.eligible d.licReady c).filter (fun n => d.licOffered c n)) = none) :
    (d.claim c).1 = d.bump F.licCntSpurious_count := by
  unfold Dev.claim
  rw [hbest]

/-- A core's own read of its claim register claims. -/
theorem Dev.claimRead_core {d : Dev} {p : LPort} {c : Fin 16} (hopen : d.portOpen (8 + p.val) = true) (hpower : d.powerOf (R.licClaim c.val) ≠ Power.held)
    (hbound : d.coreBound c.val p.val = true) : d.claimRead (.lp p (some c)) c = (d.claim c.val).1 :=
  (if_neg hpower).trans (if_pos (by simp [hbound, hopen]))

theorem licClaim_place : ∀ c : Fin 16, regDomain (R.licClaim c.val) = 50 ∧ timeIdx (R.licClaim c.val) = none ∧ idxIn (R.licClaim c.val) (R.licClaim 0) 8 16 = some c.val := by decide

/-- The manager's read of a claim register claims for its core. -/
theorem Dev.claimRead_mgr {d : Dev} {c : Fin 16} (hreach : d.reaches (R.licClaim c.val) = true) :
    d.claimRead .pf c = (d.claim c.val).1.emit (.rdata 0 (bytesLE 4 (d.claim c.val).2.toNat) false) := by
  obtain ⟨hdomain, htime, hindex⟩ := licClaim_place c
  simp only [Dev.reaches, Bool.and_eq_true, hdomain, Bool.or_false, decide_eq_true_eq, Bool.not_eq_true', show ¬ 50 = 1 by decide, show ¬ 50 = 0 by decide, decide_false] at hreach
  obtain ⟨⟨⟨-, hmem⟩, hwatch⟩, hpower⟩ := hreach
  have hread : d.readEff 0 (some c.val) (R.licClaim c.val) false = d.claim c.val := by
    unfold Dev.readEff
    simp only [htime, hindex, if_true]
  have hhost : d.hostRead (R.licClaim c.val) false = (d.claim c.val).1.emit (.rdata 0 (bytesLE 4 (d.claim c.val).2.toNat) false) := by
    unfold Dev.hostRead
    rw [hmem, hwatch, hpower, hindex, hread]
    rfl
  exact (if_neg (by rw [hpower]; simp)).trans hhost

/-! ### Deliveries and gating (R489, R497 to R500, R508) -/

/-- A prepared DELIVER of an interrupt takes its credit. -/
theorem Dev.deliverPrep_interrupt {d e : Dev} {c n : Nat} (he : e = (d.setPrep c none).bump F.licCntDelivered_count) (hprep : d.lic.prep.find? c = some n)
    (hopen : d.coreOpen c = true) (hawake : d.licGated = false) (hn : n < 1016) :
    d.deliverPrep c = (e.sendDeliver c n 0 ((d.setPrep c none).licPrio c n) ((d.setPrep c none).vecAddr c n)).activate c n := by
  subst he
  unfold Dev.deliverPrep
  simp only [hprep, hopen, hawake, show ¬ 1016 ≤ n by omega, Bool.not_true, Bool.or_false, Bool.false_eq_true, if_false]

theorem Dev.deliverWaits_prepared {d : Dev} {p : Nat} (hwaits : d.lic.prep.any (fun e => d.g (F.licCoreBind_port e.1) = p) = true) : d.deliverWaits p = d.raise 241 :=
  if_pos (by rw [hwaits]; rfl)

theorem Dev.gateEntry_idle {d : Dev} (henable : d.gb F.licGateCfg_enable = true) (hon : d.pdSt 50 = .on) (hawake : d.licGated = false) (hclaimed : d.lic.claimed = [])
    (hprep : d.lic.prep = []) (hmain : d.pins.main = true)
    (hidle : ∀ c, c < 16 → d.eligible d.licReady c = [] ∧ d.trapActive c = false ∧ d.offerOf c = none ∧ d.candidate d.licReady c = none) :
    d.gateEntry = ((d.clampDom 50).setPd 50 .retain).bump (F.pitPdRetainCnt_count 50) := by
  have hall : (List.range 16).all (fun c => (d.eligible d.licReady c).isEmpty && !d.trapActive c && (d.offerOf c).isNone && (d.candidate d.licReady c).isNone) = true := by
    rw [List.all_eq_true]
    intro c hc
    obtain ⟨hready, htrap, hoffer, hcandidate⟩ := hidle c (List.mem_range.mp hc)
    rw [hready, htrap, hoffer, hcandidate]
    rfl
  exact if_pos (by rw [henable, hon, hawake, hclaimed, hprep, hmain, hall]; rfl)

theorem Dev.licWakeUp_access {d : Dev} (hretain : d.pdSt 50 = .retain) : d.licWakeUp true = ({ d with lic := { d.lic with waking := true } } : Dev).setPd 50 .on :=
  if_pos (by rw [hretain]; rfl)

theorem Dev.licRestored_intact {d : Dev} (hwaking : d.lic.waking = true) :
    d.licRestored true = ({ d.bump F.licCntWake_count with lic := { (d.bump F.licCntWake_count).lic with waking := false } } : Dev).applyCaptures :=
  if_neg (by rw [hwaking]; decide)

/-- Settles O50: claims by a core and by the manager, deliveries, and the LIC's entry into and return from Retain. -/
theorem licDeliveryCommandsComplete : Obligations.LicDeliveryCommandsComplete := by
  refine ⟨?_, ?_, ?_, ?_, ?_, ?_, ?_, ?_⟩
  · intro s p c n hp hopen hpower hbound hbest
    exact actIf_next_of (Bool.and_eq_true_iff.mpr ⟨hp, hopen⟩) ((Dev.claimRead_core hopen hpower hbound).trans (Dev.claim_offered hbest))
  · intro s p c hp hopen hpower hbound hbest
    exact actIf_next_of (Bool.and_eq_true_iff.mpr ⟨hp, hopen⟩) ((Dev.claimRead_core hopen hpower hbound).trans (Dev.claim_spurious hbest))
  · exact fun s c hreach => actIf_next_of (Dev.reaches_host hreach).1 (Dev.claimRead_mgr hreach)
  · exact fun s c n d hd hp hprep hopen hawake hn => chip_next_of hp (Dev.deliverPrep_interrupt hd hprep hopen hawake hn)
  · exact fun s p hp hwaits => chip_next_of hp (Dev.deliverWaits_prepared hwaits)
  · exact fun s hp henable hon hawake hclaimed hprep hmain hidle => chip_next_of hp (Dev.gateEntry_idle henable hon hawake hclaimed hprep hmain hidle)
  · exact fun s hp hretain => chip_next_of hp (Dev.licWakeUp_access hretain)
  · exact fun s hp hwaking => chip_next_of hp (Dev.licRestored_intact hwaking)

end Sys2Proof.Machine
end

section
/-! PROOFS. Firewatch (15): the port that F042 names outlasts a record, events and writes, and the statements FirewatchEventsComplete and FirewatchWritesComplete. -/
namespace Sys2Proof.Machine

/-! ### The logging of a record keeps the port of F042 (R526) -/

section
variable (d : Dev)

theorem Dev.whenD_f042 {f : Dev → Dev} (b : Bool) (hf : (f d).fwt.f042 = d.fwt.f042) : (d.whenD b f).fwt.f042 = d.fwt.f042 := by
  cases b
  · rfl
  · exact hf

theorem Dev.touch_f042 (lo hi : Nat) : (d.touch lo hi).fwt.f042 = d.fwt.f042 := by
  unfold Dev.touch
  dsimp only
  split <;> rfl

theorem Dev.enqueue_f042 (e id : Nat) (q : QEnt) : (d.enqueue e id q).fwt.f042 = d.fwt.f042 := by
  have hset (x : Egress) : ((d.touch 34 41).setEgress e x).fwt.f042 = d.fwt.f042 := d.touch_f042 34 41
  unfold Dev.enqueue
  dsimp only
  split
  · exact hset _
  · split
    · exact hset _
    · exact hset _

theorem Dev.fireVec_f042 (fn vec : Nat) : (d.fireVec fn vec).fwt.f042 = d.fwt.f042 := by
  unfold Dev.fireVec
  split
  · rfl
  · split
    · rfl
    · exact Dev.enqueue_f042 _ _ _ _

theorem Dev.licPulse_f042 (n : Nat) : (d.licPulse n).fwt.f042 = d.fwt.f042 := by
  unfold Dev.licPulse
  split
  · rfl
  · split <;> rfl

theorem Dev.attention_f042 : d.attention.fwt.f042 = d.fwt.f042 := by
  unfold Dev.attention
  split
  · rfl
  · exact (Dev.whenD_f042 _ _ (Dev.fireVec_f042 _ _ _)).trans (Dev.licPulse_f042 _ 556)

theorem Dev.missRec_f042 (r : Rec) : (d.missRec r).fwt.f042 = d.fwt.f042 := by
  have hcount : (if r.org = hwFwt then d.bump F.fwtLogMissed_count else d.bump F.clgMissed_count).fwt.f042 = d.fwt.f042 := by split <;> rfl
  unfold Dev.missRec
  exact (Dev.attention_f042 _).trans ((Dev.whenD_f042 _ _ rfl).trans hcount)

theorem Dev.shadowRec_f042 (seq : W64) (ws : List W64) : (d.shadowRec seq ws).fwt.f042 = d.fwt.f042 := by
  unfold Dev.shadowRec
  split <;> rfl

theorem Dev.srcCond_f042 (n : Nat) (b : Bool) : (d.srcCond n b).fwt.f042 = d.fwt.f042 := by
  unfold Dev.srcCond
  split <;> rfl

theorem Dev.clgLevels_f042 : d.clgLevels.fwt.f042 = d.fwt.f042 := by
  unfold Dev.clgLevels Dev.whenD
  dsimp only
  split
  · split
    · exact Dev.srcCond_f042 _ _ _
    · rfl
  · split
    · exact Dev.srcCond_f042 _ _ _
    · rfl

theorem Dev.logHeader_f042 : d.logHeader.fwt.f042 = d.fwt.f042 := rfl

theorem Dev.ringWrite_f042 (r : Rec) : (d.ringWrite r).fwt.f042 = d.fwt.f042 := by
  have hdrop : (if (!d.clgHold && decide (d.clgN ≤ d.clgHeld)) = true then d.logDropTail.bump F.clgWrapped_count else d).fwt.f042 = d.fwt.f042 := by split <;> rfl
  unfold Dev.ringWrite
  dsimp only
  generalize (if (!d.clgHold && decide (d.clgN ≤ d.clgHeld)) = true then d.logDropTail.bump F.clgWrapped_count else d) = dropped at hdrop ⊢
  rw [Dev.clgLevels_f042, Dev.logHeader_f042, Dev.whenD_f042 _ _ (Dev.attention_f042 _), Dev.shadowRec_f042]
  exact hdrop

theorem Dev.stageRec_f042 (r : Rec) : (d.stageRec r).fwt.f042 = d.fwt.f042 := by
  have hflush : d.flushOne.fwt.f042 = d.fwt.f042 := by
    unfold Dev.flushOne
    split
    · rfl
    · exact Dev.ringWrite_f042 _ _
  unfold Dev.stageRec
  dsimp only
  split
  · exact hflush
  · rfl

theorem Dev.missedRec_f042 : d.missedRec.fwt.f042 = d.fwt.f042 := by
  unfold Dev.missedRec
  split
  · rfl
  · exact d.stageRec_f042 (d.evRec hwClg 13 0#64 0#64 (BitVec.ofNat 64 d.clg.missed))

theorem Dev.logged_f042 (c : WCtx) (flags : Nat) (old new : W64) : (d.logged c flags old new).fwt.f042 = d.fwt.f042 := by
  unfold Dev.logged Dev.log
  split
  · rfl
  · split
    · split
      · rfl
      · exact d.missRec_f042 _
    · split
      · exact d.missRec_f042 _
      · dsimp only
        split
        · exact (Dev.stageRec_f042 _ _).trans d.missedRec_f042
        · exact (Dev.missRec_f042 _ _).trans d.missedRec_f042

end

/-! ### Events (R521, R529, R531, R534, R539) -/

section
variable {d e : Dev} {n : Nat}

/-- A guyline found broken, its record written. -/
theorem Dev.guyBroken_found (he : e = (d.setVec (R.fwtBroken (n / 32)) (n % 32) true).guyRec n true) (hline : d.hasGuyline n = true) (hwhole : d.srcBroken n = false) :
    d.guyBroken n = if 4 ≤ e.srcCls n then { e with fwt := { e.fwt with queue := e.fwt.queue ++ [⟨n, true, e.fwt.f042, false, true⟩] } } else e.raise 9 := by
  subst he
  exact if_neg (by rw [hline, hwhole]; decide)

theorem Dev.guyMended_found (hline : d.hasGuyline n = true) (hbroken : d.srcBroken n = true) (asserted : Bool) :
    d.guyMended n asserted = if asserted then ((d.setVec (R.fwtBroken (n / 32)) (n % 32) false).guyRec n false).raiseLvl n
      else ((d.setVec (R.fwtBroken (n / 32)) (n % 32) false).guyRec n false).setRaw n false :=
  if_neg (by rw [hline, hbroken]; decide)

/-- The open event climbs below Mortal, and reacts in its new class. -/
theorem Dev.escalate_climbs {c : Nat} (hc : c = d.evClass) (he : e = ((d.s F.fwtStatus_class (c + 1)).s F.fwtEventLeft_us (d.fwtTimer (c + 1))).stepNote c (c + 1))
    (hopen : d.evOpen = true) (hlo : 1 ≤ c) (hhi : c ≤ 3) (hfree : d.fence = false) (htimer : d.g F.fwtEventLeft_us ≠ noTimer) :
    d.escalate = e.react (classReactions e.profile (c + 1) (srcOwned e.evFirst)) e.evFirst (srcBlock e e.evFirst) 3 false := by
  subst hc he
  exact (if_neg (by simp only [hopen, hfree, Bool.not_true, Bool.false_or, Bool.or_false, Bool.or_eq_true, decide_eq_true_eq]; omega)).trans (if_neg (by omega))

/-- At the last class that has a timer the chip reacts. -/
theorem Dev.escalate_last (hopen : d.evOpen = true) (hclass : d.evClass = 4) (hfree : d.fence = false) (htimer : d.g F.fwtEventLeft_us ≠ noTimer) :
    d.escalate = (d.stepNote 4 4).chipReaction :=
  (if_neg (by simp [hopen, hclass, hfree, htimer])).trans (if_pos hclass)

theorem Dev.graveReset_due (he : e = { d with fwt := { d.fwt with graveDue := false } }) (hdue : d.fwt.graveDue = true) (hfree : e.chipHeld = false)
    (hclosed : (e.fwtRec 5 0 0 e.evFirst 0).evOpen = false) : d.graveReset = (e.fwtRec 5 0 0 e.evFirst 0).chipReset := by
  subst he
  have hstays (f : Dev → Dev) (b : Bool) {d : Dev} (h : d.evOpen = false) : d.whenD (d.evOpen && b) f = d := if_neg (by simp [h])
  exact (if_neg (by simp [hdue])).trans ((if_neg (by simp [hfree])).trans (congrArg Dev.chipReset (hstays _ _ hclosed)))

end

/-- Settles O51: each event of Firewatch by its case. -/
theorem firewatchEventsComplete : Obligations.FirewatchEventsComplete := by
  refine ⟨?_, ?_, ?_, ?_, ?_, ?_, ?_, ?_, ?_⟩
  · exact fun s n l p hp => chip_next hp _
  · intro s n d hd hp hline hwhole hclass
    exact chip_next_of hp ((Dev.guyBroken_found hd hline hwhole).trans (if_neg (by omega)))
  · intro s n d hd hp hline hwhole hclass
    exact chip_next_of hp ((Dev.guyBroken_found hd hline hwhole).trans (if_pos hclass))
  · intro s n hp hline hbroken
    exact ⟨chip_next_of hp ((Dev.guyMended_found hline hbroken false).trans (if_neg Bool.false_ne_true)),
      chip_next_of hp ((Dev.guyMended_found hline hbroken true).trans (if_pos rfl))⟩
  · exact fun s c d hc hd hp hopen hlo hhi hfree htimer => chip_next_of hp (Dev.escalate_climbs hc hd hopen hlo hhi hfree htimer)
  · exact fun s hp hopen hclass hfree htimer => chip_next_of hp (Dev.escalate_last hopen hclass hfree htimer)
  · exact fun s d hd hp hdue hfree hclosed => chip_next_of hp (Dev.graveReset_due hd hdue hfree hclosed)
  · exact fun s x hp => chip_next hp _
  · intro s hp hfree
    exact chip_next_of hp (if_neg (by rw [hfree]; decide))

/-! ### The manager's writes (R528, R532, R538) -/

/-- An acknowledgement that names the open event ends it. -/
theorem Dev.judgeAck_accepted {d : Dev} {x : W32} (hresult : d.ackResult (x.toNat % 65536) (x.toNat / 65536) = 1) :
    d.judgeAck (mgrWrite R.fwtAck x) = .ok 0#64 0#64 false false (fun d => (d.endEvent 1).s F.fwtAckStatus_result 1) := by
  have hwhole : woOk (mgrWrite R.fwtAck x).be 0xFFFFFFFF = true := (by decide : woOk 15 0xFFFFFFFF = true)
  obtain ⟨hid, hmerges⟩ := mgrWrite_ackFields x
  simp only [Dev.judgeAck, hwhole, hid, hmerges, Bool.not_true, Bool.false_eq_true, if_false]
  exact if_pos hresult

/-- What the gates ask of the offsets of the force registers, and the judgement they take. -/
theorem fwtForceSet_gates : ∀ w : Fin 16, R.fwtForceSet w.val % 4 = 0 ∧ R.fwtForceSet w.val < 2 ^ 24 ∧ regMapped (R.fwtForceSet w.val) = true ∧
    R.fwtForceSet w.val ≠ R.pitResumeToken ∧ timeIdx (R.fwtForceSet w.val) = none := by decide

theorem fwtForceClr_gates : ∀ w : Fin 16, R.fwtForceClr w.val % 4 = 0 ∧ R.fwtForceClr w.val < 2 ^ 24 ∧ regMapped (R.fwtForceClr w.val) = true ∧
    R.fwtForceClr w.val ≠ R.pitResumeToken ∧ timeIdx (R.fwtForceClr w.val) = none := by decide

theorem fwtSrcCfg_gates : ∀ n : Fin 512, R.fwtSrcCfg n.val % 4 = 0 ∧ R.fwtSrcCfg n.val < 2 ^ 24 ∧ regMapped (R.fwtSrcCfg n.val) = true ∧
    R.fwtSrcCfg n.val ≠ R.pitResumeToken ∧ timeIdx (R.fwtSrcCfg n.val) = none := by decide +kernel

theorem fwtForceSet_place : ∀ w : Fin 16, 4 ≤ R.fwtForceSet w.val / 0x10000 ∧ R.fwtForceSet w.val / 0x10000 < 8 ∧ resHalf (R.fwtForceSet w.val) = false ∧
    R.fwtForceSet w.val ≠ R.fwtAck ∧ idxIn (R.fwtForceSet w.val) (R.fwtTimer 0) 4 4 = none ∧ idxIn (R.fwtForceSet w.val) (R.fwtSrcCfg 0) 4 512 = none ∧
    idxIn (R.fwtForceSet w.val) (R.fwtForceSet 0) 4 16 = some w.val := by decide

theorem fwtForceClr_place : ∀ w : Fin 16, 4 ≤ R.fwtForceClr w.val / 0x10000 ∧ R.fwtForceClr w.val / 0x10000 < 8 ∧ resHalf (R.fwtForceClr w.val) = false ∧
    R.fwtForceClr w.val ≠ R.fwtAck ∧ idxIn (R.fwtForceClr w.val) (R.fwtTimer 0) 4 4 = none ∧ idxIn (R.fwtForceClr w.val) (R.fwtSrcCfg 0) 4 512 = none ∧
    idxIn (R.fwtForceClr w.val) (R.fwtForceSet 0) 4 16 = none ∧ idxIn (R.fwtForceClr w.val) (R.fwtForceClr 0) 4 16 = some w.val := by decide

theorem fwtSrcCfg_place : ∀ n : Fin 512, 4 ≤ R.fwtSrcCfg n.val / 0x10000 ∧ R.fwtSrcCfg n.val / 0x10000 < 8 ∧ resHalf (R.fwtSrcCfg n.val) = false ∧
    R.fwtSrcCfg n.val ≠ R.fwtAck ∧ idxIn (R.fwtSrcCfg n.val) (R.fwtTimer 0) 4 4 = none ∧ idxIn (R.fwtSrcCfg n.val) (R.fwtSrcCfg 0) 4 512 = some n.val := by decide +kernel

theorem Dev.judgeOf_fwtForceSet (d : Dev) (w : Fin 16) (x : W32) :
    d.judgeOf .pf (mgrWrite (R.fwtForceSet w.val) x) = d.judgeForce w.val true (mgrWrite (R.fwtForceSet w.val) x) := by
  obtain ⟨hlo, hhi, hhalf, hack, htimer, hcfg, hset⟩ := fwtForceSet_place w
  rw [d.judgeOf_fwt x hlo hhi hhalf]
  unfold Dev.judgeFwt
  simp only [mgrWrite_off, hack, htimer, hcfg, hset, if_false]

theorem Dev.judgeOf_fwtForceClr (d : Dev) (w : Fin 16) (x : W32) :
    d.judgeOf .pf (mgrWrite (R.fwtForceClr w.val) x) = d.judgeForce w.val false (mgrWrite (R.fwtForceClr w.val) x) := by
  obtain ⟨hlo, hhi, hhalf, hack, htimer, hcfg, hset, hclr⟩ := fwtForceClr_place w
  rw [d.judgeOf_fwt x hlo hhi hhalf]
  unfold Dev.judgeFwt
  simp only [mgrWrite_off, hack, htimer, hcfg, hset, hclr, if_false]

theorem Dev.judgeOf_fwtSrcCfg (d : Dev) (n : Fin 512) (x : W32) :
    d.judgeOf .pf (mgrWrite (R.fwtSrcCfg n.val) x) = d.judgeSrcCfg n.val (mgrWrite (R.fwtSrcCfg n.val) x) := by
  obtain ⟨hlo, hhi, hhalf, hack, htimer, hcfg⟩ := fwtSrcCfg_place n
  rw [d.judgeOf_fwt x hlo hhi hhalf]
  unfold Dev.judgeFwt
  simp only [mgrWrite_off, hack, htimer, hcfg, if_false]

/-- A word whose bits a mask keeps. -/
theorem and_fullMask (x : W32) : x.toNat &&& (2 ^ 32 - 1) = x.toNat := by
  rw [Nat.and_two_pow_sub_one_eq_mod, Nat.mod_eq_of_lt x.isLt]

/-- The flags of a forcing record without a reserved bit (R538). -/
theorem forceFlags (cur new : W64) [Decidable (True ∧ cur = new)] : 16 + 4 * b2n false + 1024 * b2n (decide (True ∧ cur = new)) + 0 = 16 + 1024 * b2n (decide (cur = new)) := by simp [b2n]

/-- What the forcing of the sources that a word names does, once recorded: the register, and a raise of each that was not live (R538). -/
def Dev.forces (d : Dev) (w : Nat) (x : W32) (new : W64) : Dev :=
  { d.wr (R.fwtForceSet w) new with fwt := { (d.wr (R.fwtForceSet w) new).fwt with queue := (d.wr (R.fwtForceSet w) new).fwt.queue ++
    (((List.range 32).filter (fun b => bitOf x.toNat b)).filter (fun b => !d.srcLive (32 * w + b))).map (fun b => (⟨32 * w + b, false, d.fwt.f042, true, false⟩ : RaiseQ)) } }

section
variable {d : Dev} {w : Fin 16} {x : W32} {new : W64} (hknown : x.toNat &&& srcMask w.val = x.toNat) (hroom : d.swRoom 1 = true)
include hknown hroom

/-- A force write of existing sources in a test is recorded and done (R538). -/
theorem Dev.judgeForce_set (htest : d.testEn = true) (hnew : new = BitVec.ofNat 64 ((d.rd (R.fwtForceSet w.val)).toNat ||| x.toNat)) :
    ∃ eff, d.judgeForce w.val true (mgrWrite (R.fwtForceSet w.val) x) = .ok (d.rd (R.fwtForceSet w.val)) new false true eff ∧
      eff d = (d.logged (mgrWrite (R.fwtForceSet w.val) x) (16 + 1024 * b2n (decide (d.rd (R.fwtForceSet w.val) = new))) (d.rd (R.fwtForceSet w.val)) new).forces w.val x new := by
  subst hnew
  unfold Dev.judgeForce
  simp only [mgrWrite_mask, mgrWrite_data_toNat, and_fullMask, hknown, htest, if_true, ne_eq, not_true_eq_false, decide_false]
  refine ⟨_, rfl, ?_⟩
  simp only [hroom, forceFlags, Bool.not_true, Bool.false_eq_true, Bool.and_false, Bool.false_and, if_false]
  rfl

/-- The clearing of forced sources is recorded and done (R538). -/
theorem Dev.judgeForce_clear (hnew : new = BitVec.ofNat 64 ((d.rd (R.fwtForceSet w.val)).toNat &&& (0xFFFFFFFF ^^^ x.toNat))) :
    ∃ eff, d.judgeForce w.val false (mgrWrite (R.fwtForceClr w.val) x) = .ok (d.rd (R.fwtForceSet w.val)) new false true eff ∧
      eff d = (d.logged (mgrWrite (R.fwtForceClr w.val) x) (16 + 1024 * b2n (decide (d.rd (R.fwtForceSet w.val) = new))) (d.rd (R.fwtForceSet w.val)) new).wr (R.fwtForceSet w.val) new := by
  subst hnew
  unfold Dev.judgeForce
  simp only [mgrWrite_mask, mgrWrite_data_toNat, and_fullMask, hknown, Bool.false_eq_true, if_false, ne_eq, not_true_eq_false, decide_false, Bool.false_and]
  refine ⟨_, rfl, ?_⟩
  simp only [hroom, forceFlags, Bool.not_true, Bool.false_eq_true, if_false, List.append_nil]
  rfl

end

/-- A configuration that no rule refuses is stored (R528); where the guyline holds nothing follows. -/
theorem Dev.judgeSrcCfg_stores {d : Dev} {n : Fin 512} {x : W32} {cur new : Nat} (hcur : cur = (d.rd (R.fwtSrcCfg n.val)).toNat)
    (hnew : new = (x.toNat &&& 0x73F) ||| (cur &&& (0xFFFFFFFF ^^^ 0x73F))) (hsource : (srcClass n.val).isSome = true) (howned : srcOwned n.val = true) (hx : x.toNat &&& 0x73F = x.toNat)
    (hclass : new / 256 % 8 ≤ 5) (hkeeps : cur / 256 % 8 ≤ new / 256 % 8) (hreactions : (cur &&& 0x3F) &&& new = cur &&& 0x3F) :
    ∃ eff, d.judgeSrcCfg n.val (mgrWrite (R.fwtSrcCfg n.val) x) = .ok (d.rd (R.fwtSrcCfg n.val)) (BitVec.ofNat 64 new) false false eff ∧
      ∀ e : Dev, (e.wr (R.fwtSrcCfg n.val) (BitVec.ofNat 64 new)).srcBroken n.val = false → eff e = e.wr (R.fwtSrcCfg n.val) (BitVec.ofNat 64 new) := by
  have hfull : (2 ^ 32 - 1) &&& 0x73F = 0x73F := by decide
  have habsent : (srcClass n.val).isNone = false := by rw [← Option.not_isSome, hsource]; rfl
  rw [hx] at hnew
  subst hcur
  unfold Dev.judgeSrcCfg
  simp only [mgrWrite_mask, mgrWrite_data_toNat, and_fullMask, habsent, howned, Bool.false_eq_true, if_false, if_true, hfull, hx, ← hnew, ne_eq, not_true_eq_false, decide_false]
  rw [if_neg (by simp only [hreactions, not_true_eq_false, decide_false, Bool.or_false, Bool.or_eq_true, decide_eq_true_eq]; omega)]
  refine ⟨_, rfl, fun e hwhole => ?_⟩
  exact if_neg (by rw [hwhole]; simp)

/-- Settles O52: the acknowledgement by its result, forcing and its end, and a source's configuration. -/
theorem firewatchWritesComplete : Obligations.FirewatchWritesComplete := by
  refine ⟨?_, ?_, ?_, ?_, ?_⟩
  · intro s x hready hresult
    have hdone := regWr_mgr_accepted_same hready (by decide) (by decide) (by decide) (by decide) (by decide) ((s.dev.judgeOf_fwtAck x).trans (Dev.judgeAck_accepted hresult))
    exact hdone
  · rintro s x r hready rfl hresult
    exact execFwtAck_refused hready hresult
  · rintro s w x d new hready hknown htest hnew rfl
    obtain ⟨halign, hbound, hmapped, htoken, htime⟩ := fwtForceSet_gates w
    obtain ⟨hreach, hroom⟩ := Bool.and_eq_true_iff.mp hready
    obtain ⟨eff, hjudge, heff⟩ := Dev.judgeForce_set hknown hroom htest hnew
    have hdone := regWr_mgr_exempt hreach halign hbound hmapped htoken htime ((s.dev.judgeOf_fwtForceSet w x).trans hjudge)
    rw [heff, Dev.forces, Dev.logged_f042] at hdone
    exact hdone
  · intro s w x new hready hknown hnew
    obtain ⟨halign, hbound, hmapped, htoken, htime⟩ := fwtForceClr_gates w
    obtain ⟨hreach, hroom⟩ := Bool.and_eq_true_iff.mp hready
    obtain ⟨eff, hjudge, heff⟩ := Dev.judgeForce_clear hknown hroom hnew
    have hdone := regWr_mgr_exempt hreach halign hbound hmapped htoken htime ((s.dev.judgeOf_fwtForceClr w x).trans hjudge)
    rw [heff] at hdone
    exact hdone
  · rintro s n x cur new d hcur hnew rfl hready hsource howned hx hclass hkeeps hreactions hwhole
    obtain ⟨halign, hbound, hmapped, htoken, htime⟩ := fwtSrcCfg_gates n
    obtain ⟨eff, hjudge, heff⟩ := Dev.judgeSrcCfg_stores hcur hnew hsource howned hx hclass hkeeps hreactions
    have hdone := regWr_mgr_plain hready halign hbound hmapped htoken htime ((s.dev.judgeOf_fwtSrcCfg n x).trans hjudge)
    rw [heff _ hwhole] at hdone
    exact hdone

end Sys2Proof.Machine
end

section
/-! PROOFS. The change log's commands (16): whole 64-bit registers, snapshots, pushes and acknowledgements, and the statement ChangeLogCommandsComplete. -/
namespace Sys2Proof.Machine

/-! ### A register of 64 bits written whole (R40) -/

@[simp] theorem mgrWrite8_mask (off : Nat) (x : W64) : (mgrWrite8 off x).mask = 2 ^ 64 - 1 := rfl

@[simp] theorem mgrWrite8_off (off : Nat) (x : W64) : (mgrWrite8 off x).off = off := rfl

theorem and_fullMask64 (x : W64) : x.toNat &&& (2 ^ 64 - 1) = x.toNat := by rw [Nat.and_two_pow_sub_one_eq_mod, Nat.mod_eq_of_lt x.isLt]

/-- The field of a register that software writes as one 64-bit word. -/
def wordField : FDef := ⟨63, 0, .rw, .none, .any⟩

/-- A whole write of such a register stores the word. -/
theorem Dev.judgeTable_word {d : Dev} {off : Nat} {r : RegDef} {x : W64} (hrow : regAt off = some r) (hfields : r.fields = [wordField])
    (hkind : (refusesAll off || r.allRo || r.allSf) = false) :
    d.judgeTable (mgrWrite8 off x) = .ok (d.rd off) x false (exemptReg off) (fun d => d.wr off x) := by
  simp only [Bool.or_eq_false_iff] at hkind
  obtain ⟨⟨hrefuses, hro⟩, hsf⟩ := hkind
  have hdata : (mgrWrite8 off x).data = x := rfl
  have hwhole : (mgrWrite8 off x).wide = true := rfl
  have hfield : d.fieldWrite wordField (d.rd off).toNat (2 ^ 64 - 1) x.toNat = some x.toNat := by
    have hmask : (2 ^ 64 - 1) / 2 ^ 0 % 2 ^ (63 + 1 - 0) = 2 ^ 64 - 1 := by decide
    have hx : x.toNat / 2 ^ 0 % 2 ^ (63 + 1 - 0) = x.toNat := by rw [Nat.pow_zero, Nat.div_one, Nat.mod_eq_of_lt x.isLt]
    unfold Dev.fieldWrite wordField
    simp only [hmask, hx, and_fullMask64, Nat.xor_self, Nat.and_zero, Nat.or_zero, Dev.legal, if_true]
  have hvalue : d.regWrite [wordField] (d.rd off).toNat (2 ^ 64 - 1) x.toNat = some x.toNat := by
    unfold Dev.regWrite
    rw [hfield]
    simp [Dev.regWrite, wordField]
  have hresv : resvBits [wordField] (2 ^ 64 - 1) x.toNat = false := by
    have hmask : [wordField].foldl (fun a f => a ||| f.mask) 0 = 2 ^ 64 - 1 := by decide
    unfold resvBits
    rw [hmask, and_fullMask64, and_fullMask64]
    exact decide_eq_false (fun h => h rfl)
  simp only [Dev.judgeTable, Dev.judgeRow, mgrWrite8_off, mgrWrite8_mask, hdata, hwhole, hrow, hfields, hrefuses, hro, hsf, hvalue, hresv, BitVec.ofNat_toNat, BitVec.setWidth_eq,
    Bool.not_true, Bool.and_false, Bool.false_eq_true, if_false]

/-! ### The judgements of the change log's registers (R569, R570, R572) -/

theorem Dev.judgeOf_clg (d : Dev) {c : WCtx} (hblock : c.off / 0x10000 = 3) (hhalf : resHalf c.off = false) : d.judgeOf .pf c = d.judgeClg c := by
  simp [Dev.judgeOf, hblock, hhalf]

theorem Dev.judgeOf_clgAck (d : Dev) (x : W64) : d.judgeOf .pf (mgrWrite8 R.clgAck x) = d.judgeClgAck (mgrWrite8 R.clgAck x) :=
  (d.judgeOf_clg (by rw [mgrWrite8_off]; decide) (by rw [mgrWrite8_off]; decide)).trans (if_pos rfl)

theorem Dev.judgeOf_clgAck_legal {d : Dev} {x : W64} (hlegal : d.ackLegal x = true) :
    d.judgeOf .pf (mgrWrite8 R.clgAck x) = .ok 0#64 0#64 false true (fun d => d.ackTo x) :=
  (d.judgeOf_clgAck x).trans (if_neg (by rw [show (mgrWrite8 R.clgAck x).data = x from rfl, hlegal]; exact Bool.false_ne_true))

theorem Dev.judgeOf_clgAck_outside {d : Dev} {x : W64} (hlegal : d.ackLegal x = false) : d.judgeOf .pf (mgrWrite8 R.clgAck x) = .bad 0#64 false true :=
  (d.judgeOf_clgAck x).trans (if_pos (by rw [show (mgrWrite8 R.clgAck x).data = x from rfl, hlegal]; rfl))

/-- The rows of clg.rd_seq and clg.push_cons. -/
def clgRdSeqRow : RegDef := ⟨0x30040, 0, 1, 0, 1, true, 0, ⟨true, false, false, false, false, false⟩, [wordField]⟩
@[inherit_doc clgRdSeqRow] def clgPushConsRow : RegDef := ⟨0x30218, 0, 1, 0, 1, true, 0, ⟨true, false, true, false, false, false⟩, [wordField]⟩

theorem Dev.judgeOf_clgRdSeq (d : Dev) (x : W64) :
    d.judgeOf .pf (mgrWrite8 R.clgRdSeq x) = .ok (d.rd R.clgRdSeq) x false true (fun d => (d.wr R.clgRdSeq x).sb F.clgRdStatus_busy true) := by
  have hrow : regAt R.clgRdSeq = some clgRdSeqRow := by decide
  have hexempt : exemptReg R.clgRdSeq = true := by decide
  have hjudge : d.judgeOf .pf (mgrWrite8 R.clgRdSeq x) = d.judgeRdSeq (mgrWrite8 R.clgRdSeq x) :=
    (d.judgeOf_clg (by rw [mgrWrite8_off]; decide) (by rw [mgrWrite8_off]; decide)).trans ((if_neg (by rw [mgrWrite8_off]; decide)).trans (if_pos rfl))
  rw [hjudge]
  unfold Dev.judgeRdSeq
  rw [Dev.judgeTable_word hrow rfl (by decide), hexempt]
  rfl

theorem Dev.judgeOf_clgPushCons (d : Dev) (x : W64) :
    ∃ eff, d.judgeOf .pf (mgrWrite8 R.clgPushCons x) = .ok (d.rd R.clgPushCons) x false true eff ∧
      ((d.wr R.clgPushCons x).gb F.clgPushCtl_auto_ack = false → eff d = d.wr R.clgPushCons x) ∧
      ((d.wr R.clgPushCons x).gb F.clgPushCtl_auto_ack = true → (d.wr R.clgPushCons x).ackLegal x = true → eff d = (d.wr R.clgPushCons x).ackTo x) := by
  have hrow : regAt R.clgPushCons = some clgPushConsRow := by decide
  have hexempt : exemptReg R.clgPushCons = true := by decide
  have hjudge : d.judgeOf .pf (mgrWrite8 R.clgPushCons x) = d.judgePushCons (mgrWrite8 R.clgPushCons x) :=
    (d.judgeOf_clg (by rw [mgrWrite8_off]; decide) (by rw [mgrWrite8_off]; decide)).trans ((if_neg (by rw [mgrWrite8_off]; decide)).trans
      ((if_neg (by rw [mgrWrite8_off]; decide)).trans ((if_neg (by rw [mgrWrite8_off]; decide)).trans (if_pos rfl))))
  rw [hjudge]
  unfold Dev.judgePushCons
  rw [Dev.judgeTable_word hrow rfl (by decide), hexempt]
  refine ⟨_, rfl, fun hmanual => ?_, fun hauto hlegal => ?_⟩
  · exact if_pos (by rw [mgrWrite8_off, hmanual]; rfl)
  · exact (if_neg (by rw [mgrWrite8_off, hauto]; decide)).trans (if_pos hlegal)

/-- What the gates ask of the 64-bit registers of the change log. -/
theorem clgWords_gates : ∀ off, off = R.clgAck ∨ off = R.clgRdSeq ∨ off = R.clgPushCons →
    off < 2 ^ 24 ∧ oneWide off = true ∧ regMapped off = true ∧ off ≠ R.pitResumeToken ∧ timeIdx off = none := by
  rintro off (rfl | rfl | rfl) <;> decide

/-- The manager's refused write of a 64-bit register leaves its rejected record, exempt or not (R558). -/
theorem regWr8_mgr_bad {s : State} {off : Nat} {x old : W64} {ex : Bool} (hready : s.dev.ready off = true) (hbound : off < 2 ^ 24) (hwide : oneWide off = true)
    (hmapped : regMapped off = true) (htoken : off ≠ R.pitResumeToken) (htime : timeIdx off = none) (hjudge : s.dev.judgeOf .pf (mgrWrite8 off x) = .bad old false ex) :
    regWr8 s .pf off x = .next (s.after (s.dev.logged (mgrWrite8 off x) 1 old old)) := by
  simp only [Dev.ready, Bool.and_eq_true] at hready
  obtain ⟨hreach, hroom⟩ := hready
  rw [regWr8_mgr x hreach hbound hwide hmapped htoken, Dev.unfrozen_of_none _ htime, hjudge, Dev.commitS_bad hroom]
  rfl

/-! ### Snapshots and pushes (R570, R572, R573) -/

/-- The manager's read of the last record word moves the read position on. -/
theorem Dev.readBy_lastRecord {d : Dev} (hreach : d.reaches (R.clgRdRec 7 + 4) = true) (hidle : d.gb F.clgRdStatus_busy = false) :
    d.readBy .pf (R.clgRdRec 7 + 4) = d.rdAdvance.emit (.rdata 0 (bytesLE 4 ((d.peek (R.clgRdRec 7 + 4) false).getD 0#64).toNat) false) := by
  have hdomain : (decide (regDomain (R.clgRdRec 7 + 4) = 1) || decide (regDomain (R.clgRdRec 7 + 4) = 0)) = false := by decide
  have htime : timeIdx (R.clgRdRec 7 + 4) = none := by decide
  have hclaim : idxIn (R.clgRdRec 7 + 4) (R.licClaim 0) 8 16 = none := by decide
  simp only [Dev.reaches, Bool.and_eq_true] at hreach
  obtain ⟨⟨⟨-, hmem⟩, hwatch⟩, hon⟩ := hreach
  have hpower : d.powerOf (R.clgRdRec 7 + 4) = Power.on := of_decide_eq_true hon
  have hanswers : d.onlyWatch = false := by rw [Bool.or_assoc, hdomain, Bool.or_false] at hwatch; simpa using hwatch
  have hrec : d.recBusy (R.clgRdRec 7 + 4) = false := by
    unfold Dev.recBusy
    rw [hidle, Bool.and_false]
  have hread : d.readEff 0 none (R.clgRdRec 7 + 4) false = (d.rdAdvance, (d.peek (R.clgRdRec 7 + 4) false).getD 0#64) := by
    unfold Dev.readEff
    simp only [htime, hclaim]
    exact if_pos rfl
  have hnow : d.readWaits (R.clgRdRec 7 + 4) = false := by
    unfold Dev.readWaits
    rw [hrec, hpower]
    rfl
  have hhost : d.hostRead (R.clgRdRec 7 + 4) false = d.rdAdvance.emit (.rdata 0 (bytesLE 4 ((d.peek (R.clgRdRec 7 + 4) false).getD 0#64).toNat) false) := by
    unfold Dev.hostRead
    rw [hmem, hanswers, hpower, hclaim, hread, Bool.not_true, Bool.false_and]
    rfl
  exact (if_neg (by rw [hnow, Bool.and_false]; decide)).trans hhost

section
variable {d : Dev}

/-- A snapshot of a record that reads well. -/
theorem Dev.snapTaken_good {e : LogEnt} (hbusy : d.gb F.clgRdStatus_busy = true) (hfind : d.clg.ring.find? (d.rd R.clgRdSeq).toNat = some e) (hgood : e.bad = false) :
    d.snapTaken false = ((((List.zip (List.range 8) (entryWords (d.rd R.clgRdSeq) e false)).foldl (fun (d : Dev) e => d.wr (R.clgRdRec e.1) e.2) (d.sb F.clgRdStatus_busy false)).s
      F.clgRdStatus_state 0).stoMove 4 64) := by
  have hsame : (d.sb F.clgRdStatus_busy false).clg = d.clg := rfl
  unfold Dev.snapTaken
  simp only [hbusy, hsame, hfind, hgood, Bool.not_true, Bool.or_self, Bool.false_eq_true, if_false]
  rfl

theorem Dev.snapTaken_absent (hbusy : d.gb F.clgRdStatus_busy = true) (hfind : d.clg.ring.find? (d.rd R.clgRdSeq).toNat = none) (bad : Bool) :
    d.snapTaken bad = (d.sb F.clgRdStatus_busy false).s F.clgRdStatus_state 1 := by
  have hsame : (d.sb F.clgRdStatus_busy false).clg = d.clg := rfl
  unfold Dev.snapTaken
  simp only [hbusy, hsame, hfind, Bool.not_true, Bool.false_eq_true, if_false]

/-- A push batch with room and records. -/
theorem Dev.pushBatch_sends {e : Dev} {n : Nat} (he : e = d.pushSkip) (hn : n = min (min 16 e.pushRoom) (e.rd R.clgHead - e.rd R.clgPushPos).toNat) (hruns : d.pushRuns = true) (hsome : n ≠ 0) :
    d.pushBatch = (e.each (List.range n) (fun d _ => d.pushOne)).toHost 0
      (.mwr 0 ((e.each (List.range n) (fun d _ => d.pushOne)).rd R.clgPushProd) (bytesLE 8 ((e.each (List.range n) (fun d _ => d.pushOne)).rd R.clgPushPos).toNat) false) 8 := by
  subst he hn
  exact (if_neg (by rw [hruns]; decide)).trans (if_neg hsome)

theorem Dev.flushOne_oldest {r : Rec} {t : List Rec} (hstaged : d.clg.staged = r :: t) : d.flushOne = Dev.ringWrite { d with clg := { d.clg with staged := t } } r := by
  unfold Dev.flushOne
  rw [hstaged]

end

/-- Settles O53: the engine's steps by their cases, the manager's registers by their judgements. -/
theorem changeLogCommandsComplete : Obligations.ChangeLogCommandsComplete := by
  obtain ⟨hbound, hwide, hmapped, htoken, htime⟩ := clgWords_gates R.clgAck (.inl rfl)
  obtain ⟨hbound', hwide', hmapped', htoken', htime'⟩ := clgWords_gates R.clgRdSeq (.inr (.inl rfl))
  obtain ⟨hbound'', hwide'', hmapped'', htoken'', htime''⟩ := clgWords_gates R.clgPushCons (.inr (.inr rfl))
  refine ⟨?_, ?_, ?_, ?_, ?_, ?_, ?_, ?_, ?_, ?_⟩
  · exact fun s r t hp hstaged => chip_next_of hp (Dev.flushOne_oldest hstaged)
  · intro s x hreach hlegal
    have hdone := regWr8_mgr_exempt hreach hbound hwide hmapped htoken htime (Dev.judgeOf_clgAck_legal hlegal)
    exact hdone
  · intro s x hreach hlegal hroom
    have hdone := regWr8_mgr_bad (Bool.and_eq_true_iff.mpr ⟨hreach, hroom⟩) hbound hwide hmapped htoken htime (Dev.judgeOf_clgAck_outside hlegal)
    exact hdone
  · intro s x hreach
    have hdone := regWr8_mgr_exempt hreach hbound' hwide' hmapped' htoken' htime' (s.dev.judgeOf_clgRdSeq x)
    exact hdone
  · exact fun s hreach hidle => actIf_next_of (Dev.reaches_host hreach).1 (Dev.readBy_lastRecord hreach hidle)
  · exact fun s e hp hbusy hfind hgood => chip_next_of hp (Dev.snapTaken_good hbusy hfind hgood)
  · exact fun s hp hbusy hfind bad => chip_next_of hp (Dev.snapTaken_absent hbusy hfind bad)
  · exact fun s d n hd hn hp hruns hsome => chip_next_of hp (Dev.pushBatch_sends hd hn hruns hsome)
  · intro s x hreach hmanual
    obtain ⟨eff, hjudge, heff, -⟩ := s.dev.judgeOf_clgPushCons x
    have hdone := regWr8_mgr_exempt hreach hbound'' hwide'' hmapped'' htoken'' htime'' hjudge
    rw [heff hmanual] at hdone
    exact hdone
  · intro s x hreach hauto hlegal
    obtain ⟨eff, hjudge, -, heff⟩ := s.dev.judgeOf_clgPushCons x
    have hdone := regWr8_mgr_exempt hreach hbound'' hwide'' hmapped'' htoken'' htime'' hjudge
    rw [heff hauto hlegal] at hdone
    exact hdone

end Sys2Proof.Machine
end

section
/-! PROOFS. Power domains (17): the manager's requests and the course of a power sequence, and the statements PowerRequestsComplete and PowerSequenceCompletes. -/
namespace Sys2Proof.Machine

/-! ### The requests (R590, R594, R595) -/

theorem pitPdReq_gates : R.pitPdReq % 4 = 0 ∧ R.pitPdReq < 2 ^ 24 ∧ regMapped R.pitPdReq = true ∧ R.pitPdReq ≠ R.pitResumeToken ∧ timeIdx R.pitPdReq = none := by decide

/-- The word of a power request: an operation above bit 8, a domain below. -/
def pdWord (op : Fin 4) (k : Fin 64) : W32 := BitVec.ofNat 32 (op.val * 2 ^ 8 + k.val)

/-- A request's word names its domain and operation and carries no reserved bit. -/
theorem pdWord_parts : ∀ (op : Fin 4) (k : Fin 64), (pdWord op k).toNat % 64 = k.val ∧ (pdWord op k).toNat / 256 % 4 = op.val ∧
    (pdWord op k).toNat &&& 0x33F = (pdWord op k).toNat := by decide +kernel

section
variable {d : Dev} {op : Fin 4} {k : Fin 64}

/-- The judgement of a request by its check and the domain's state (R595). -/
theorem Dev.judgeOf_pdReq : d.judgeOf .pf (mgrWrite R.pitPdReq (pdWord op k)) = (d.pdCheck k.val op.val).elim
    (if (op.val = 1 ∧ (d.pdSt k.val).isOff) ∨ (op.val = 0 ∧ d.pdSt k.val ≠ .off) then .ok 0#64 0#64 false false (fun d => d.pdResult 1 k.val)
      else if op.val = 1 then .ok 0#64 0#64 false false (fun d => d.pdClose k.val) else .ok 0#64 0#64 false false (fun d => d.pdPowerUp k.val))
    (fun r => .badEff 0#64 (fun d => d.pdResult r k.val)) := by
  obtain ⟨hdomain, hop, hresv⟩ := pdWord_parts op k
  have hvalue := mgrWrite_masked R.pitPdReq (pdWord op k)
  have hwhole : woOk (mgrWrite R.pitPdReq (pdWord op k)).be 0x33F = true := (by decide : woOk 15 0x33F = true)
  rw [d.judgeOf_pit (c := mgrWrite R.pitPdReq (pdWord op k)) (show R.pitPdReq / 0x10000 = 1 by decide) (show resHalf R.pitPdReq = false by decide)]
  refine ((if_neg (by rw [mgrWrite_off]; decide)).trans (if_pos rfl) : d.judgePit (mgrWrite R.pitPdReq (pdWord op k)) = d.judgePdReq _).trans ?_
  unfold Dev.judgePdReq
  simp only [hvalue, hdomain, hop, hresv, hwhole, Bool.not_true, Bool.false_eq_true, if_false, ne_eq, not_true_eq_false, decide_false]
  cases d.pdCheck k.val op.val <;> rfl

/-- A request that passes its checks for the state the domain is in. -/
theorem Dev.judgeOf_pdReq_already (hcheck : d.pdCheck k.val op.val = none) (hstate : (op.val = 1 ∧ (d.pdSt k.val).isOff = true) ∨ (op.val = 0 ∧ d.pdSt k.val ≠ .off)) :
    d.judgeOf .pf (mgrWrite R.pitPdReq (pdWord op k)) = .ok 0#64 0#64 false false (fun d => d.pdResult 1 k.val) := by
  rw [Dev.judgeOf_pdReq, hcheck]
  exact if_pos hstate

theorem Dev.judgeOf_pdReq_off (hcheck : d.pdCheck k.val 1 = none) (hstate : (d.pdSt k.val).isOff = false) :
    d.judgeOf .pf (mgrWrite R.pitPdReq (pdWord 1 k)) = .ok 0#64 0#64 false false (fun d => d.pdClose k.val) := by
  have hvalue : (1 : Fin 4).val = 1 := rfl
  rw [Dev.judgeOf_pdReq, hvalue, hcheck]
  exact (if_neg (by simp [hstate])).trans (if_pos rfl)

theorem Dev.judgeOf_pdReq_on (hcheck : d.pdCheck k.val 0 = none) (hstate : d.pdSt k.val = .off) :
    d.judgeOf .pf (mgrWrite R.pitPdReq (pdWord 0 k)) = .ok 0#64 0#64 false false (fun d => d.pdPowerUp k.val) := by
  have hvalue : (0 : Fin 4).val = 0 := rfl
  rw [Dev.judgeOf_pdReq, hvalue, hcheck]
  exact (if_neg (by simp [hstate])).trans (if_neg (by decide))

theorem Dev.judgeOf_pdReq_refused {r : Nat} (hcheck : d.pdCheck k.val op.val = some r) :
    d.judgeOf .pf (mgrWrite R.pitPdReq (pdWord op k)) = .badEff 0#64 (fun d => d.pdResult r k.val) := by
  rw [Dev.judgeOf_pdReq, hcheck]
  rfl

end

/-- The word of a request to power a domain on is its number. -/
theorem pdWord_on (k : Fin 64) : pdWord 0 k = BitVec.ofNat 32 k.val := congrArg (BitVec.ofNat 32) (by simp)

/-- Settles O54: each request by its judgement. -/
theorem powerRequestsComplete : Obligations.PowerRequestsComplete := by
  obtain ⟨halign, hbound, hmapped, htoken, htime⟩ := pitPdReq_gates
  refine ⟨?_, ?_, ?_, ?_, ?_⟩
  · intro s k hready hcheck hstate
    have hdone := regWr_mgr_accepted_same hready halign hbound hmapped htoken htime (Dev.judgeOf_pdReq_off hcheck hstate)
    exact hdone
  · intro s k hready hcheck hstate
    have hdone := regWr_mgr_accepted_same hready halign hbound hmapped htoken htime (Dev.judgeOf_pdReq_already (op := 1) hcheck (.inl ⟨rfl, hstate⟩))
    exact hdone
  · intro s k r hready hcheck
    have hdone := regWr_mgr_badEff hready halign hbound hmapped htoken htime (Dev.judgeOf_pdReq_refused (op := 1) hcheck)
    exact hdone
  · intro s k hready hcheck hstate
    have hdone := regWr_mgr_accepted_same hready halign hbound hmapped htoken htime (Dev.judgeOf_pdReq_on hcheck hstate)
    rw [pdWord_on] at hdone
    exact (congrArg (regWr s .pf R.pitPdReq 15#8) (pdWord_on k)).trans hdone
  · intro s k hready hcheck hstate
    have hdone := regWr_mgr_accepted_same hready halign hbound hmapped htoken htime (Dev.judgeOf_pdReq_already (op := 0) hcheck (.inr ⟨rfl, hstate⟩))
    rw [pdWord_on] at hdone
    exact (congrArg (regWr s .pf R.pitPdReq 15#8) (pdWord_on k)).trans hdone

/-! ### The course of a sequence (R585, R587, R590 to R594, R603) -/

section
variable {d : Dev} {k : Nat}

/-- The drain is over, by its end or its limit. -/
theorem Dev.pdDrained_done {limit : Bool} {work : Nat × Dev} {e : Dev} (hk : k = d.pdNow) (hwork : work = ((d.workEnd (domainBlock k) 4).2, (d.workEnd (domainBlock k) 4).1))
    (hphase : d.pdPh = 1) (hempty : d.blockEmpty (domainBlock k) = !limit)
    (he : e = ((((work.2.goneSynth work.1).nextGen (domainBlock k)).setPd k .drained).pdRec k 4 5 0 limit work.1).s F.pitPdStatus_phase 2) :
    d.pdDrained limit = e.whenD limit (fun d => d.raise 256) := by
  subst hk hwork he
  refine if_neg ?_
  rw [hphase, hempty]
  cases limit <;> decide

theorem Dev.pdOffDone_unlinked (hphase : d.pdPh = 2 ∨ d.pdPh = 3) (hlink : linkPort d.pdNow = none) :
    d.pdOffDone = ((((d.clampDom d.pdNow).setPd d.pdNow .off).setManual d.pdNow true).pdRec d.pdNow 5 0 0 false 0).pdEnds 1 := by
  refine (if_neg ?_).trans ?_
  · rcases hphase with h | h <;> simp [h]
  · rw [hlink]

theorem Dev.pdOnDone_unlinked (hk : k = d.pdNow) (hphase : d.pdPh = 4) (hlink : linkPort k = none) :
    d.pdOnDone = (((((d.nextGen (domainBlock k)).restoreState (domainBlock k)).setPd k .on).setManual k false).pdRec k 0 2 0 false 0).pdEnds 1 := by
  subst hk
  refine (if_neg (by simp [hphase])).trans ?_
  rw [hlink]
  rfl

theorem Dev.pdTimeout_powering (hphase : d.pdPh = 4) :
    d.pdTimeout = ((d.takeFree.2.setPd d.takeFree.2.pdNow .off).pdEnds (d.takeFree.1.toNat % 16)).raise 258 := if_neg (by simp [hphase])

theorem Dev.lostRecord_some {n : Nat} (hn : n = d.pd.lost.lk 0 k) (hsome : n ≠ 0) :
    d.lostRecord k = (({ d with pd := { d.pd with lost := d.pd.lost.del k } } : Dev).logEv (lostOrigin k) 14 0 0 (k + n % 2 ^ 32 * 2 ^ 32)).raise 257 := by
  subst hn
  exact if_neg hsome

theorem Dev.retainEntry_idle (hauto : autoDomain k = true) (hon : d.pdSt k = .on) (hgated : (d.rd R.pitPdAuto).getLsbD k = true) (hidle : d.pdIdle k = true)
    (hmain : d.pins.main = true) (hopen : d.pit.logOpen = true) : d.retainEntry k = ((d.clampDom k).setPd k .retain).bump (F.pitPdRetainCnt_count k) :=
  if_pos (by rw [hauto, hon, hgated, hidle, hmain, hopen]; rfl)

theorem Dev.retainWake_retained (hretain : d.pdSt k = .retain) (hk : k ≠ 50) (intact : Bool) :
    d.retainWake k intact = if intact then d.setPd k .on else ((d.setPd k .on).restoreState (domainBlock k)).raise 259 := if_neg (by simp [hretain, hk])

end

/-- Settles O55: each step of a power sequence by its phase, and the automatic ones by their conditions. -/
theorem powerSequenceCompletes : Obligations.PowerSequenceCompletes := by
  refine ⟨?_, ?_, ?_, ?_, ?_, ?_, ?_⟩
  · intro s l k e d hk he hp hphase hempty hd
    have hdone := Dev.pdDrained_done hk he hphase hempty hd
    cases l
    · exact chip_next_of hp hdone
    · exact chip_next_of hp hdone
  · exact fun s hp hphase hlink => chip_next_of hp (Dev.pdOffDone_unlinked hphase hlink)
  · exact fun s k hk hp hphase hlink => chip_next_of hp (Dev.pdOnDone_unlinked hk hphase hlink)
  · exact fun s hp hphase => chip_next_of hp (Dev.pdTimeout_powering hphase)
  · exact fun s k n hn hp hsome => chip_next_of hp (Dev.lostRecord_some hn hsome)
  · exact fun s k hp hauto hon hgated hidle hmain hopen => chip_next_of hp (Dev.retainEntry_idle hauto hon hgated hidle hmain hopen)
  · intro s k hp hretain hk
    exact ⟨chip_next_of hp ((Dev.retainWake_retained hretain hk true).trans (if_pos rfl)),
      chip_next_of hp ((Dev.retainWake_retained hretain hk false).trans (if_neg Bool.false_ne_true))⟩

end Sys2Proof.Machine
end

section
/-! PROOFS. Bivouac and the end of a suspension (18), and the statements BivouacCommandsComplete and ResumptionCommandsComplete. -/
namespace Sys2Proof.Machine

/-! ### Bivouac (R605 to R614, R638) -/

section
variable {d : Dev}

/-- A trigger in service starts the Bivouac; without a seal to write there is no drain. -/
theorem Dev.bvcTrigger_service (hmain : d.pins.main = true) (hphase : d.bvc.phase = BvcPhase.none) (hlimited : d.limited = false) (hcomplete : d.complete = true)
    (hstep : 8 ≤ d.pitStep) (trigger : Nat) :
    d.bvcTrigger trigger = if (d.bvcStart trigger).bvc.noSeal then ((d.bvcStart trigger).fwtRun 16).bvcFinish [] else d.bvcStart trigger := by
  unfold Dev.bvcTrigger
  rw [if_neg (by simp [hmain, hphase]), if_neg (by simp [hlimited]), if_neg (by simp [hcomplete]; omega)]

/-- The drain ends with a seal to write, and no pitch follows. -/
theorem Dev.bvcFinish_seals {bad : List BadUnit} {c e f : Dev} (hc : c = d.bvcClose) (hseal : c.bvc.noSeal = false) (he : e = c.bvcMeets bad) (hseal' : e.bvc.noSeal = false)
    (hf : f = e.writeBack.writeSeal.holdEntry) (htrigger : f.bvc.trigger ≠ 2) : d.bvcFinish bad = { f with bvc := { f.bvc with phase := .held } } := by
  subst hf
  unfold Dev.bvcFinish
  simp only [← hc, hseal, ← he, hseal', Bool.false_eq_true, if_false]
  exact if_neg (by simpa using htrigger)

theorem Dev.bvcDrained_ends {budget : Bool} (hphase : d.bvc.phase = BvcPhase.drain) (hend : budget = true ∨ d.postedHeld = 0) (bad : List BadUnit) :
    d.bvcDrained budget bad = d.bvcFinish bad := if_pos (by simpa [hphase] using hend)

theorem Dev.returnNoLoss_held (hmain : d.pins.main = true) (hphase : d.bvc.phase = BvcPhase.held) : d.returnNoLoss = (d.pitchStart 0 false).raise 268 :=
  if_pos (by simp [hmain, hphase])

end

/-- Settles O56: the trigger, the end of the drain, and power that stayed. -/
theorem bivouacCommandsComplete : Obligations.BivouacCommandsComplete := by
  refine ⟨?_, ?_, ?_⟩
  · intro s r hmain hphase hlimited hcomplete hstep
    have htrigger := Dev.bvcTrigger_service hmain hphase hlimited hcomplete hstep
    refine ⟨fun hseal => ?_, fun hseal => ?_, fun hseal => ?_, fun hseal => ?_⟩
    · exact act_next_of (f := fun d => d.bvcTrigger 0) ((htrigger 0).trans (if_neg (by rw [hseal]; exact Bool.false_ne_true)))
    · exact act_next_of (f := fun d => d.bvcTrigger 0) ((htrigger 0).trans (if_pos hseal))
    · exact act_next_of (f := fun d => d.bvcTrigger 1) ((htrigger 1).trans (if_neg (by rw [hseal]; exact Bool.false_ne_true)))
    · exact act_next_of (f := fun d => d.bvcTrigger 1) ((htrigger 1).trans (if_pos hseal))
  · intro s bad b d e f hphase hend hd hseal he hseal' hf htrigger
    have hfinish := (Dev.bvcDrained_ends hphase hend bad).trans (Dev.bvcFinish_seals hd hseal he hseal' hf htrigger)
    cases b
    · exact act_next_of (f := fun d => d.bvcDrained false bad) hfinish
    · exact act_next_of (f := fun d => d.bvcDrained true bad) hfinish
  · exact fun s hmain hphase => act_next_of (f := Dev.returnNoLoss) (Dev.returnNoLoss_held hmain hphase)

/-! ### The end of a suspension (R619 to R621, R647) -/

theorem pitResume_gates : R.pitResume < 2 ^ 24 ∧ oneWide R.pitResume = true ∧ regMapped R.pitResume = true ∧ R.pitResume ≠ R.pitResumeToken ∧ timeIdx R.pitResume = none := by decide

theorem pitResumeCtl_gates : R.pitResumeCtl % 4 = 0 ∧ R.pitResumeCtl < 2 ^ 24 ∧ regMapped R.pitResumeCtl = true ∧ R.pitResumeCtl ≠ R.pitResumeToken ∧ timeIdx R.pitResumeCtl = none := by decide

section
variable {d : Dev}

theorem Dev.judgeOf_pitResume (hawaits : d.awaitsToken = true) (x : W64) :
    d.judgeOf .pf (mgrWrite8 R.pitResume x) = .ok 0#64 0#64 false false (fun e => e.endsSuspension (if d.tokenCause x = 0 then 2 else 4) (d.tokenCause x)) := by
  rw [d.judgeOf_pit (c := mgrWrite8 R.pitResume x) (show R.pitResume / 0x10000 = 1 by decide) (show resHalf R.pitResume = false by decide)]
  refine ((if_neg (by rw [mgrWrite8_off]; decide)).trans ((if_neg (by rw [mgrWrite8_off]; decide)).trans (if_pos rfl)) :
    d.judgePit (mgrWrite8 R.pitResume x) = d.judgeResume _).trans ?_
  exact if_neg (by rw [hawaits]; exact Bool.false_ne_true)

theorem Dev.judgeOf_pitResumeCtl (hawaits : d.awaitsToken = true) :
    d.judgeOf .pf (mgrWrite R.pitResumeCtl 1#32) = .ok 0#64 0#64 false false (fun e => e.endsSuspension 4 2) := by
  have hvalue : (mgrWrite R.pitResumeCtl 1#32).data.toNat &&& (mgrWrite R.pitResumeCtl 1#32).mask = 1 := mgrWrite_masked R.pitResumeCtl 1#32
  have hwhole : woOk (mgrWrite R.pitResumeCtl 1#32).be 1 = true := (by decide : woOk 15 1 = true)
  rw [d.judgeOf_pit (c := mgrWrite R.pitResumeCtl 1#32) (show R.pitResumeCtl / 0x10000 = 1 by decide) (show resHalf R.pitResumeCtl = false by decide)]
  refine ((if_neg (by rw [mgrWrite_off]; decide)).trans ((if_neg (by rw [mgrWrite_off]; decide)).trans ((if_neg (by rw [mgrWrite_off]; decide)).trans (if_pos rfl))) :
    d.judgePit (mgrWrite R.pitResumeCtl 1#32) = d.judgeDiscard _).trans ?_
  unfold Dev.judgeDiscard
  simp only [hvalue, hwhole, hawaits]
  rfl

theorem Dev.resumeDone_host (hstate : d.g F.pitResumeStatus_state = 2)
    (hhost : ((d.each d.suspendedInsts (fun d n => d.is n 0 1 1)).step14 3 d.suspendedInsts.length).gb F.pitTwinCmdStatus_busy = false) :
    d.resumeDone = (d.each d.suspendedInsts (fun d n => d.is n 0 1 1)).step14 3 d.suspendedInsts.length :=
  (if_neg (by simp [hstate])).trans (if_neg (by rw [hhost]; exact Bool.false_ne_true))

theorem Dev.discardDone_due {c e f g : Dev} (hstate : d.g F.pitResumeStatus_state = 4) (hc : c = d.tagsInit.clearTables)
    (he : e = { c with regs := c.regs.filter (fun e : Nat × W64 => !discardReg e.1) })
    (hf : f = (({ e with bvc := { e.bvc with token := 0#64 }, twin := { e.twin with active := e.twin.active && decide (fieldOf (d.rd R.pitTwinStatus) 2 0 = 2) } } : Dev).wr
      R.pitResumeStatus (d.rd R.pitResumeStatus)).sb F.pitResumeStatus_token_set false)
    (hg : g = ((f.wr R.pitTwinStatus (d.rd R.pitTwinStatus)).sb F.pitTwinStatus_image_ok false).ratesNow) : d.discardDone = (g.step14 5 0).raise 266 := by
  subst hc he hf hg
  exact if_neg (by simp [hstate])

end

/-- Settles O57: what a token written, presented or discarded does, and the two ends of step 14. -/
theorem resumptionCommandsComplete : Obligations.ResumptionCommandsComplete := by
  obtain ⟨hbound, hwide, hmapped, htoken, htime⟩ := pitResume_gates
  obtain ⟨halign, hbound', hmapped', htoken', htime'⟩ := pitResumeCtl_gates
  refine ⟨?_, ?_, ?_, ?_, ?_, ?_⟩
  · exact fun s x hready => execResumeTokenWrite_mgr x hready
  · intro s x hready hawaits hcause
    have hdone := regWr8_mgr_accepted hready hbound hwide hmapped htoken htime (Dev.judgeOf_pitResume hawaits x)
    rw [hcause] at hdone
    exact hdone
  · rintro s x r hready hawaits rfl hcause
    have hdone := regWr8_mgr_accepted hready hbound hwide hmapped htoken htime (Dev.judgeOf_pitResume hawaits x)
    rw [if_neg hcause] at hdone
    exact hdone
  · intro s hready hawaits
    have hdone := regWr_mgr_accepted_same hready halign hbound' hmapped' htoken' htime' (Dev.judgeOf_pitResumeCtl hawaits)
    exact hdone
  · exact fun s hp hstate hhost => chip_next_of hp (Dev.resumeDone_host hstate hhost)
  · exact fun s c d e f hp hstate hc hd he hf => chip_next_of hp (Dev.discardDone_due hstate hc hd he hf)

end Sys2Proof.Machine
end

section
/-! PROOFS. The twin pair (18): its messages, its timers and the manager's commands, and the statements TwinMessagesComplete, TwinTimersComplete and TwinCommandsComplete. -/
namespace Sys2Proof.Machine

/-! ### The messages (R624, R626, R627, R641) -/

section
variable {d e : Dev}

/-- A Hello of this version reaches a member whose tables have the peer's sizes. -/
theorem Dev.twinHello_fits {h : TwinHello} (he : e = (d.shadowTake (twinHelloBytes h)).twinHeard) (hmember : (d.shadowTake (twinHelloBytes h)).twinMember = true)
    (hversion : h.version = 1#8) (h8 : h.sv8.toNat = e.sizeLvl 8) (h10 : h.sv10.toNat = e.sizeLvl 16) :
    d.twinHello h = if h.role = 2#8 then
        (if e.role = 2 || e.role = 5 then ({ e with twin := { e.twin with peer := some h } } : Dev).demote (twinOrg h)
          else if e.role = 1 || e.role = 3 then ({ e with twin := { e.twin with peer := some h } } : Dev).beStandby h else { e with twin := { e.twin with peer := some h } })
      else if e.role = 1 then ({ e with twin := { e.twin with peer := some h } } : Dev).rankPair h
      else if e.role = 2 then ({ e with twin := { e.twin with peer := some h } } : Dev).peerAtActive h
      else { e with twin := { e.twin with peer := some h } } := by
  subst he
  exact (if_neg (by simp [hmember])).trans ((if_neg (by simp [hversion])).trans (if_neg (by simp [← h8, ← h10])))

/-- A Delta of the epoch that the standby expects joins its staging. -/
theorem Dev.shadowDelta_expected {n : W64} {es : List DeltaEnt} (he : e = (d.shadowTake (deltaBytes n es)).twinHeard) (hmember : (d.shadowTake (deltaBytes n es)).twinMember = true)
    (hrole : e.role = 3) (hnum : e.stagingNow.num = n) :
    d.shadowDelta 1#8 n es = ({ e with twin := { e.twin with staging := some { e.stagingNow with ents := e.stagingNow.ents ++ es } } } : Dev).stoMove 3 (64 * es.length) := by
  subst he
  exact (if_neg (by simp [hmember])).trans ((if_neg (by decide)).trans ((if_neg (by simp [hrole])).trans (if_neg (by simp [hnum]))))

/-- A Commit that fits the staged epoch applies it and is acknowledged. -/
theorem Dev.shadowCommit_fits {c : TwinCommit} (he : e = (d.shadowTake (commitBytes c.epoch c.entries.toNat c.crc c.boundary c.tally)).twinHeard)
    (hmember : (d.shadowTake (commitBytes c.epoch c.entries.toNat c.crc c.boundary c.tally)).twinMember = true) (hversion : c.version = 1#8) (hrole : e.role = 3)
    (hnum : e.stagingNow.num = c.epoch) (hcount : e.stagingNow.ents.length = c.entries.toNat) (hcrc : epochCrc e.stagingNow.ents = c.crc) :
    d.shadowCommit c = (e.applyEpoch { e.stagingNow with closed := true, boundary := c.boundary, tally := c.tally }).shadowSend (shadowAckBytes c.epoch false) := by
  subst he
  exact (if_neg (by simp [hmember])).trans ((if_neg (by simp [hversion])).trans ((if_neg (by simp [hrole])).trans (if_neg (by simp [hnum, hcount, hcrc]))))

/-- An Ack frees the epochs up to it. -/
theorem Dev.shadowAck_epoch {n : W64} {x : Epoch} (he : e = (d.shadowTake (shadowAckBytes n false)).twinHeard) (hmember : (d.shadowTake (shadowAckBytes n false)).twinMember = true)
    (hrole : e.role = 2) (hfind : e.twin.unacked.find? (fun e => e.num = n) = some x) (hn : n ≠ 0#64) :
    d.shadowAck 1#8 n false = (((({ e with twin := { e.twin with unacked := e.twin.unacked.filter (fun x => n.toNat < x.num.toNat) } } : Dev).wr R.pitTwinAcked n).wr
      R.pitTwinBoundary x.boundary).bump F.pitCntEpochs_count).sb F.pitTwinStatus_peer_ok true := by
  subst he
  refine (if_neg (by simp [hmember])).trans ((if_neg (by decide)).trans ((if_neg (by simp [hrole])).trans ((if_neg Bool.false_ne_true).trans ?_)))
  rw [hfind]
  exact if_pos hn

/-- A rejected epoch re-forms the pair. -/
theorem Dev.shadowAck_rejected {n : W64} (he : e = (d.shadowTake (shadowAckBytes n true)).twinHeard) (hmember : (d.shadowTake (shadowAckBytes n true)).twinMember = true) (hrole : e.role = 2) :
    d.shadowAck 1#8 n true = (e.bump F.pitCntRejected_count).reform 0 hwPit := by
  subst he
  exact (if_neg (by simp [hmember])).trans ((if_neg (by decide)).trans ((if_neg (by simp [hrole])).trans (if_pos rfl)))

end

/-- Settles O58: each shadow packet by the role it meets. -/
theorem twinMessagesComplete : Obligations.TwinMessagesComplete := by
  refine ⟨?_, ?_, ?_, ?_, ?_, ?_⟩
  · intro s h d hd hp hmember hversion h8 h10 hpeer hrole
    exact chip_next_of hp ((Dev.twinHello_fits hd hmember hversion h8 h10).trans ((if_neg hpeer).trans (if_pos hrole)))
  · intro s h d hd hp hmember hversion h8 h10 hpeer hrole
    exact chip_next_of hp ((Dev.twinHello_fits hd hmember hversion h8 h10).trans ((if_pos hpeer).trans ((if_neg (by simp [hrole])).trans (if_pos (by simp [hrole])))))
  · rintro s v n es d hd hp hmember rfl hrole hnum
    exact chip_next_of hp (Dev.shadowDelta_expected hd hmember hrole hnum)
  · exact fun s c d hd hp hmember hversion hrole hnum hcount hcrc => chip_next_of hp (Dev.shadowCommit_fits hd hmember hversion hrole hnum hcount hcrc)
  · rintro s v n d e hd hp hmember rfl hrole hfind hn
    exact chip_next_of hp (Dev.shadowAck_epoch hd hmember hrole hfind hn)
  · rintro s v n d hd hp hmember rfl hrole
    exact chip_next_of hp (Dev.shadowAck_rejected hd hmember hrole)

/-! ### The timers (R624, R625, R630, R632) -/

section
variable {d e : Dev}

theorem Dev.twinHelloTime_forming (hmember : d.twinMember = true) (hopen : d.fp7Open = true) (hpeer : d.gb F.pitTwinStatus_peer_ok = false)
    (hrole : d.role = 1 ∨ d.role = 2 ∨ d.role = 3) : d.twinHelloTime = d.sendTwinHello := if_pos (by simpa [hmember, hopen, hpeer, or_assoc] using hrole)

theorem Dev.twinNoCredit_forming (hmember : d.twinMember = true) (hrole : d.role = 1) (hopen : d.fp7Open = true) (hcredit : d.ded 7 7 + d.sharedCr 7 = 0) :
    d.twinNoCredit = d.raise 269 := if_pos (by simp only [hmember, hrole, hopen, hcredit, decide_true, Bool.and_self])

/-- A send ring that is not over its limit leaves the epoch open, and it is sent. -/
theorem Dev.ring_not_over {c : Bool} {f g : Dev → Dev} {x : Epoch} (hc : c = false) (hopen : d.twin.open_ = some x) :
    (if (d.whenD c f).twin.open_.isNone then d.whenD c f else g (d.whenD c f)) = g d := by
  subst hc
  exact if_neg (by change ¬ d.twin.open_.isNone = true; rw [hopen]; exact Bool.false_ne_true)

/-- An open epoch that fits the send ring is sent as its Deltas and its Commit. -/
theorem Dev.closeEpoch_fits {o x : Epoch} (hopen : d.twin.open_ = some o) (hrole : d.role = 2) (hx : x = { o with closed := true, boundary := d.rd R.clgHead, tally := d.tally })
    (he : e = ({ d with twin := { d.twin with unacked := d.twin.unacked ++ [x], open_ := some ⟨x.num + 1, [], false, 0#64, 0#64⟩ } } : Dev).wr R.pitTwinEpoch x.num)
    (hfits : e.twinBytes ≤ 3071 * 2 ^ 20) :
    d.closeEpoch = (e.each (deltas (x.ents.length + 1) x.ents) (fun d c => d.shadowSend (deltaBytes x.num c))).shadowSend
      (commitBytes x.num x.ents.length (epochCrc x.ents) x.boundary x.tally) := by
  have hover : decide (3071 * 2 ^ 20 < e.twinBytes) = false := decide_eq_false (Nat.not_lt.mpr hfits)
  unfold Dev.closeEpoch
  rw [hopen]
  refine (if_neg (not_not_intro hrole)).trans ?_
  subst hx he
  refine Dev.ring_not_over hover ?_ (x := ⟨o.num + 1, [], false, 0#64, 0#64⟩)
    (g := fun e => (e.each (deltas (o.ents.length + 1) o.ents) (fun d c => d.shadowSend (deltaBytes o.num c))).shadowSend
      (commitBytes o.num o.ents.length (epochCrc o.ents) (d.rd R.clgHead) d.tally))
  rfl

/-- The lease of an active is renewed at its witness. -/
theorem Dev.twinRenew_held {w : Addr} (hrole : d.role = 2) (hlease : d.gb F.pitTwinStatus_lease_held = true) (hwitness : d.twinWitness = some w) (hidle : d.twinAsking = false) :
    d.twinRenew = d.twinAsk 0x12 w := by
  refine (if_pos (by rw [hrole, hlease]; rfl)).trans ?_
  rw [hwitness]
  exact if_neg (by rw [hidle]; exact Bool.false_ne_true)

theorem Dev.twinRenew_lost (hrole : d.role = 2) (hlease : d.gb F.pitTwinStatus_lease_held = false) : d.twinRenew = d.askHold :=
  (if_neg (by rw [hlease, Bool.and_false]; exact Bool.false_ne_true)).trans (if_pos (by rw [hrole]; rfl))

theorem Dev.orphaned_uncovered (hrole : d.role = 2) (hcover : d.covered = false) (he : e = ((d.setRole 5 3 hwPit).sb F.pitTwinStatus_lease_held false).sb F.pitTwinStatus_peer_ok false) :
    d.orphaned = e.endTenants.raise 272 := by
  subst he
  exact if_neg (by rw [hrole, hcover]; decide)

theorem Dev.activeLost_down (hrole : d.role = 3) (hlink : d.linkState 7 = 0) (he : e = ((d.setRole 4 4 hwPit).sb F.pitTwinStatus_peer_ok false).raise 269) :
    d.activeLost = if e.gb F.pitTwinStatus_image_ok then e.askHold else e := by
  subst he
  exact if_neg (by simp [hrole, hlink])

end

/-- Settles O59: each timer in the role that it concerns. -/
theorem twinTimersComplete : Obligations.TwinTimersComplete := by
  refine ⟨?_, ?_, ?_, ?_, ?_, ?_, ?_, ?_⟩
  · exact fun s hp hmember hopen hpeer hrole => chip_next_of hp (Dev.twinHelloTime_forming hmember hopen hpeer hrole)
  · exact fun s hp hmember hrole hopen hcredit => chip_next_of hp (Dev.twinNoCredit_forming hmember hrole hopen hcredit)
  · exact fun s e x d hp hopen hrole hx hd hfits => chip_next_of hp (Dev.closeEpoch_fits hopen hrole hx hd hfits)
  · exact fun s w hp hrole hlease hwitness hidle => chip_next_of hp (Dev.twinRenew_held hrole hlease hwitness hidle)
  · exact fun s hp hrole hlease => chip_next_of hp (Dev.twinRenew_lost hrole hlease)
  · exact fun s d hp hrole hcover hd => chip_next_of hp (Dev.orphaned_uncovered hrole hcover hd)
  · intro s d hp hrole hlink hd
    have hlost := Dev.activeLost_down hrole hlink hd
    exact ⟨fun himage => chip_next_of hp (hlost.trans (if_pos himage)), fun himage => chip_next_of hp (hlost.trans (if_neg (by rw [himage]; exact Bool.false_ne_true)))⟩
  · exact fun s hp => chip_next hp _

/-! ### The manager's commands (R631, R636, R645, R648) -/

/-- The rows of pit.twin_witness and pit.twin_rd_seq. -/
def pitTwinWitnessRow : RegDef := ⟨0x10504, 0, 1, 0, 1, false, 0, ⟨false, true, false, false, false, false⟩, [⟨11, 0, .rw, .none, .any⟩, ⟨12, 12, .rw, .none, .any⟩]⟩
@[inherit_doc pitTwinWitnessRow] def pitTwinRdSeqRow : RegDef := ⟨0x10550, 0, 1, 0, 1, true, 0, ⟨true, false, false, false, false, false⟩, [wordField]⟩

/-- What the gates ask of the command registers of the twin pair. -/
theorem pitTwinWords_gates : ∀ off, off = R.pitTwinWitness ∨ off = R.pitTwinCmd →
    off % 4 = 0 ∧ off < 2 ^ 24 ∧ regMapped off = true ∧ off ≠ R.pitResumeToken ∧ timeIdx off = none := by
  rintro off (rfl | rfl) <;> decide

theorem pitTwinRdSeq_gates : R.pitTwinRdSeq < 2 ^ 24 ∧ oneWide R.pitTwinRdSeq = true ∧ regMapped R.pitTwinRdSeq = true ∧ R.pitTwinRdSeq ≠ R.pitResumeToken ∧
    timeIdx R.pitTwinRdSeq = none := by decide

section
variable {d : Dev}

/-- A whole write of a witness's address without a reserved bit is stored. -/
theorem Dev.judgeTable_pitTwinWitness {x : W32} (hx : x.toNat < 8192) :
    d.judgeTable (mgrWrite R.pitTwinWitness x) = .ok (d.rd R.pitTwinWitness) (x.setWidth 64) false false (fun d => d.wr R.pitTwinWitness (x.setWidth 64)) := by
  have hrow : regAt R.pitTwinWitness = some pitTwinWitnessRow := by decide
  have hvalue : d.regWrite pitTwinWitnessRow.fields (d.rd R.pitTwinWitness).toNat (2 ^ 32 - 1) x.toNat = some x.toNat := by
    simp only [pitTwinWitnessRow, Dev.regWrite, d.fieldWrite_rw_whole (f := ⟨11, 0, .rw, .none, .any⟩) _ x.toNat rfl (by decide),
      d.fieldWrite_rw_whole (f := ⟨12, 12, .rw, .none, .any⟩) _ x.toNat rfl (by decide), Dev.legal, if_true, Option.some.injEq]
    omega
  have hresv : resvBits pitTwinWitnessRow.fields (2 ^ 32 - 1) x.toNat = false := by
    have hmask : pitTwinWitnessRow.fields.foldl (fun a f => a ||| f.mask) 0 = 2 ^ 13 - 1 := by decide
    rw [resvBits_whole, hmask, Nat.and_two_pow_sub_one_eq_mod, decide_eq_false_iff_not, Decidable.not_not, Nat.mod_eq_of_lt hx]
  have hexempt : exemptReg R.pitTwinWitness = false := by decide
  rw [Dev.judgeTable_stores hrow (by decide) hvalue hresv, hexempt]

/-- A witness's address is stored; an active without the lease then asks for it. -/
theorem Dev.judgeOf_pitTwinWitness {x : W32} (hx : x.toNat < 8192) :
    ∃ eff, d.judgeOf .pf (mgrWrite R.pitTwinWitness x) = .ok (d.rd R.pitTwinWitness) (x.setWidth 64) false false eff ∧
      (∀ q e : Dev, e = q.wr R.pitTwinWitness (x.setWidth 64) → e.role ≠ 1 → e.role ≠ 2 → eff q = e) ∧
      (∀ q e : Dev, e = q.wr R.pitTwinWitness (x.setWidth 64) → e.role = 2 → e.gb F.pitTwinStatus_lease_held = false → eff q = e.askHold) := by
  rw [d.judgeOf_pit (c := mgrWrite R.pitTwinWitness x) (show R.pitTwinWitness / 0x10000 = 1 by decide) (show resHalf R.pitTwinWitness = false by decide)]
  have hjudge : d.judgePit (mgrWrite R.pitTwinWitness x) = d.judgeWitness (mgrWrite R.pitTwinWitness x) :=
    (if_neg (by rw [mgrWrite_off]; decide)).trans ((if_neg (by rw [mgrWrite_off]; decide)).trans ((if_neg (by rw [mgrWrite_off]; decide)).trans
      ((if_neg (by rw [mgrWrite_off]; decide)).trans ((if_neg (by rw [mgrWrite_off]; decide)).trans (if_pos rfl)))))
  rw [hjudge]
  unfold Dev.judgeWitness
  rw [Dev.judgeTable_pitTwinWitness hx]
  refine ⟨_, rfl, ?_, ?_⟩
  · rintro q e rfl hform hactive
    exact (if_neg (by rw [mgrWrite_off]; simp [hactive])).trans (if_neg (by rw [mgrWrite_off]; simp [hform, hactive]))
  · rintro q e rfl hactive hlease
    exact (if_neg (by rw [mgrWrite_off]; simp [hlease])).trans (if_pos (by rw [mgrWrite_off]; simp [hactive]))

/-- The word of a twin command is its operation. -/
theorem Dev.judgeOf_pitTwinCmd {op : Nat} (hop : op < 3) :
    d.judgeOf .pf (mgrWrite R.pitTwinCmd (BitVec.ofNat 32 op)) =
      (d.twinCheck op).elim (.ok 0#64 0#64 false false (fun d => d.twinDo op)) (fun r => .badEff 0#64 (fun d => d.s F.pitTwinCmdStatus_result r)) := by
  have hword : (BitVec.ofNat 32 op).toNat = op := by
    rw [BitVec.toNat_ofNat]
    omega
  have hvalue : (mgrWrite R.pitTwinCmd (BitVec.ofNat 32 op)).data.toNat &&& (mgrWrite R.pitTwinCmd (BitVec.ofNat 32 op)).mask = op := (mgrWrite_masked _ _).trans hword
  have hwhole : woOk (mgrWrite R.pitTwinCmd (BitVec.ofNat 32 op)).be 3 = true := (by decide : woOk 15 3 = true)
  have hresv : decide (4 ≤ op) = false := decide_eq_false (by omega)
  rw [d.judgeOf_pit (c := mgrWrite R.pitTwinCmd (BitVec.ofNat 32 op)) (show R.pitTwinCmd / 0x10000 = 1 by decide) (show resHalf R.pitTwinCmd = false by decide)]
  have hjudge : d.judgePit (mgrWrite R.pitTwinCmd (BitVec.ofNat 32 op)) = d.judgeTwinCmd (mgrWrite R.pitTwinCmd (BitVec.ofNat 32 op)) :=
    (if_neg (by rw [mgrWrite_off]; decide)).trans ((if_neg (by rw [mgrWrite_off]; decide)).trans ((if_neg (by rw [mgrWrite_off]; decide)).trans
      ((if_neg (by rw [mgrWrite_off]; decide)).trans ((if_neg (by rw [mgrWrite_off]; decide)).trans ((if_neg (by rw [mgrWrite_off]; decide)).trans (if_pos rfl))))))
  rw [hjudge]
  unfold Dev.judgeTwinCmd
  simp only [hvalue, hwhole, hresv, Nat.mod_eq_of_lt (show op < 4 by omega), Bool.not_true, Bool.false_eq_true, if_false]
  cases d.twinCheck op <;> rfl

theorem Dev.judgeOf_pitTwinRdSeq (x : W64) :
    d.judgeOf .pf (mgrWrite8 R.pitTwinRdSeq x) = .ok (d.rd R.pitTwinRdSeq) x false false (fun d => (d.wr R.pitTwinRdSeq x).twinSnap) := by
  have hrow : regAt R.pitTwinRdSeq = some pitTwinRdSeqRow := by decide
  have hexempt : exemptReg R.pitTwinRdSeq = false := by decide
  rw [d.judgeOf_pit (c := mgrWrite8 R.pitTwinRdSeq x) (show R.pitTwinRdSeq / 0x10000 = 1 by decide) (show resHalf R.pitTwinRdSeq = false by decide)]
  have hjudge : d.judgePit (mgrWrite8 R.pitTwinRdSeq x) = d.judgeTwinRd (mgrWrite8 R.pitTwinRdSeq x) :=
    (if_neg (by rw [mgrWrite8_off]; decide)).trans ((if_neg (by rw [mgrWrite8_off]; decide)).trans ((if_neg (by rw [mgrWrite8_off]; decide)).trans
      ((if_neg (by rw [mgrWrite8_off]; decide)).trans ((if_neg (by rw [mgrWrite8_off]; decide)).trans ((if_neg (by rw [mgrWrite8_off]; decide)).trans
        ((if_neg (by rw [mgrWrite8_off]; decide)).trans (if_pos rfl)))))))
  rw [hjudge]
  unfold Dev.judgeTwinRd
  rw [Dev.judgeTable_word hrow rfl (by decide), hexempt]
  rfl

/-- The manager's read of the last shadow-log word moves the read position on. -/
theorem Dev.readBy_lastTwinRecord (hreach : d.reaches (R.pitTwinRdRec 7 + 4) = true) :
    d.readBy .pf (R.pitTwinRdRec 7 + 4) = d.twinAdvance.emit (.rdata 0 (bytesLE 4 ((d.peek (R.pitTwinRdRec 7 + 4) false).getD 0#64).toNat) false) := by
  have htime : timeIdx (R.pitTwinRdRec 7 + 4) = none := by decide
  have hclaim : idxIn (R.pitTwinRdRec 7 + 4) (R.licClaim 0) 8 16 = none := by decide
  obtain ⟨-, hmem, hanswers, hpower⟩ := Dev.reaches_host hreach
  have hrec : d.recBusy (R.pitTwinRdRec 7 + 4) = false := by
    unfold Dev.recBusy
    rw [show (decide (R.clgRdRec 0 ≤ R.pitTwinRdRec 7 + 4) && decide (R.pitTwinRdRec 7 + 4 < R.clgRdRec 8)) = false by decide, Bool.false_and]
  have hread : d.readEff 0 none (R.pitTwinRdRec 7 + 4) false = (d.twinAdvance, (d.peek (R.pitTwinRdRec 7 + 4) false).getD 0#64) := by
    unfold Dev.readEff
    simp only [htime, hclaim]
    exact (if_neg (by decide)).trans (if_pos rfl)
  have hnow : d.readWaits (R.pitTwinRdRec 7 + 4) = false := by
    unfold Dev.readWaits
    rw [hrec, hpower]
    rfl
  have hhost : d.hostRead (R.pitTwinRdRec 7 + 4) false = d.twinAdvance.emit (.rdata 0 (bytesLE 4 ((d.peek (R.pitTwinRdRec 7 + 4) false).getD 0#64).toNat) false) := by
    unfold Dev.hostRead
    rw [hmem, hanswers, hpower, hclaim, hread]
    rfl
  exact (if_neg (by rw [hnow, Bool.and_false]; exact Bool.false_ne_true)).trans hhost

end

/-- The three twin commands write their operation to pit.twin_cmd. -/
theorem exec_twinCommand (s : State) {op : Nat} {c : Instr} (h : (op, c) ∈ [(0, Instr.twinResume .pf 15#8), (1, .twinTakeOver .pf 15#8), (2, .twinReform .pf 15#8)]) :
    op < 3 ∧ exec c s = regWr s .pf R.pitTwinCmd 15#8 (BitVec.ofNat 32 op) := by
  simp only [List.mem_cons, Prod.mk.injEq, List.not_mem_nil, or_false] at h
  obtain ⟨rfl, rfl⟩ | ⟨rfl, rfl⟩ | ⟨rfl, rfl⟩ := h
  · exact ⟨by decide, rfl⟩
  · exact ⟨by decide, rfl⟩
  · exact ⟨by decide, rfl⟩

/-- Settles O60: each command by the judgement of its register. -/
theorem twinCommandsComplete : Obligations.TwinCommandsComplete := by
  obtain ⟨halign, hbound, hmapped, htoken, htime⟩ := pitTwinWords_gates R.pitTwinCmd (.inr rfl)
  obtain ⟨halign', hbound', hmapped', htoken', htime'⟩ := pitTwinWords_gates R.pitTwinWitness (.inl rfl)
  obtain ⟨hbound8, hwide, hmapped8, htoken8, htime8⟩ := pitTwinRdSeq_gates
  refine ⟨?_, ?_, ?_, ?_, ?_⟩
  · intro s x d hd hready hx
    obtain ⟨eff, hjudge, hstored, hasked⟩ := s.dev.judgeOf_pitTwinWitness hx
    have hdone := regWr_mgr_plain hready halign' hbound' hmapped' htoken' htime' hjudge
    refine ⟨fun hform hactive => ?_, fun hactive hlease => ?_⟩
    · rw [hstored _ _ hd hform hactive] at hdone
      exact hdone
    · rw [hasked _ _ hd hactive hlease] at hdone
      exact hdone
  · intro s op c hc hready hcheck
    obtain ⟨hop, hexec⟩ := exec_twinCommand s hc
    have hjudge := Dev.judgeOf_pitTwinCmd (d := s.dev) hop
    rw [hcheck, Option.elim_none] at hjudge
    have hdone := regWr_mgr_accepted_same hready halign hbound hmapped htoken htime hjudge
    exact hexec.trans hdone
  · intro s op r c hc hready hcheck
    obtain ⟨hop, hexec⟩ := exec_twinCommand s hc
    have hjudge := Dev.judgeOf_pitTwinCmd (d := s.dev) hop
    rw [hcheck, Option.elim_some] at hjudge
    have hdone := regWr_mgr_badEff hready halign hbound hmapped htoken htime hjudge
    exact hexec.trans hdone
  · intro s x hready
    have hdone := regWr8_mgr_accepted hready hbound8 hwide hmapped8 htoken8 htime8 (s.dev.judgeOf_pitTwinRdSeq x)
    rw [show 4 * b2n false = 0 from rfl, Nat.zero_add] at hdone
    exact hdone
  · exact fun s hreach => actIf_next_of (Dev.reaches_host hreach).1 (Dev.readBy_lastTwinRecord hreach)

end Sys2Proof.Machine
end
